-- ==== Sys2Proof/Word.lean ====
section
/-! DEFINITION. Word.lean: the words of the XNL-7264: bytes, 32-bit and 64-bit words, digests, and the
sparse table in which every array of the state is kept. -/

namespace Sys2Proof

/-- One byte. -/
abbrev Byte := BitVec 8
/-- A 32-bit word (a half register, a residue). -/
abbrev Word32 := BitVec 32
/-- A 64-bit word (a register of BAR0, a lane, a scalar register). -/
abbrev Word64 := BitVec 64
/-- The value of a SHA-384 digest or of a public key, which the model never looks into. -/
abbrev Digest := Nat
/-- A sparse table: keys strictly rising, no entry equal to the table's default. -/
abbrev Tab (α : Type) := List (Nat × α)

end Sys2Proof
end

