-- ==== Sys2Proof/Machine/Tab.lean ====
section
/-! DEFINITION. Machine/Tab.lean: reading and writing a sparse table, the number-format helpers, and the
little-endian byte order of R11. -/

namespace Sys2Proof

/-- The value at key `k`; a key with no entry holds the default `d`. -/
def Tab.look {α : Type} (d : α) : Tab α → Nat → α
  | [], _ => d
  | (k', v) :: r, k => if k' = k then v else Tab.look d r k

/-- Put an entry in its place by key, in place of one of the same key. -/
def Tab.insertAt {α : Type} : Tab α → Nat → α → Tab α
  | [], k, v => [(k, v)]
  | (k', v') :: r, k, v =>
    if k < k' then (k, v) :: (k', v') :: r
    else if k = k' then (k, v) :: r
    else (k', v') :: Tab.insertAt r k v

/-- Write `v` at key `k`, keeping the keys rising and no entry equal to the default `d`. -/
def Tab.put {α : Type} [DecidableEq α] (d : α) (t : Tab α) (k : Nat) (v : α) : Tab α :=
  if v = d then t.filter (fun e => e.1 != k) else Tab.insertAt t k v

/-- The keys of a table are strictly rising, starting above `lo` where a bound is given, and no entry is the default. -/
def Tab.wfFrom {α : Type} [DecidableEq α] (d : α) : Option Nat → Tab α → Bool
  | _, [] => true
  | none, (k, v) :: r => decide (v ≠ d) && Tab.wfFrom d (some k) r
  | some lo, (k, v) :: r => decide (lo < k) && decide (v ≠ d) && Tab.wfFrom d (some k) r

/-- The canonical form of a sparse table. -/
def Tab.wf {α : Type} [DecidableEq α] (d : α) (t : Tab α) : Bool := Tab.wfFrom d none t

/-- Keep the entries whose key satisfies `p`: the others go back to the default. -/
def Tab.keep {α : Type} (t : Tab α) (p : Nat → Bool) : Tab α := t.filter (fun kv => p kv.1)

/-- A count of `w` bits that saturates at its maximum (R153, R271, R453, R496). -/
def satAdd (w a b : Nat) : Nat := if a + b < 2 ^ w then a + b else 2 ^ w - 1

/-- A count of `w` bits that wraps. -/
def wrapAdd (w a b : Nat) : Nat := (a + b) % 2 ^ w

/-- The smallest whole number at least `a / b` (0 where `b` is 0). -/
def ceilDiv (a b : Nat) : Nat := (a + b - 1) / b

/-- `n` bytes of a number, least significant first (R11). -/
def leBytes : Nat → Nat → List Byte
  | 0, _ => []
  | n + 1, v => BitVec.ofNat 8 v :: leBytes n (v / 256)

/-- The number that bytes spell, least significant first (R11). -/
def leNat : List Byte → Nat
  | [] => 0
  | b :: r => b.toNat + 256 * leNat r

/-- `n` bytes from offset `off`; a byte past the end reads 0. -/
def slice (bs : List Byte) (off n : Nat) : List Byte :=
  let got := (bs.drop off).take n
  got ++ List.replicate (n - got.length) 0

/-- The little-endian field of `n` bytes at offset `off`. -/
def field (bs : List Byte) (off n : Nat) : Nat := leNat (slice bs off n)

/-- Every one of the `n` bytes at `off` is zero. -/
def zeroAt (bs : List Byte) (off n : Nat) : Bool := (slice bs off n).all (· == 0)

/-- The bits `lo + w - 1 .. lo` of a number (R10). -/
def bits (v lo w : Nat) : Nat := v / 2 ^ lo % 2 ^ w

/-- One bit of a number. -/
def bitAt (v i : Nat) : Bool := v / 2 ^ i % 2 == 1

/-- A Bool as a bit. -/
def b2n (b : Bool) : Nat := if b then 1 else 0

/-- Place fields in a register word: each entry is (lowest bit, width, value). -/
def packFields : List (Nat × Nat × Nat) → Nat
  | [] => 0
  | (lo, w, v) :: r => v % 2 ^ w * 2 ^ lo + packFields r

/-- The two's complement value of a `w`-bit number. -/
def toSigned (w v : Nat) : Int := if v % 2 ^ w < 2 ^ (w - 1) then (v % 2 ^ w : Nat) else (v % 2 ^ w : Nat) - (2 ^ w : Nat)

/-- The `w`-bit two's complement code of an integer. -/
def ofSigned (w : Nat) (i : Int) : Nat := (i % (2 ^ w : Nat)).toNat

/-- Replace the element at index `i` of a list. -/
def listPut {α : Type} (l : List α) (i : Nat) (a : α) : List α := l.set i a

/-- Rounding a quotient by a power of two to the nearest integer, ties to even (R169). -/
def roundHalfEven (p : Int) (sh : Nat) : Int :=
  if sh = 0 then p else
  let q := p / (2 ^ sh : Nat)
  let r := p % (2 ^ sh : Nat)
  let h : Int := (2 ^ (sh - 1) : Nat)
  if r < h then q else if h < r then q + 1 else if q % 2 = 0 then q else q + 1

/-- The floor of the base-2 logarithm (0 for 0). -/
def log2Floor (n : Nat) : Nat := Nat.log2 n

/-- The least `e` with `n ≤ 2^e`. -/
def log2Ceil (n : Nat) : Nat := if n ≤ 1 then 0 else Nat.log2 (n - 1) + 1

end Sys2Proof
end

