-- ==== Sys2Proof/Syntax.lean ====
section
/-! DEFINITION. Syntax.lean: the operands of the engine's steps, and `Instr`, one constructor per row of
spec/opcode_table.json. A constructor's docstring cites the row's rule. What reaches the engine from outside (a host
command's 64 bytes, the bytes host memory holds, a received frame, a sensor's reading) and the verdict of a published
algorithm on it (a signature, a tag) stand in the operands (notes/assumptions/1.md, 2.md). -/

namespace Sys2Proof

/-- The status codes of R537. -/
inductive Status where
  | ok | cfgMismatch | cfgLocked | cfgSignature | xlateFault | quotaExceeded | rights | memUe | rotationBusy
  | keyAbsent | keyStale | keySpent | keyUse | bounds | endpointParked | peerParked | peerUnreachable
  | ctLevelExhausted | ctNoiseExhausted | evkMismatch | evkChunkDigest | ctParams | accScaleExhausted | accNoCapacity
  | instrVMissing | instrIllegal | guardRefused | cohortBelowMin | duplicateContrib | roundClosed | headroom
  | releaseRefused | aeadFail | tenantGone | budget | replicaMismatch | barrierTimeout | lifecycle | tamper | internal
  deriving DecidableEq, Repr, Inhabited

/-- The code of a status (R537). -/
def Status.code : Status → Nat
  | .ok => 0x00 | .cfgMismatch => 0x10 | .cfgLocked => 0x11 | .cfgSignature => 0x12 | .xlateFault => 0x20
  | .quotaExceeded => 0x21 | .rights => 0x22 | .memUe => 0x23 | .rotationBusy => 0x24 | .keyAbsent => 0x30
  | .keyStale => 0x31 | .keySpent => 0x32 | .keyUse => 0x33 | .bounds => 0x34 | .endpointParked => 0x38
  | .peerParked => 0x39 | .peerUnreachable => 0x3A | .ctLevelExhausted => 0x40 | .ctNoiseExhausted => 0x41
  | .evkMismatch => 0x42 | .evkChunkDigest => 0x43 | .ctParams => 0x44 | .accScaleExhausted => 0x50
  | .accNoCapacity => 0x51 | .instrVMissing => 0x52 | .instrIllegal => 0x53 | .guardRefused => 0x60
  | .cohortBelowMin => 0x61 | .duplicateContrib => 0x62 | .roundClosed => 0x63 | .headroom => 0x64
  | .releaseRefused => 0x65 | .aeadFail => 0x66 | .tenantGone => 0x70 | .budget => 0x72 | .replicaMismatch => 0x80
  | .barrierTimeout => 0x81 | .lifecycle => 0x90 | .tamper => 0x91 | .internal => 0xF0

abbrev CellId := Fin 64
abbrev PortId := Fin 16
abbrev TenantId := Fin 8
abbrev EngineId := Fin 32
abbrev Handle := Fin 64
abbrev EpId := Fin 8192
abbrev FnId := Fin 8

/-- A host command: where it was fetched, and the fields of its 64 bytes (R531). `host` holds the bytes that host
memory answers with when the engine reads the command's block in a HOST page or at a bus address, from ADDR on. -/
structure Cmd where
  /-- function: 0 is PF0, t is VF t -/
  fn : FnId
  /-- queue pair of the function -/
  qp : PortId
  cid : Nat
  /-- FLAGS byte and reserved bytes 5 to 7, as one number -/
  rsvd : Nat := 0
  tenant : Nat := 0
  addr : Nat := 0
  len : Nat := 0
  a0 : Nat := 0
  a1 : Nat := 0
  a2 : Nat := 0
  a3 : Nat := 0
  a4 : Nat := 0
  host : List Byte := []
  deriving DecidableEq, Repr, Inhabited

/-- Verdicts of the two signatures of a block in the layout of R100. -/
structure SigPair where
  /-- an RSA-3072 signature is there and verifies -/
  rsa : Bool
  /-- an SLH-DSA signature is there and verifies -/
  slh : Bool
  deriving DecidableEq, Repr, Inhabited

/-- Both signatures verify (R101). -/
def SigPair.ok (p : SigPair) : Bool := p.rsa && p.slh

/-! The jig (R97 to R100). -/

/-- The header of a jig image (R97). -/
structure JigHeader where
  magic : Nat := 0x47494A58
  formatVersion : Nat := 1
  headerLength : Nat := 0x100
  imageLength : Nat := 0
  part : Nat := 0x7264
  stepping : Nat := 0
  flags : Nat := 0
  compositionHash : Digest := 0
  serial : Nat := 0
  fwClass : Nat := 0
  sectionCount : Nat := 0
  sigOffset : Nat := 0
  ownerKeys : Digest := 0
  /-- the reserved 128 bytes are zero -/
  reservedZero : Bool := true
  deriving DecidableEq, Repr, Inhabited

/-- One member of the ASSEMBLY section (R99). -/
structure JigMember where
  fingerprint : Digest
  index : Nat
  domain : Nat
  /-- the member's port addresses, as numbers -/
  addrs : List Nat := []
  deriving DecidableEq, Repr, Inhabited

/-- ASSEMBLY: members, domain size D, replication r, coordinator and standby (R34 to R36, R99). -/
structure JigAssembly where
  members : List JigMember := []
  d : Nat := 1
  r : Nat := 1
  coordinator : Nat := 0
  standby : Nat := 0xFFFF
  deriving DecidableEq, Repr, Inhabited

/-- The Spindle role of R51. -/
inductive SpinRole where | master | follower | unassigned
  deriving DecidableEq, Repr, Inhabited

/-- The epoch source of R51. -/
inductive EpochSource where | sync | ptp | other
  deriving DecidableEq, Repr, Inhabited

/-- SPINDLE (R99). -/
structure JigSpindle where
  k : Nat := 13
  epoch : EpochSource := .sync
  ptpPort : Nat := 0
  ptpDomain : Nat := 0
  /-- role of each member, in assembly-index order -/
  roles : List SpinRole := []
  deriving DecidableEq, Repr, Inhabited

/-- One member's PARTITION record (R125). -/
structure JigPartition where
  /-- byte c: tenant of cell c, 8 for none -/
  cellTenant : List Nat := []
  /-- byte c: group of cell c, 0xFF for none -/
  cellGroup : List Nat := []
  /-- byte d: cell group fed by DMA engine d, 0xFF for none -/
  dmaGroup : List Nat := []
  deriving DecidableEq, Repr, Inhabited

/-- One mesh route entry (R151). -/
structure JigRoute where
  src : Nat
  dst : Nat
  hops : Nat
  path : Nat
  deriving DecidableEq, Repr, Inhabited

/-- One port entry (R415). -/
structure JigPort where
  /-- 0 unused, 1 fabric, 2 Ethernet -/
  role : Nat := 0
  udpPort : Nat := 0
  peerMember : Nat := 0xFFFF
  peerPort : Nat := 0
  mac : Nat := 0
  ipv6 : Nat := 0
  gatewayMac : Nat := 0
  deriving DecidableEq, Repr, Inhabited

/-- One fabric route of a route set: from one member to another, leaving each member on the way by the port listed. -/
structure FabRoute where
  src : Nat
  dst : Nat
  /-- the port by which the frame leaves the source and each member on the way -/
  ports : List Nat
  deriving DecidableEq, Repr, Inhabited

/-- One member's upstream ports in both trees (R55); `none` where it has none. -/
structure Upstream where
  pri : Option Nat := none
  sec : Option Nat := none
  standbyPri : Option Nat := none
  standbySec : Option Nat := none
  deriving DecidableEq, Repr, Inhabited

/-- ROUTE_SET (R99, R120). -/
structure JigRouteSet where
  routes : List FabRoute := []
  upstream : List Upstream := []
  /-- shard i is held by these members: the pair, or one member -/
  shards : List (List Nat) := []
  deriving DecidableEq, Repr, Inhabited

/-- POLICY of one tenant (R99, R300). -/
structure JigPolicy where
  cohortMin : Nat := 16
  roundMin : Nat := 16
  /-- unsigned 16.16 -/
  noiseFloor : Nat := 0
  deriving DecidableEq, Repr, Inhabited

/-- LIVE: the live fields (R119). -/
structure JigLive where
  heartbeatMs : Nat := 2000
  hostLostS : Nat := 600
  deviceMask : Nat := 0xFFFFFFFF
  tempWarnC : Nat := 95
  deriving DecidableEq, Repr, Inhabited

/-- A slot table's entries, one byte per slot (R62, R63). -/
abbrev SlotTable := List Nat

/-- The resource classes of R62, in the table's order. -/
inductive ResClass where
  | cellGroup | meshRoute | dma | maskExpander | ingest | ring | port | hbmRefresh | ddrRefresh
  deriving DecidableEq, Repr, Inhabited

/-- The number of a class in the order of R62 and of PWR_GRANT (R520). -/
def ResClass.index : ResClass → Nat
  | .cellGroup => 0 | .meshRoute => 1 | .dma => 2 | .maskExpander => 3 | .ingest => 4 | .ring => 5 | .port => 6
  | .hbmRefresh => 7 | .ddrRefresh => 8

/-- The key of a slot table: class and instance. -/
def slotKey (c : ResClass) (inst : Nat) : Nat := c.index * 256 + inst

/-- The values of every section of a jig (R99). -/
structure JigConfig where
  assembly : JigAssembly := {}
  spindle : JigSpindle := {}
  /-- per member -/
  partition : List JigPartition := []
  /-- per member: tables by `slotKey`; a table not listed is all IDLE -/
  slots : List (Tab SlotTable) := []
  /-- DMA budget by tenant -/
  dmaBudget : Tab Nat := []
  /-- link budget by 16 t + p -/
  linkBudget : Tab Nat := []
  /-- per member -/
  routes : List (List JigRoute) := []
  /-- per member -/
  ports : List (List JigPort) := []
  /-- route sets by instance -/
  routeSets : List (Nat × JigRouteSet) := []
  /-- quota in bytes by 3 t + tier (0 HBM, 1 DDR) -/
  quotas : Tab Nat := []
  scrub : Nat := 0
  /-- band by 8 t + class -/
  power : Tab Nat := []
  /-- by tenant -/
  policy : List JigPolicy := []
  live : Option JigLive := none
  deriving DecidableEq, Repr, Inhabited

/-- One section of a jig image as it stands in the section area (R98). -/
structure JigSection where
  type : Nat
  inst : Nat
  /-- offset of the section in the image -/
  offset : Nat
  length : Nat
  /-- the bytes of the value -/
  value : List Byte
  /-- the padding after the value is there and zero -/
  padZero : Bool
  deriving DecidableEq, Repr, Inhabited

/-- What the bytes of a jig image mean beyond the layouts that the spec gives: the values of the sections whose layout it does not
give, by 4 type + instance the sections of those whose reserved bytes are not all 0 or whose LENGTH does not match the content, and
the verdicts on the signature block. Header, sections, PARTITION and MESH_ROUTES are read from the bytes themselves. -/
structure JigImage where
  cfg : JigConfig := {}
  misshapen : List Nat := []
  sig : SigPair := ⟨false, false⟩
  deriving DecidableEq, Repr, Inhabited

/-- The new value that an edit record gives a section (R107). -/
inductive JigValue where
  | assembly (a : JigAssembly) | spindle (v : JigSpindle) | partition (v : List JigPartition)
  | slots (v : List (Tab SlotTable)) | budgets (dma link : Tab Nat) | routes (v : List (List JigRoute))
  | ports (v : List (List JigPort)) | routeSet (v : JigRouteSet) | quotas (v : Tab Nat) | scrub (v : Nat)
  | power (v : Tab Nat) | policy (v : List JigPolicy) | live (v : JigLive)
  deriving DecidableEq, Repr, Inhabited

/-- One edit record as its bytes give it (R107). -/
structure EditRecord where
  type : Nat
  inst : Nat
  flags : Nat
  rsvd : Nat
  offset : Nat
  length : Nat
  data : List Byte
  deriving DecidableEq, Repr, Inhabited

/-- What the data of an edit record means where the spec gives the section no layout: the section's value with the data laid in at
OFFSET, whether the data covers a field locked to JIG_LOAD, and whether the value then breaks check 0x01. -/
structure EditMeaning where
  value : JigValue
  locked : Bool := false
  misshapen : Bool := false
  deriving DecidableEq, Repr, Inhabited

/-! Cell instructions (R216 to R221). -/

/-- Where an uncorrectable error is met: an accumulator register (R140), the cell SRAM word at an address (R144), or the link of a
route's hop (R149). -/
inductive CellUe where
  | acc
  | sram (addr : Nat)
  | link (hop : Nat)
  deriving DecidableEq, Repr, Inhabited

/-- What an instruction or a feed meets while it runs, which no rule lets the block compute: errors of its memories, and what other units
do in the same work cycles (R140, R142, R144, R149, R204, R208; notes/assumptions/45.md). -/
structure Met where
  /-- corrected errors of accumulator registers that it reads (R140) -/
  accCe : Nat := 0
  /-- corrected errors of cell SRAM words that it reads (R144) -/
  sramCe : Nat := 0
  /-- corrected errors on links, by the hop of the route (R149) -/
  linkCe : List Nat := []
  /-- an uncorrectable error, after so many steps, or beats of a transfer -/
  ue : Option (Nat × CellUe) := none
  /-- its later steps are abandoned after so many, since its cell halts (R204) -/
  cut : Option Nat := none
  /-- bytes of cell SRAM that it reads as they were before a write of another unit (R142, R208) -/
  stale : List (Nat × Byte) := []
  /-- 8-byte words in which another port's write of the same work cycle stands before its own (R142) -/
  lost : List Nat := []
  /-- writes of other ports that its own writes discard in the same work cycle (R142) -/
  beaten : Nat := 0
  deriving DecidableEq, Repr, Inhabited

/-- The fields common to cell instructions (R216): the cell that issues it, SIG with its token, SIG_TOKEN where SIG is 0; and what it
meets. -/
structure CellAt where
  cell : CellId
  sig : Option (Fin 64) := none
  idle : Fin 64 := 0
  met : Met := {}
  deriving DecidableEq, Repr, Inhabited

/-- An address operand (R217): scalar register and 22-bit offset. -/
structure AddrOp where
  base : Fin 16
  off : Nat
  deriving DecidableEq, Repr, Inhabited

/-- The stored form of a cell instruction (R216): its 128 bits. -/
abbrev InstrWord := BitVec 128

/-! Messages and packets. -/

/-- The 64-byte header of a client message (R244), with what the ingest engine finds on checking it. -/
structure MsgHeader where
  magic : Nat := 0x4D474158
  version : Nat := 1
  type : Nat := 0
  tenant : Nat := 0
  format : Nat := 0xFF
  round : Nat := 0
  cohort : Nat := 0
  client : Nat := 0
  count : Nat := 0
  chunk : Nat := 0
  offset : Nat := 0
  /-- the twelve bytes of NONCE, the first the least significant -/
  nonce : Nat := 0
  payloadLength : Nat := 0
  /-- the reserved bytes are zero -/
  reservedZero : Bool := true
  /-- total bytes of the message -/
  totalLength : Nat := 0
  /-- the tag verifies under the session key -/
  tagOk : Bool := false
  /-- the sender's address -/
  sender : Nat := 0
  /-- it was forwarded to this member by another (R41) -/
  forwarded : Bool := false
  deriving DecidableEq, Repr, Inhabited

/-- The text of a client message: its 64-byte header and its payload, sent in the clear for KEYEX and decrypted otherwise (R244 to R246). -/
structure MsgText where
  head : List Byte := []
  payload : List Byte := []
  deriving DecidableEq, Repr, Inhabited

/-- What an ingest engine finds of a client message besides. -/
structure MsgSeen where
  /-- total bytes of the message -/
  totalLength : Nat := 0
  /-- the tag verifies under the session key -/
  tagOk : Bool := false
  /-- the sender's address -/
  sender : Nat := 0
  /-- it was forwarded to this member by another (R41) -/
  forwarded : Bool := false
  deriving DecidableEq, Repr, Inhabited

/-- A client message as it reaches an ingest engine. -/
structure ClientMsg extends MsgText, MsgSeen where
  deriving DecidableEq, Repr, Inhabited

/-- One SHARE entry (R252). -/
structure ShareEntry where
  client : Nat
  kind : Nat
  rsvd : Nat
  value : Nat
  deriving DecidableEq, Repr, Inhabited

/-- The sets of a cohort that its home engine publishes: survivors, dropped clients and REASON (R260). -/
structure HomeSets where
  cohort : Nat
  survivors : List Nat
  dropped : List Nat
  reason : Nat
  deriving DecidableEq, Repr, Inhabited

/-- An Etkai packet (R426) with its payload and where it came from. -/
structure Packet where
  /-- the header has the form that R426 gives a DATA packet -/
  formOk : Bool := true
  op : Nat := 0
  retx : Bool := false
  ece : Bool := false
  dup : Bool := false
  tenant : Nat := 0
  code : Nat := 0
  srcEp : Nat := 0
  dstEp : Nat := 0
  pktIndex : Nat := 0
  pktCount : Nat := 1
  regionKey : Nat := 0
  msgId : Nat := 0
  offset : Nat := 0
  opId : Nat := 0
  srcMember : Nat := 0xFFFF
  dstMember : Nat := 0xFFFF
  payload : List Byte := []
  /-- arriving port -/
  port : PortId := 0
  /-- source IPv6 address, for an Ethernet port -/
  srcAddr : Nat := 0
  /-- the frame carried CE (R433) -/
  ce : Bool := false
  /-- what host memory answers when the engine reads the receive entry of a queue in a HOST page -/
  rqHost : List Byte := []
  deriving DecidableEq, Repr, Inhabited

/-- An Etkai packet as it arrives: the 48 bytes of its header and its payload (R426), and where it came from. -/
structure PacketIn where
  head : List Byte := []
  payload : List Byte := []
  /-- arriving port -/
  port : PortId := 0
  /-- source IPv6 address, for an Ethernet port -/
  srcAddr : Nat := 0
  /-- the frame carried CE (R433) -/
  ce : Bool := false
  /-- what host memory answers when the engine reads the receive entry of a queue in a HOST page -/
  rqHost : List Byte := []
  deriving DecidableEq, Repr, Inhabited

/-- A SCHEDULED frame's content: what the receiving operation does with it (R418, R450). -/
structure SchedFrame where
  owner : Nat
  /-- index of its route in the route set that was active when it was issued; 0xFFFF for a single-hop frame -/
  route : Nat
  dstMember : Nat
  port : PortId
  seq : Nat
  ackSeq : Nat
  /-- the tag verifies -/
  tagOk : Bool
  /-- payload bytes -/
  len : Nat
  /-- PUSH or BCAST landing: region key, offset, format (0xFF copy) and data -/
  regionKey : Nat := 0
  offset : Nat := 0
  format : Nat := 0xFF
  data : List Byte := []
  /-- the last frame of its request -/
  last : Bool := true
  /-- it was issued before the boundary of the last swap (R121) -/
  old : Bool := false
  srcMember : Nat := 0
  /-- a destination's verdict on this member's PUSH or BCAST instead of data: the endpoint and the verdict (R450) -/
  answer : Option (Nat × Status) := none
  deriving DecidableEq, Repr, Inhabited

/-- A DEVICE frame's content (R47, R85, R113, R234, R242, R296, R479). -/
inductive DeviceMsg where
  /-- coordinator status of this turn -/
  | status (fromCoordinator : Bool)
  /-- a member's frame; `heard` is its bit (R47) -/
  | member (m : Nat) (heard : Bool)
  /-- an armed barrier (R85) -/
  | barrier (pos : Nat) (tenant : TenantId) (block : List Byte) (cid : Nat)
  /-- the commit notice and statement (R113) -/
  | commitNotice (turn serial : Nat) (digest : Digest) (active : Nat)
  /-- a member's verdict on a commit (R113) -/
  | commitVerdict (m : Nat) (st : Status) (check : Nat)
  /-- the coordinator's decision on a commit (R113) -/
  | commitDecision (swap : Bool) (readmit : List Nat)
  /-- a round's ROUND_OPEN command, its parameter block and cohort table, its handle, graph seed and opening boundary, the shards that
  a repair round covers, and the private round keys with the wrapping key (R48, R234, R237) -/
  | roundNotice (c : Cmd) (block table : List Byte) (handle : Handle) (graphSeed bOpen : Nat) (repaired keys : List Nat)
  /-- a member's verdict on a round's opening (R113, R234) -/
  | roundVerdict (m : Nat) (handle : Handle) (st : Status)
  /-- the coordinator's decision on a round's opening (R113, R234) -/
  | roundDecision (handle : Handle) (st : Status)
  /-- delivery of a round's streams is to be armed at a boundary (R291) -/
  | unmaskNotice (handle : Handle) (boundary : Nat)
  /-- a round's later deadline and the boundary from which it holds (R242) -/
  | deadlineNotice (handle : Handle) (deadline boundary : Nat)
  /-- a round's commit or abort at a boundary, with the status of each shard at the commit (R43, R240, R297) -/
  | roundEnds (handle : Handle) (commit : Bool) (boundary : Nat) (st : Status) (shards : List Status)
  /-- a member's end of gate pass and comparison (R296) -/
  | gateReport (m : Nat) (handle : Handle) (st : Status)
  /-- SUMMED announced (R296) -/
  | summed (handle : Handle)
  /-- ROUND_RELEASE accepted (R303) -/
  | releaseNotice (handle : Handle)
  /-- the noise seed of a shard to the twin of its releasing twin (R301) -/
  | noiseSeed (m : Nat) (handle : Handle) (seed : Nat)
  /-- a twin's digest of its noisy shard total, to the other twin (R303) -/
  | noiseDigest (m : Nat) (handle : Handle) (digest : Digest)
  /-- a member's verdict on the digests of its shard (R303) -/
  | agreeReport (m : Nat) (handle : Handle) (st : Status)
  /-- writing announced (R303) -/
  | writing (handle : Handle)
  /-- a member's report of its write (R303) -/
  | wrote (m : Nat) (handle : Handle) (st : Status)
  /-- a release ends: RELEASED at a boundary, or the status that leaves the round COMMITTED; with the status of each shard (R303, R304) -/
  | releaseEnds (handle : Handle) (boundary : Nat) (st : Status) (shards : List Status)
  /-- a member declared lost, effective at the next turn boundary (R45) -/
  | lost (m : Nat)
  /-- a member's report of BARRIER_TIMEOUT (R46, R47, R57, R87) -/
  | timeout (m : Nat)
  /-- a member has aligned with the assembly (R45, R83) -/
  | aligned (m : Nat)
  /-- a tenant is to be created at a boundary (R459) -/
  | tenantNotice (t : TenantId) (boundary : Nat)
  /-- a member's verdict on a tenant's creation (R234, R458) -/
  | tenantVerdict (m : Nat) (t : TenantId) (st : Status)
  /-- the coordinator's decision on a tenant's creation (R234, R459) -/
  | tenantDecision (t : TenantId) (st : Status)
  /-- a removal or a TENANT reset of a tenant at a boundary (R460, R463) -/
  | tenantRemove (t : TenantId) (boundary : Nat) (reset : Bool)
  /-- a member has taken the FLR of a tenant's VF (R463) -/
  | tenantFlr (t : TenantId)
  /-- a member's end of a removal: its status, descriptors ended, packets and frames refused (R462) -/
  | tenantGone (m : Nat) (t : TenantId) (st : Status) (descs gone : Nat)
  /-- the coordinator has signed a new assembly attestation: its serial and position (R479) -/
  | attested (serial pos : Nat)
  deriving DecidableEq, Repr, Inhabited

/-- The facts of a running ring entry that come from the memories (R340, R342). -/
structure RingEnv where
  /-- an uncorrectable error met an input -/
  ue : Bool := false
  /-- the first key chunk whose digest failed (R331) -/
  badChunk : Option Nat := none
  /-- a translation fault was met and resumed (R75) -/
  resumed : Bool := false
  /-- a turn boundary intervened (R343) -/
  preempted : Bool := false
  deriving DecidableEq, Repr, Inhabited

/-- A committee reply (R366). -/
structure ExitReplyMsg where
  tagOk : Bool
  kind : Nat
  refused : Bool
  bit : Nat
  requestId : Nat
  fingerprint : Nat
  payloadLength : Nat
  /-- residues of the reply ciphertext, component by component and limb by limb -/
  payload : List Nat
  deriving DecidableEq, Repr, Inhabited

/-- A JTAG operation (R559): the register selected. -/
inductive JtagOp where
  /-- an instruction of boundary scan -/
  | boundaryScan
  /-- a full-debug read or write of a register at a BAR0 offset -/
  | debugRead (offset : Nat)
  | debugWrite (offset value : Nat)
  | bypass
  deriving DecidableEq, Repr, Inhabited

/-- The sensors of R481, in the order of the cause bits. -/
inductive Sensor where | lidMesh | voltageGlitch | clockGlitch | temperature | light | vbatLoss
  deriving DecidableEq, Repr, Inhabited

/-- Cause bit number of a sensor (R481). -/
def Sensor.bit : Sensor → Nat
  | .lidMesh => 1 | .voltageGlitch => 2 | .clockGlitch => 3 | .temperature => 4 | .light => 5 | .vbatLoss => 6

/-- Which rule drops an Ethernet frame (R417, FAB_ETH_DROP). -/
inductive EthDrop where | format | address | checksum | unknown
  deriving DecidableEq, Repr, Inhabited

/-- A register access: who makes it, its offset and its size. -/
structure RegAccess where
  /-- function of the access: 0 is the host driver -/
  fn : FnId
  offset : Nat
  size : Nat := 8
  write : Bool := false
  value : Nat := 0
  deriving DecidableEq, Repr, Inhabited

/-- The steps of the engine: one constructor per row of spec/opcode_table.json. -/
inductive Instr where
  /-- JIG_LOAD (R105). -/
  | jigLoad (c : Cmd) (img : JigImage)
  /-- JIG_LOAD_EFFECT (R106). -/
  | jigLoadEffect
  /-- ASSEMBLY_ALIGNMENT (R83). -/
  | assemblyAlignment (pos : Nat) (fwClass : Nat) (composition measurement : Digest) (roundTrips : List (PortId × Nat))
  /-- JIG_EDIT (R107). -/
  | jigEdit (c : Cmd) (means : List EditMeaning)
  /-- JIG_COMMIT (R111): the signatures' verdicts, and the statement over which they were made: digest, turn and serial. -/
  | jigCommit (c : Cmd) (sig : SigPair) (signed : Digest × Nat × Nat := (0, 0, 0))
  /-- COMMIT_VERDICT (R113). -/
  | commitVerdict (rx : Option (Nat × Status × Nat))
  /-- COMMIT_DECISION (R114). -/
  | commitDecision (rx : Option (Bool × List Nat))
  /-- JIG_SWAP (R113). -/
  | jigSwap
  /-- FW_LOAD (R499). -/
  | fwLoad (c : Cmd) (hostError : Bool) (sig : SigPair)
  /-- FW_READY (R500). -/
  | fwReady
  /-- FW_BOOT_TIMEOUT (R500). -/
  | fwBootTimeout
  /-- FIRMWARE_STOP (R501). -/
  | firmwareStop (fault : Bool)
  /-- TENANT_CREATE (R458). -/
  | tenantCreate (c : Cmd) (busyElsewhere : Bool)
  /-- TENANT_CREATE_BOUNDARY (R459). -/
  | tenantCreateBoundary
  /-- TENANT_REMOVE (R460). -/
  | tenantRemove (c : Cmd)
  /-- TENANT_REMOVE_BOUNDARY (R461). -/
  | tenantRemoveBoundary
  /-- FENCE_ROUND (R451). -/
  | fenceRound (t : TenantId) (returned : List PortId)
  /-- SCRUB (R412). -/
  | scrub (t : TenantId) (hostRefused : Nat) (ueFrames : List Nat)
  /-- QUOTA_SET (R388). -/
  | quotaSet (c : Cmd)
  /-- REGION_REGISTER (R435). -/
  | regionRegister (c : Cmd)
  /-- REGION_DEREGISTER (R439). -/
  | regionDeregister (c : Cmd)
  /-- REGION_REKEY (R436). -/
  | regionRekey (c : Cmd)
  /-- ENDPOINT_CREATE (R442). -/
  | endpointCreate (c : Cmd)
  /-- ENDPOINT_PARK (R447). -/
  | endpointPark (c : Cmd)
  /-- ENDPOINT_UNPARK (R447). -/
  | endpointUnpark (c : Cmd)
  /-- DMA_SUBMIT (R392). -/
  | dmaSubmit (c : Cmd)
  /-- DMA_COPY (R391). -/
  | dmaCopy (t : TenantId) (d : EngineId) (host : List Byte) (hostErr : Option Nat) (met : Met := {})
  /-- DMA_ACC_ADD (R391). -/
  | dmaAccAdd (t : TenantId) (d : EngineId) (host : List Byte) (hostErr : Option Nat) (met : Met := {})
  /-- DMA_ZERO (R391). -/
  | dmaZero (t : TenantId) (d : EngineId) (hostErr : Option Nat) (met : Met := {})
  /-- RESUME (R396). -/
  | resume (fn : FnId) (t : TenantId) (d : EngineId)
  /-- ABANDON (R396). -/
  | abandon (fn : FnId) (t : TenantId) (d : EngineId)
  /-- FAULT_LIMIT_EXPIRE (R396). -/
  | faultLimitExpire (t : TenantId) (d : EngineId)
  /-- PROG_LOAD (R198). -/
  | progLoad (c : Cmd)
  /-- PROG_START (R200). -/
  | progStart (c : Cmd)
  /-- BARRIER_ARM (R88). -/
  | barrierArm (c : Cmd) (unloaded : List Nat := [])
  /-- BARRIER_START (R84). -/
  | barrierStart (missed : List Nat)
  /-- ROUND_OPEN (R234). -/
  | roundOpen (c : Cmd) (busyElsewhere : List Nat)
  /-- ROUND_OPEN_BOUNDARY (R240). -/
  | roundOpenBoundary (h : Handle)
  /-- ROUND_SET_DEADLINE (R242). -/
  | roundSetDeadline (c : Cmd)
  /-- DEADLINE_CHANGE (R242). -/
  | deadlineChange (h : Handle)
  /-- COLLECT_START (R240). -/
  | collectStart (h : Handle) (peersCover : Bool)
  /-- DEADLINE (R240). -/
  | deadline (h : Handle)
  /-- FREEZE_EXCHANGE (R260). -/
  | freezeExchange (h : Handle) (incompleteElsewhere someElsewhere : List Nat) (twinDrained : Bool := true) (homes : List HomeSets := [])
  /-- UNMASKING_ENTRY (R280). -/
  | unmaskingEntry (h : Handle)
  /-- SHARE_END (R284). -/
  | shareEnd (h : Handle)
  /-- ROUND_UNMASK (R291). -/
  | roundUnmask (c : Cmd)
  /-- DELIVERY_ARM (R291). -/
  | deliveryArm (h : Handle)
  /-- ROUND_COMMIT (R297). -/
  | roundCommit (c : Cmd)
  /-- ROUND_RELEASE (R303). -/
  | roundRelease (c : Cmd) (peersRefuse : Bool)
  /-- RELEASE_WRITE (R303). -/
  | releaseWrite (h : Handle) (failure : Option Status)
  /-- ROUND_ABORT (R243). -/
  | roundAbort (c : Cmd)
  /-- ROUND_FREE (R240). -/
  | roundFree (h : Handle)
  /-- KEY_GENERATE (R472). -/
  | keyGenerate (c : Cmd)
  /-- KEY_IMPORT (R472). -/
  | keyImport (c : Cmd)
  /-- KEY_DESTROY (R472). -/
  | keyDestroy (c : Cmd)
  /-- KEY_ATTEST (R473). -/
  | keyAttest (c : Cmd)
  /-- KEY_ROTATE_MEM (R405). -/
  | keyRotateMem (c : Cmd)
  /-- KEY_ROTATION_SWITCH (R405). -/
  | keyRotationSwitch (t : TenantId) (ddr : Bool)
  /-- KEY_SWEEP_UNIT (R407). -/
  | keySweepUnit (t : TenantId) (ddr : Bool) (written ue : Bool)
  /-- CT_REGISTER_PARAMS (R309). -/
  | ctRegisterParams (c : Cmd)
  /-- CT_REGISTER_DESCRIPTOR (R335). -/
  | ctRegisterDescriptor (c : Cmd)
  /-- CT_REGISTER_PLAN (R353). -/
  | ctRegisterPlan (c : Cmd)
  /-- CT_REGISTER_EXIT (R363). -/
  | ctRegisterExit (c : Cmd)
  /-- RELEASE_PARAMS (R335). -/
  | releaseParams (c : Cmd)
  /-- RELEASE_DESCRIPTOR (R335). -/
  | releaseDescriptor (c : Cmd)
  /-- RELEASE_EVK (R333). -/
  | releaseEvk (c : Cmd)
  /-- RELEASE_PLAN (R354). -/
  | releasePlan (c : Cmd)
  /-- EVK_REGISTER (R330). -/
  | evkRegister (c : Cmd) (ue : Bool)
  /-- RING_MACRO (R337). -/
  | ringMacro (c : Cmd)
  /-- ADD (R338). -/
  | ringAdd (t : TenantId) (env : RingEnv)
  /-- SUB (R338). -/
  | ringSub (t : TenantId) (env : RingEnv)
  /-- ADDP (R338). -/
  | ringAddp (t : TenantId) (env : RingEnv)
  /-- MULP (R338). -/
  | ringMulp (t : TenantId) (env : RingEnv)
  /-- MULC (R338). -/
  | ringMulc (t : TenantId) (env : RingEnv)
  /-- MUL (R338). -/
  | ringMul (t : TenantId) (env : RingEnv)
  /-- RESCALE (R338). -/
  | ringRescale (t : TenantId) (env : RingEnv)
  /-- ROTATE (R338). -/
  | ringRotate (t : TenantId) (env : RingEnv)
  /-- LEVEL_DROP (R338). -/
  | ringLevelDrop (t : TenantId) (env : RingEnv)
  /-- NTT (R317). -/
  | ringNtt (t : TenantId) (env : RingEnv)
  /-- INTT (R318). -/
  | ringIntt (t : TenantId) (env : RingEnv)
  /-- TO_MONT (R338). -/
  | ringToMont (t : TenantId) (env : RingEnv)
  /-- COPY (R338). -/
  | ringCopy (t : TenantId) (env : RingEnv)
  /-- REFRESH (R355). -/
  | ringRefresh (t : TenantId) (env : RingEnv)
  /-- EXTRACT (R360). -/
  | ringExtract (t : TenantId) (env : RingEnv)
  /-- LWE_SWITCH (R359). -/
  | ringLweSwitch (t : TenantId) (env : RingEnv)
  /-- BLIND_ROTATE (R360). -/
  | ringBlindRotate (t : TenantId) (env : RingEnv)
  /-- SIGN_EXIT (R364). -/
  | ringSignExit (t : TenantId) (env : RingEnv)
  /-- EXIT_REPLY (R365). -/
  | exitReply (t : TenantId) (r : ExitReplyMsg)
  /-- EXIT_RESEND (R365). -/
  | exitResend (t : TenantId) (requestId : Nat)
  /-- ROBUST_CHECK (R370). -/
  | robustCheck (h : Handle) (client : Nat)
  /-- LIFECYCLE_ADVANCE (R489). -/
  | lifecycleAdvance (c : Cmd) (sig : SigPair)
  /-- ATTEST_DEVICE (R478). -/
  | attestDevice (c : Cmd)
  /-- ATTEST_ASSEMBLY (R479). -/
  | attestAssembly (c : Cmd)
  /-- ATTACH (R514). -/
  | attach (c : Cmd)
  /-- POWER_LIMIT_SET (R506). -/
  | powerLimitSet (c : Cmd)
  /-- CAL_USER_LOAD (R491). -/
  | calUserLoad (c : Cmd) (sig : SigPair)
  /-- SHAVINGS_CONFIG (R517). -/
  | shavingsConfig (c : Cmd)
  /-- NOP (R218). -/
  | nop (c : CellAt) (count : Nat)
  /-- HALT (R203). -/
  | halt (c : CellAt)
  /-- JUMP (R218). -/
  | jump (c : CellAt) (target : Nat)
  /-- LOOP (R222). -/
  | loop (c : CellAt) (last : Nat) (csrc : Fin 16) (imm : Nat)
  /-- BRANK (R218). -/
  | brank (c : CellAt) (target : Nat) (cmp : Fin 4) (value : Nat)
  /-- WAIT (R213). -/
  | wait (c : CellAt) (v : Bool) (token : Fin 64) (count : Nat)
  /-- SIGNAL (R218). -/
  | signal (c : CellAt) (token : Fin 64) (count : Nat)
  /-- GSYNC (R215). -/
  | gsync (c : CellAt)
  /-- SMOVI (R218). -/
  | smovi (c : CellAt) (d : Fin 16) (imm : Word64)
  /-- SALU (R219). -/
  | salu (c : CellAt) (d a b : Fin 16) (func : Fin 16) (useImm : Bool) (imm : Word64)
  /-- SRANK (R218). -/
  | srank (c : CellAt) (d : Fin 16) (what : Bool)
  /-- GOPEN (R158). -/
  | gopen (c : CellAt) (desc : AddrOp)
  /-- GCLOSE (R181). -/
  | gclose (c : CellAt) (group : Fin 32) (out : Fin 4) (fused : Fin 8) (stream : Fin 4) (dst record : AddrOp) (operand : AddrOp) (scalar : Word32)
  /-- ACCLD (R187). -/
  | accld (c : CellAt) (group tile : Fin 32) (firstSlot : Fin 16) (slots : Nat) (src : AddrOp)
  /-- ACCST (R187). -/
  | accst (c : CellAt) (group tile : Fin 32) (firstSlot : Fin 16) (slots : Nat) (dst : AddrOp)
  /-- MMA (R128). -/
  | mma (c : CellAt) (group tile : Fin 32) (slot : Fin 16) (mode : Fin 16) (aCt : Bool) (a b : AddrOp) (k : Nat)
  /-- EWADD (R128). -/
  | ewadd (c : CellAt) (group tile : Fin 32) (firstSlot : Fin 16) (passes : Nat) (sub : Bool) (src : AddrOp)
  /-- MASK (R225). -/
  | mask (c : CellAt) (group tile : Fin 32) (firstSlot : Fin 16) (passes : Nat) (sub : Bool) (stream : Fin 4)
  /-- VLD (R218). -/
  | vld (c : CellAt) (d : Fin 32) (src : AddrOp)
  /-- VST (R218). -/
  | vst (c : CellAt) (r : Fin 32) (dst : AddrOp)
  /-- VOP (R221). -/
  | vop (c : CellAt) (d a b : Fin 32) (func : Fin 32) (paired : Bool) (modulus : Fin 16) (useImm : Bool) (imm : Word64)
  /-- VPERM (R218). -/
  | vperm (c : CellAt) (d a index : Fin 32)
  /-- VRED (R218). -/
  | vred (c : CellAt) (d a : Fin 32) (func : Fin 4) (paired : Bool)
  /-- VBCAST (R218). -/
  | vbcast (c : CellAt) (d : Fin 32) (a : Fin 16)
  /-- VRAND (R218). -/
  | vrand (c : CellAt) (v : Bool) (d : Fin 32)
  /-- MOVE (R224). -/
  | move (c : CellAt) (src dst : AddrOp) (blocks : Nat) (transpose : Bool)
  /-- SEND (R223). -/
  | send (c : CellAt) (route : Fin 256) (dsig : Bool) (dtoken : Fin 64) (src dst : AddrOp) (beats : Nat)
  /-- FEED (R226). -/
  | feed (c : CellAt) (v : Bool) (engine : EngineId) (desc : AddrOp)
  /-- WAIT_LIMIT_EXPIRE (R214). -/
  | waitLimitExpire (c : CellId)
  /-- CELL_CLEAR (R126). -/
  | cellClear (c : CellId)
  /-- CEL_MODULUS_WRITE (R134). -/
  | celModulusWrite (fn : FnId) (c : CellId) (n : Fin 16) (value : Word64)
  /-- MODULUS_CONSTANTS_READY (R134). -/
  | modulusConstantsReady (c : CellId) (n : Fin 16)
  /-- AGG_BIND_ENABLE (R271). -/
  | aggBindEnable (fn : FnId) (e : Fin 256) (value : Word64)
  /-- AGG_BIND_DISABLE (R271). -/
  | aggBindDisable (fn : FnId) (e : Fin 256)
  /-- BATCH_DISPATCH (R264). -/
  | batchDispatch (e : Fin 256)
  /-- SEED_RECONSTRUCTION (R285). -/
  | seedReconstruction (h : Handle) (cohort : Nat) (keysMatch : Bool)
  /-- STREAM_DELIVERY (R292). -/
  | streamDelivery (e : Fin 256)
  /-- GATE_PASS (R294). -/
  | gatePass (h : Handle)
  /-- REPLICA_COMPARE (R295). -/
  | replicaCompare (h : Handle) (twin : List Digest)
  /-- SUMMED_ANNOUNCE (R296). -/
  | summedAnnounce (h : Handle)
  /-- SEALED_CLEAR (R190). -/
  | sealedClear (c : CellId) (h : Handle)
  /-- ROUND_MEMORY_ZEROING (R399). -/
  | roundMemoryZeroing (h : Handle)
  /-- KEYEX (R248). -/
  | keyex (p : PortId) (head payload : List Byte) (seen : MsgSeen) (maskKeyValid : Bool)
  /-- CONTRIB (R251). -/
  | contrib (p : PortId) (x : ClientMsg) (abortedElsewhere : Bool)
  /-- SHARE (R282). -/
  | share (p : PortId) (text : MsgText) (seen : MsgSeen)
  /-- ABORT (R253). -/
  | abortMsg (p : PortId) (head payload : List Byte) (seen : MsgSeen) (elsewhere : Bool)
  /-- CONTRIB_MIRROR (R258). -/
  | contribMirror (head payload : List Byte)
  /-- MIRROR_ACK (R258). -/
  | mirrorAck (h : Handle) (client chunk : Nat)
  /-- SHARE_MIRROR (R283). -/
  | shareMirror (head payload : List Byte)
  /-- WRAPPED_SESSION_KEY (R249). -/
  | wrappedSessionKey (h : Handle) (client wrapped : Nat)
  /-- SEED_DISTRIBUTION (R288). -/
  | seedDistribution (h : Handle) (cohort : Nat) (seeds : List (Nat × Nat × Nat)) (discard : Option Nat)
  /-- ETKAI_SEND_PACKET (R446). -/
  | etkaiSendPacket (p : PacketIn)
  /-- ETKAI_WRITE_PACKET (R438). -/
  | etkaiWritePacket (p : PacketIn)
  /-- ETKAI_WRITE_NOTIFY_PACKET (R446). -/
  | etkaiWriteNotifyPacket (p : PacketIn)
  /-- ETKAI_ACC_ADD_PACKET (R440). -/
  | etkaiAccAddPacket (p : PacketIn)
  /-- ETKAI_ACK (R430). -/
  | etkaiAck (ep : EpId) (msgId index : Nat) (ece dup : Bool)
  /-- ETKAI_NAK (R428). -/
  | etkaiNak (ep : EpId) (msgId index : Nat) (st : Status)
  /-- RTO_EXPIRE (R431). -/
  | rtoExpire (ep : EpId) (msgId index : Nat)
  /-- NAK_RETRY (R432). -/
  | nakRetry (ep : EpId) (msgId index : Nat)
  /-- FLOW_IDLE_DROP (R434). -/
  | flowIdleDrop (flow : Nat)
  /-- REASSEMBLY_TIMEOUT (R446). -/
  | reassemblyTimeout (ep : EpId) (srcEp srcMember msgId : Nat)
  /-- EP_SQ_TAIL (R445). -/
  | epSqTail (fn : FnId) (ep : EpId) (tail : Nat)
  /-- EP_RQ_TAIL (R445). -/
  | epRqTail (fn : FnId) (ep : EpId) (tail : Nat)
  /-- EP_CQ_HEAD (R445). -/
  | epCqHead (fn : FnId) (ep : EpId) (head : Nat)
  /-- WR_SEND (R445). -/
  | wrSend (ep : EpId) (host : List Byte)
  /-- WR_WRITE (R445). -/
  | wrWrite (ep : EpId) (host : List Byte)
  /-- WR_WRITE_NOTIFY (R445). -/
  | wrWriteNotify (ep : EpId) (host : List Byte)
  /-- WR_ACC_ADD (R445). -/
  | wrAccAdd (ep : EpId) (host : List Byte)
  /-- PUSH (R449). -/
  | push (ep : EpId) (host : List Byte)
  /-- BCAST (R449). -/
  | bcast (ep : EpId) (host : List Byte)
  /-- SCHEDULED_FRAME (R424). -/
  | scheduledFrame (f : SchedFrame)
  /-- TIMING_FRAME (R56). -/
  | timingFrame (p : PortId) (roundTripPs : Nat) (pos : Nat)
  /-- DEVICE_FRAME (R47). -/
  | deviceFrame (p : PortId) (m : DeviceMsg)
  /-- FENCE_FRAME (R451). -/
  | fenceFrame (p : PortId) (t : TenantId)
  /-- SLOT0_DEVICE_FRAMES (R47). -/
  | slot0DeviceFrames
  /-- LINK_REPLAY (R420). -/
  | linkReplay (p : PortId)
  /-- LINK_KEY_EXCHANGE (R419). -/
  | linkKeyExchange (p : PortId) (sig : SigPair) (fingerprint : Digest) (shared : Nat)
  /-- NEIGHBOR_SOLICITATION (R416). -/
  | neighborSolicitation (p : PortId) (target : Nat) (from_ : Nat)
  /-- ECHO_REQUEST (R416). -/
  | echoRequest (p : PortId) (dst from_ : Nat) (data : List Byte)
  /-- PTP_MESSAGE (R54). -/
  | ptpMessage (p : PortId) (domain : Nat) (timeNs : Nat)
  /-- PTP_ADOPT (R54). -/
  | ptpAdopt
  /-- PTP_OFFSET_UPDATE (R54). -/
  | ptpOffsetUpdate
  /-- LANE_FAILURE (R421). -/
  | laneFailure (p : PortId) (lane : Fin 4) (fecUncorr : Nat)
  /-- LASER_INPUT_LOW (R545). -/
  | laserInputLow (p : PortId)
  /-- LASER_FAULT (R421). -/
  | laserFault (m : Fin 4)
  /-- TAKE_OUT (R421). -/
  | takeOut (fn : FnId) (p : PortId)
  /-- READMIT (R423). -/
  | readmit (fn : FnId) (p : PortId)
  /-- PORT_UP (R423). -/
  | portUp (p : PortId) (delayPs : Nat)
  /-- MEMBER_LOSS (R45). -/
  | memberLoss (m : Nat) (turnsOut : Nat := 0)
  /-- COORDINATOR_LOSS (R47). -/
  | coordinatorLoss
  /-- ISOLATED_COORDINATOR_STOP (R47). -/
  | isolatedCoordinatorStop
  /-- NO_STANDBY_STOP (R47). -/
  | noStandbyStop
  /-- UPSTREAM_LOSS (R57). -/
  | upstreamLoss
  /-- HOLDOVER_LIMIT (R57). -/
  | holdoverLimit
  /-- SPIN_CLK_LOSS (R59). -/
  | spinClkLoss
  /-- SPIN_SYNC_EDGE (R52). -/
  | spinSyncEdge
  /-- SPN_EPOCH_WRITE (R52). -/
  | spnEpochWrite (fn : FnId) (value : Word64)
  /-- SPIN_CLK_QUALIFIED (R81). -/
  | spinClkQualified
  /-- PLL_LOCK_TIMEOUT (R81). -/
  | pllLockTimeout
  /-- ALIGN_RELEASE (R81). -/
  | alignRelease
  /-- FIFO_CHECK (R82). -/
  | fifoCheck (matching : Bool)
  /-- CXL_TRAINING_START (R81). -/
  | cxlTrainingStart
  /-- IDENTITY_DERIVATION (R475). -/
  | identityDerivation
  /-- TURN_BOUNDARY (R60). -/
  | turnBoundary
  /-- RATIO_SWITCH (R79). -/
  | ratioSwitch
  /-- REFRESH_WINDOW (R68). -/
  | refreshWindow (ddr : Bool) (unit : Fin 16)
  /-- POWER_LOOP (R504). -/
  | powerLoop (deciWatts : Nat) (issued : List (Nat × Nat))
  /-- VDD_CORE_CHECK (R551). -/
  | vddCoreCheck (millivolts : Nat)
  /-- THERMAL_LOOP (R508). -/
  | thermalLoop (temps : List Int)
  /-- HOT_TRIP (R509). -/
  | hotTrip (sensor : Fin 16) (temp : Int)
  /-- HOT_RELEASE (R509). -/
  | hotRelease (temps : List Int)
  /-- FAST_CURRENT_TRIP (R510). -/
  | fastCurrentTrip
  /-- VR_ALERT (R510). -/
  | vrAlert (statusWord : Nat) (rails : List (Fin 8))
  /-- FREEZE_BEGIN (R90). -/
  | freezeBegin
  /-- THAW (R91). -/
  | thaw (clearedAt : Nat := 0)
  /-- HEARTBEAT (R511). -/
  | heartbeat (fn : FnId)
  /-- HOST_LOST_ENTRY (R511). -/
  | hostLostEntry
  /-- HOST_LOST_LIMIT (R513). -/
  | hostLostLimit
  /-- VF_ENABLE_CHANGE (R455). -/
  | vfEnableChange (t : TenantId) (mse bme : Bool)
  /-- POWER_ON_RESET (R24). -/
  | powerOnReset (bbramOk : Bool)
  /-- PERST_ASSERT (R554). -/
  | perstAssert (microseconds : Nat)
  /-- HIF_RESET_COLD (R540). -/
  | hifResetCold (value : Word64)
  /-- HIF_RESET_WARM (R540). -/
  | hifResetWarm (value : Word64)
  /-- COLD_RESET (R24). -/
  | coldReset
  /-- WARM_RESET (R567). -/
  | warmReset
  /-- VF_FLR (R463). -/
  | vfFlr (t : TenantId)
  /-- PF0_FLR (R541). -/
  | pf0Flr
  /-- TAMPER_TRIP (R482). -/
  | tamperTrip (sensor : Sensor)
  /-- BROWN_OUT (R481). -/
  | brownOut
  /-- CXL_LINK_DOWN (R524). -/
  | cxlLinkDown
  /-- IDE_KM (R524). -/
  | ideKm (io cm : Bool)
  /-- SPDM_MESSAGE (R523). -/
  | spdmMessage (request : Nat)
  /-- HOST_EXCH_WRITE (R526). -/
  | hostExchWrite (addr : Nat) (data : List Byte)
  /-- HOST_EXCH_READ (R526). -/
  | hostExchRead (addr len : Nat) (ue : Bool)
  /-- HIF_Q_ENABLE (R528). -/
  | hifQEnable (fn : FnId) (q : PortId) (value : Word64)
  /-- HIF_Q_DISABLE (R530). -/
  | hifQDisable (fn : FnId) (q : PortId)
  /-- HIF_SQ_DOORBELL (R529). -/
  | hifSqDoorbell (fn : FnId) (q : PortId) (tail : Nat)
  /-- HIF_CQ_DOORBELL (R539). -/
  | hifCqDoorbell (fn : FnId) (q : PortId) (head : Nat)
  /-- COMMAND_FETCH: the function and queue pair, and the 64 bytes at the head of its submission queue (R529, R531). -/
  | commandFetch (fn : FnId) (qp : PortId) (raw : List Byte := [])
  /-- MEM_MAP (R384). -/
  | memMap (fn : FnId) (t : TenantId) (value : Word64)
  /-- MEM_UNMAP (R387). -/
  | memUnmap (fn : FnId) (t : TenantId) (value : Word64)
  /-- MEM_PROTECT (R384). -/
  | memProtect (fn : FnId) (t : TenantId) (value : Word64)
  /-- ZERO_FILL (R386). -/
  | zeroFill (t : TenantId)
  /-- MEM_WALK_LOOKUP (R414). -/
  | memWalkLookup (fn : FnId) (t : TenantId) (va : Word64)
  /-- MEM_EXCH_WRITE (R379). -/
  | memExchWrite (value : Word64)
  /-- MEM_RETIRE (R411). -/
  | memRetire (value : Word64) (ue : Bool)
  /-- SEC_CHALLENGE_NEW (R487). -/
  | secChallengeNew
  /-- SEC_APPROVED_ENFORCE (R494). -/
  | secApprovedEnforce
  /-- SEC_KEY_QUOTA_WRITE (R472). -/
  | secKeyQuotaWrite (t : TenantId) (value : Word64)
  /-- LIVE_FIELD_WRITE (R119). -/
  | liveFieldWrite (which : Fin 3) (value : Word64)
  /-- CALIPERS_CLOSE (R518). -/
  | calipersClose
  /-- DBG_SHV_POP (R516). -/
  | dbgShvPop (fn : FnId) (q : Fin 9) (pop : Bool)
  /-- READ_CLEAR (R18). -/
  | readClear (a : RegAccess)
  /-- REGISTER_WRITE (R18). -/
  | registerWrite (a : RegAccess)
  /-- ACCESS_ERROR (R17). -/
  | accessError (a : RegAccess)
  /-- VF_WINDOW_MISS (R23). -/
  | vfWindowMiss (a : RegAccess)
  /-- HELP (R519). -/
  | calHelp
  /-- ID (R519). -/
  | calId
  /-- RD (R519). -/
  | calRd (offset : Nat)
  /-- WR (R519). -/
  | calWr (offset : Nat) (value : Word64)
  /-- SPN (R519). -/
  | calSpn
  /-- PWR (R519). -/
  | calPwr
  /-- FW (R519). -/
  | calFw
  /-- SHV (R519). -/
  | calShv (q n : Nat)
  /-- BAUD (R518). -/
  | calBaud (rate : Nat)
  /-- CALIPERS_BREAK (R518). -/
  | calipersBreak
  /-- READ_TEMPERATURE_1 (R558). -/
  | readTemperature1
  /-- READ_PIN (R558). -/
  | readPin
  /-- MFR_POWER_CAP (R506). -/
  | mfrPowerCap (watts : Nat)
  /-- MFR_POWER_CAP_READ (R558). -/
  | mfrPowerCapRead
  /-- PERST_DEASSERT (R552). -/
  | perstDeassert
  /-- CXL_LINK_UP (R552). -/
  | cxlLinkUp (width : Nat) (fast : Bool)
  /-- TRNG_HEALTH_FAIL (R495). -/
  | trngHealthFail (adaptive : Bool)
  /-- ETH_FRAME_DROP (R417). -/
  | ethFrameDrop (p : PortId) (why : EthDrop)
  /-- VECTOR_UNMASK (R539). -/
  | vectorUnmask (fn : FnId) (vector : Fin 64)
  /-- JTAG_ACCESS (R559). -/
  | jtagAccess (op : JtagOp)
  deriving DecidableEq, Repr

end Sys2Proof
end

