-- ==== Sys2Proof/Decode.lean ====
section
/-! DEFINITION. Decode.lean: reading a command from a word of spec/opcode_table.json. The table gives no row any bits:
a command reaches the engine as 64 bytes in host memory, as a register access, as a frame or as an event. -/

namespace Sys2Proof

/-- The command that a word of the table's bits spells: no row of the table has bits, so none. -/
def decodeTableWord (_nbits _w : Nat) : Option Instr := none

end Sys2Proof
end

