-- ==== Sys2Proof/Config.lean ====
section
/-! DEFINITION. Config.lean: what the spec leaves to the part and what the model leaves open. Every constant here is
opaque: nothing in Lean can compute or prove a value of it, so a statement holds whatever it is
(notes/assumptions/1.md to 4.md). -/

namespace Sys2Proof.Config

/-- The n-th free value: a random draw (R495), or a result the spec leaves open. -/
opaque freeNat : Nat → Nat

/-- Named digests and key-derivation functions: SHA-384, HMAC-SHA-384 and HKDF over the value given, as the rule that
uses them says; the name keeps two uses apart. -/
opaque digestBits {α : Type} : String → α → BitVec 384

/-- The same as a number. -/
def digest {α : Type} (name : String) (a : α) : Digest := (digestBits name a).toNat

/-- The public key of a private key's value (R469), by key type. -/
opaque publicKey : Nat → Nat → Nat

/-- The shared value of a key agreement between a private value and a public key (R247, R285). -/
opaque agree : Nat → Nat → Nat

/-- The mask-stream block of R276: AES-256 in counter mode under a seed, for a chunk's block number, as a number. -/
opaque streamBlock : Nat → Nat → Nat

/-- A draw's discrete Gaussian value (R302, R364), from a seed, a standard deviation code and a counter. -/
opaque gaussian : Nat → Nat → Nat → Int

/-- Residues that a ring operation computes where the spec gives the mathematics and not the residues: by operation,
operands and coefficient number. -/
opaque ringData : String → List Nat → Nat → Nat

/-- Work cycles that the spec says the engine computes from the committed jig and does not give a formula for. -/
opaque workCycles : String → List Nat → Nat

/-- A result that the spec does not state for these operands: by operation and operands. -/
opaque unstated : String → List Nat → Nat

/-- Factory calibration in OTP by ID (R490). -/
opaque factoryCal : Nat → Int

/-- The digest in mask ROM of Daminem's firmware keys: production on XNL-7264-B, engineering on XNL-7264-E (R499). -/
opaque vendorKeyBits : Bool → BitVec 384

/-- The same as a number. -/
def vendorKeys (b : Bool) : Digest := (vendorKeyBits b).toNat

/-- Digest of mask ROM (R523). -/
opaque maskRomBits : BitVec 384

/-- The same as a number. -/
def maskRom : Digest := maskRomBits.toNat

/-- Byte of a signature block that the engine makes (R477), by draw. -/
opaque signByte : Nat → Nat → Byte

/-- The signer's four certificates in OTP (R476): their bytes. The chain of an XNL-7264-E ends at Daminem's engineering root and
that of an XNL-7264-B at the production root, so the part is an argument (R4). -/
opaque certByte : Bool → Nat → Byte

/-- Bytes of the four certificates together (R476), by part (R4). -/
opaque certLength : Bool → Nat

/-- The refresh unit of a tier that holds a physical address (R68): an HBM stack or a DDR channel. The spec gives no interleave. -/
opaque memUnit : Nat → Nat → Nat

/-- Value of a device memory key (R377, R379, R402), by generation and number: 0 and 1 the XTS key of the reservation, 2 its GMAC
key, 3 and 4 the XTS key of the exchange frames, 5 their GMAC key. The engine draws them at each COLD or POWER-ON reset. -/
opaque deviceKey : Nat → Nat → Nat

/-- AES-256-XTS over one data unit (R376, R402): the two keys, the 16-byte tweak and the unit's bytes give its ciphertext. -/
opaque xts : Nat → Nat → List Byte → List Byte → List Byte

/-- AES-256-GMAC (R403): a key, the 12-byte IV and the bytes authenticated give the 16-byte value. -/
opaque gmac : Nat → List Byte → List Byte → List Byte

end Sys2Proof.Config
end

