-- ==== Sys2Proof/Machine/State.lean ====
section
/-! DEFINITION. Machine/State.lean: the engine's state as plain data, block by block, and the state after reset.
Each field's docstring gives its width, the rule that names it and its value after a COLD reset. -/

namespace Sys2Proof.Machine

/-- Why a step stops with a fault. -/
inductive Fault where
  /-- Raised by no step of the table: kept so that a stop on an address outside cell SRAM would have a name. Safe. -/
  | addressOutside (addr : Nat)
  deriving DecidableEq, Repr

/-- Why a step is refused. -/
inductive Refusal where
  /-- The instruction has no meaning yet: raised by Dispatch only. Safe. -/
  | notModelled (mnemonic : String)
  deriving DecidableEq, Repr

/-! ### The host interface (R522 to R542) -/

/-- A completion as posted (R536). -/
structure Completion where
  fn : Nat
  qp : Nat
  cid : Nat
  status : Status
  /-- completion flags byte (R538) -/
  flags : Nat
  sqHead : Nat
  result0 : Nat
  result1 : Nat
  /-- index of the completion-queue entry written -/
  index : Nat
  phase : Bool
  /-- it answers a command fetched from the queue, which counts in INFLIGHT until then (R529) -/
  own : Bool := true
  /-- the 32 bytes written to the completion queue (R536) -/
  entry : List Byte := []
  deriving DecidableEq, Repr

/-- A queue pair (R528 to R530, R542). -/
structure QPair where
  /-- HIF_SQ_BASE.BASE, 52 bits (R542); reset 0 -/
  sqBase : Nat := 0
  /-- HIF_CQ_BASE.BASE, 52 bits (R542); reset 0 -/
  cqBase : Nat := 0
  /-- HIF_SQ_BASE bits 11:0 of the last write were not zero, which is what R528 judges as unaligned; 1 bit; reset 0 -/
  sqUnaligned : Bool := false
  /-- as sqUnaligned, for HIF_CQ_BASE; 1 bit; reset 0 -/
  cqUnaligned : Bool := false
  /-- HIF_Q_CFG.SQ_LOG, 4 bits (R542); reset 4 -/
  sqLog : Nat := 4
  /-- HIF_Q_CFG.CQ_LOG, 4 bits (R542); reset 4 -/
  cqLog : Nat := 4
  /-- HIF_Q_CFG.VECTOR, 6 bits (R542); reset 0 -/
  vector : Nat := 0
  /-- HIF_Q_CFG.IEN, 1 bit (R542); reset 0 -/
  ien : Bool := false
  /-- HIF_Q_CFG.ENABLE, 1 bit (R542); reset 0 -/
  enable : Bool := false
  /-- HIF_Q_STATUS.SQ_HEAD, 12 bits (R542); reset 0 -/
  sqHead : Nat := 0
  /-- submission tail as last rung, 12 bits (R542); reset 0 -/
  sqTail : Nat := 0
  /-- HIF_Q_STATUS.CQ_TAIL, 12 bits (R542); reset 0 -/
  cqTail : Nat := 0
  /-- completion head as last written, 12 bits (R542); reset 0 -/
  cqHead : Nat := 0
  /-- HIF_Q_STATUS.PHASE, 1 bit (R530, R542); reset 1 -/
  phase : Bool := true
  /-- HIF_Q_STATUS.DRAINING, 1 bit (R530); reset 0 -/
  draining : Bool := false
  /-- HIF_Q_STATUS.INFLIGHT, 16 bits (R542); reset 0 -/
  inflight : Nat := 0
  deriving DecidableEq, Repr

/-- HIF block (R542) and what the functions hold. -/
structure Hif where
  /-- HIF_STATUS.LINK_UP, 1 bit (R542); reset 0 -/
  linkUp : Bool := false
  /-- HIF_STATUS.WIDTH, 5 bits (R542); reset 0 -/
  width : Nat := 0
  /-- HIF_STATUS.SPEED, 1 bit (R542); reset 0 -/
  fast : Bool := false
  /-- HIF_STATUS.IDE_IO, 1 bit (R524); reset 0 -/
  ideIo : Bool := false
  /-- HIF_STATUS.IDE_CM, 1 bit (R524); reset 0 -/
  ideCm : Bool := false
  /-- HIF_STATUS.SPDM, 1 bit (R542); reset 0 -/
  spdm : Bool := false
  /-- HIF_EXCH.REFUSED, 32 bits (R526); reset 0 -/
  exchRefused : Nat := 0
  /-- HIF_EXCH.UE, 32 bits (R526); reset 0 -/
  exchUe : Nat := 0
  /-- queue pairs by 16 f + n (R528); reset each `QPair` at its defaults -/
  queues : Tab QPair := []
  /-- commands fetched and not completed, as function, queue, CID and the fetch position after the command (R529, R536);
  reset none -/
  fetched : List (Nat × Nat × Nat × Nat) := []
  /-- function at which the next round-robin search for a command starts (R529); reset 0 -/
  nextFn : Nat := 0
  /-- queue at which the round-robin of each function goes on, by function (R529); reset 0 -/
  nextQueue : Tab Nat := []
  /-- completions written to the completion queues, newest first (R536); reset none -/
  posted : List Completion := []
  /-- completions held in HOST_LOST, oldest first (R512); reset none -/
  held : List Completion := []
  /-- interrupts fired (function, vector), newest first (R539); reset none -/
  irqs : List (Nat × Nat) := []
  /-- interrupts held in HOST_LOST, oldest first (R512); reset none -/
  heldIrqs : List (Nat × Nat) := []
  /-- MSI-X vectors unmasked, by 64 f + v (R539); reset masked (PRESUMED, PCI Express) -/
  unmasked : Tab Bool := []
  /-- PBA bits by 64 f + v (R539); reset 0 -/
  pba : Tab Bool := []
  /-- commands whose completions an FLR discards, as (16 f + queue, CID) (R541); reset none -/
  discard : List (Nat × Nat) := []
  /-- Memory Space Enable of VF t (R455); reset 0 -/
  mse : Tab Bool := []
  /-- Bus Master Enable of VF t: SEC_TENANT.BME (R496); reset 0 -/
  bme : Tab Bool := []
  deriving DecidableEq, Repr

/-! ### The Spindle (R50 to R95) -/

/-- An armed barrier (R84 to R88). -/
structure Barrier where
  pos : Nat
  tenant : Nat
  /-- 0 PROGRAM, 1 DMA_CHAIN -/
  kind : Nat
  group : Nat
  engine : Nat
  entry : Nat
  count : Nat
  chain : Nat
  args : List Nat
  members : List Nat
  /-- the command, on the coordinator that took it -/
  cmd : Option Cmd
  cid : Nat
  deriving DecidableEq, Repr

/-- A budget register's element (SPN_BUDGET_DMA, SPN_BUDGET_LINK). -/
structure Budget where
  /-- REMAINING, 40 bits -/
  remaining : Nat := 0
  /-- EXHAUSTED_LAST -/
  exhaustedLast : Bool := false
  /-- a block or packet has waited for budget in this turn -/
  waited : Bool := false
  deriving DecidableEq, Repr

/-- Where the alignment sequence stands (R81). -/
inductive AlignPhase where
  /-- power or PERST# holds the engine in reset -/
  | inReset
  /-- SPIN_CLK edges are being checked -/
  | qualifying
  /-- the counter runs; PLLs are locking -/
  | locking
  /-- reset released at edge `a`; FIFO check due at a + 100 -/
  | released (a : Nat)
  /-- FIFOs agreed; CXL training due at a + 200 -/
  | checked (a : Nat)
  /-- CXL training runs or has run -/
  | done
  /-- ALIGN_FAIL -/
  | failed
  deriving DecidableEq, Repr

/-- SPN_STATUS.SOURCE (R51, R57). -/
inductive SpinSource where | ball | primary | secondary | holdover
  deriving DecidableEq, Repr

/-- SPN block (R95) and the time base. -/
structure Spn where
  /-- SPN_POSITION, 64 bits (R50, R95); reset 0 -/
  pos : Nat := 0
  /-- SPN_STATUS.ROLE, 2 bits (R51); reset UNASSIGNED -/
  role : SpinRole := .unassigned
  /-- SPN_STATUS.SOURCE, 2 bits (R57); reset SPIN_CLK ball -/
  source : SpinSource := .ball
  /-- SPN_STATUS.LOCKED, 1 bit (R95); reset 0 -/
  locked : Bool := false
  /-- SPN_STATUS.EPOCH_SET, 1 bit (R95); reset 0 -/
  epochSet : Bool := false
  /-- SPN_STATUS.EPOCH_ERR, 1 bit, W1C (R52); reset 0 -/
  epochErr : Bool := false
  /-- SPN_STATUS.RATIO, 8 bits (R79); reset 33 -/
  ratio : Nat := 33
  /-- SPN_STATUS.HOLDOVER_TURNS, 8 bits (R57); reset 0 -/
  holdoverTurns : Nat := 0
  /-- SPN_CONFIG.TURN_K, 5 bits (R60); reset 13 -/
  k : Nat := 13
  /-- SPN_EPOCH.EPOCH, 63 bits (R52); reset 0 -/
  epoch : Nat := 0
  /-- SPN_EPOCH.ARM, 1 bit (R52); reset 0 -/
  arm : Bool := false
  /-- SPN_PTP_OFFSET, 64 bits (R54); reset 0 -/
  ptpOffset : Int := 0
  /-- the last PTP time received, in ns, and the position at which it came (R54); reset none -/
  ptpTime : Option (Nat × Nat) := none
  /-- position at which SPN_PTP_OFFSET was last updated (R54); reset 0 -/
  ptpUpdated : Nat := 0
  /-- SPN_FREEZE.FREEZES, 32 bits, RC (R90); reset 0 -/
  freezes : Nat := 0
  /-- SPN_FREEZE.LAST_TICKS, 32 bits (R90); reset 0 -/
  lastFreeze : Nat := 0
  /-- barriers armed, oldest first: SPN_BARRIER.ARMED (R85); reset none -/
  barriers : List Barrier := []
  /-- SPN_BARRIER.MISSED, 16 bits, RC (R87); reset 0 -/
  missed : Nat := 0
  /-- SPN_LINK_DELAY: measured delay in ps by port (R56); reset none -/
  linkDelay : Tab (Option Nat) := []
  /-- SPN_BUDGET_DMA by tenant (R69); reset 0 -/
  budgetDma : Tab Budget := []
  /-- SPN_BUDGET_LINK by 16 t + p (R69); reset 0 -/
  budgetLink : Tab Budget := []
  /-- position of the first PTP time since the jig took effect (R54, R565); reset none -/
  ptpReady : Option Nat := none
  /-- the upstream delay in ps for which the tick edges stand (R56); reset 0 -/
  phasePs : Nat := 0
  /-- where the alignment sequence stands (R81); reset: PERST# just asserted, in reset -/
  align : AlignPhase := .inReset
  /-- the release step comes strictly later than this position (R81, R82, R565); reset none -/
  releaseAfter : Option Nat := none
  /-- repeats of the alignment sequence made (R82); reset 0 -/
  alignRepeats : Nat := 0
  /-- SPIN_CLK is running (R59); reset true (the card drives it, R552) -/
  clk : Bool := true
  /-- last turn boundary whose actions have run (R60, R91); reset 0 -/
  lastBoundary : Nat := 0
  /-- a freeze trip stands since this position, until the thaw (R90); reset none -/
  tripAt : Option Nat := none
  /-- the freeze in progress began here (R90); reset none -/
  frozenAt : Option Nat := none
  /-- issue is stopped on every unit (R46, R57, R59); reset 0 -/
  stopped : Bool := false
  /-- issue stops at the next turn boundary (R47, R57, R59); reset 0 -/
  stopDue : Bool := false
  /-- turns without a slot-0 frame of the coordinator, of any member, of either coordinator (R47); reset 0 -/
  quietCoord : Nat := 0
  /-- as quietCoord, for any member's frame at the coordinator (R47); reset 0 -/
  quietMembers : Nat := 0
  /-- as quietCoord, for frames of either coordinator (R47); reset 0 -/
  quietBoth : Nat := 0
  /-- the coordinator's frame of this turn has reached this member (R47); reset 0 -/
  heardCoord : Bool := false
  /-- a member's frame with its bit set, or the coordinator's, reached the standby in this turn (R47); reset 0 -/
  heardVia : Bool := false
  /-- a frame of either coordinator reached this member in this turn (R47); reset 0 -/
  heardEither : Bool := false
  /-- a frame of any member reached this coordinator in this turn (R47); reset 0 -/
  heardMember : Bool := false
  /-- this member has reported BARRIER_TIMEOUT: as coordinator it sends no more slot-0 frames (R47); reset 0 -/
  ceased : Bool := false
  /-- members that missed a barrier, as the coordinator knows (R45, R87); reset none -/
  missedBy : List Nat := []
  /-- lost members that have aligned again after a COLD reset, as the coordinator knows (R45); reset none -/
  realigned : List Nat := []
  /-- a slot-0 frame set has been sent in this turn (R47); reset 0 -/
  slot0Sent : Bool := false
  /-- the primary upstream was lost: switch at the next boundary (R57); reset 0 -/
  switchDue : Bool := false
  /-- the standby has taken over: the standby tree is in use (R58); reset 0 -/
  standbyTree : Bool := false
  /-- members declared lost (R45); reset none -/
  lost : List Nat := []
  /-- a loss declared, effective at the next boundary (R45); reset none -/
  lossDue : List Nat := []
  /-- the coordinator's loss takes effect at this boundary (R47); reset none -/
  coordLossAt : Option Nat := none
  /-- the ratio to switch to, from this boundary on (R79); reset none -/
  ratioDue : Option (Nat × Nat) := none
  /-- SPIN_CLK was lost here (R59); reset none -/
  clkLostAt : Option Nat := none
  /-- refresh windows run, by unit (0 to 7 HBM stacks, 8 to 19 DDR channels): position of the last (R68); reset none -/
  refresh : Tab Nat := []
  deriving DecidableEq, Repr

/-! ### The jig (R96 to R122) -/

/-- A commit in progress (R111 to R115). -/
structure Commit where
  turn : Nat
  serial : Nat
  /-- scope ASSEMBLY -/
  assembly : Bool
  /-- shadow digest of the statement -/
  digest : Digest
  /-- the command, on the coordinator -/
  cmd : Option Cmd
  /-- verdicts that have reached the coordinator: member, status, check -/
  verdicts : List (Nat × Status × Nat)
  /-- this member's own verdict: status and check (R113) -/
  own : Status × Nat
  /-- this member's verdict has been sent -/
  sent : Bool
  /-- lost members that the decision readmits (R45) -/
  readmit : List Nat
  /-- the decision: swap or not, with the status and member of the first failure -/
  decision : Option (Bool × Status × Nat × Nat)
  deriving DecidableEq, Repr

/-- An image that a JIG_LOAD has read and that passed its checks (R105, R106). -/
structure LoadedJig where
  header : JigHeader
  /-- length of each section value by 4 type + instance -/
  lengths : Tab Nat
  cfg : JigConfig
  deriving DecidableEq, Repr

/-- JIG block (R122) and the two copies of the jig. -/
structure Jig where
  /-- JIG_STATUS.LOADED, 1 bit (R122); reset 0 -/
  loaded : Bool := false
  /-- JIG_STATUS.UNSIGNED, 1 bit (R102); reset 0 -/
  unsigned : Bool := false
  /-- header of the image last loaded (R103); reset empty -/
  header : JigHeader := {}
  /-- committed values (R96); reset empty -/
  cfg : JigConfig := {}
  /-- shadow values (R20); reset empty -/
  shadow : JigConfig := {}
  /-- JIG_STATUS.ACTIVE_ROUTE_SET, 2 bits (R120); reset 0 -/
  active : Nat := 0
  /-- shadow of JIG_ROUTE_SET.ACTIVE, 2 bits (R122); reset 0 -/
  activeShadow : Nat := 0
  /-- sections of the image: length of each section value by 4 type + instance (R107); reset none -/
  sectionLen : Tab Nat := []
  /-- sections whose shadow value breaks check 0x01 since an edit, by 4 type + instance (R118); reset none -/
  shadowBad : List Nat := []
  /-- a load that passed its checks, with its image and the position its checks ended (R106); reset none -/
  loading : Option (Cmd × LoadedJig × Nat) := none
  /-- the commit in progress: JIG_STATUS.COMMIT_PENDING, JIG_PENDING (R113); reset none -/
  commit : Option Commit := none
  /-- JIG_STATUS.LAST_STATUS, 8 bits (R122); reset 0 -/
  lastStatus : Status := .ok
  /-- JIG_SERIAL, 64 bits (R122); reset 0 -/
  serial : Nat := 0
  /-- JIG_MEASUREMENT, 384 bits (R103); reset 0 -/
  measurement : Digest := 0
  /-- JIG_SHADOW_DIGEST, 384 bits (R111); reset 0 -/
  shadowDigest : Digest := 0
  /-- JIG_CHECK.CHECK_ID, 8 bits (R118); reset 0 -/
  checkId : Nat := 0
  /-- JIG_CHECK.SECTION, 16 bits (R118); reset 0 -/
  checkSection : Nat := 0
  /-- JIG_CHECK.INSTANCE, 16 bits (R118); reset 0 -/
  checkInst : Nat := 0
  /-- JIG_CHECK.OFFSET, 24 bits (R118); reset 0 -/
  checkOffset : Nat := 0
  /-- JIG_SHADOW_ADDR.OFFSET in bytes, 26 bits (R122); reset 0 -/
  shadowAddr : Nat := 0
  /-- the live fields JIG_LIVE_HOST, JIG_LIVE_EVENTS, JIG_LIVE_THERMAL (R119); reset 2,000 ms, 600 s, all ones, 95 -/
  live : JigLive := {}
  /-- assembly index of this engine in the committed jig (R34); reset 0 -/
  me : Nat := 0
  /-- the values and the active route set before the last swap, for frames issued on their old route (R121); reset none -/
  prev : Option (JigConfig × Nat) := none
  /-- alignment with the assembly is still due after a load (R106); reset 0 -/
  alignDue : Bool := false
  deriving DecidableEq, Repr

/-! ### The cells (R123 to R229) -/

/-- A modulus entry (R134). -/
structure Modulus where
  /-- CEL_MODULUS.Q, 31 bits -/
  q : Nat := 0
  /-- CEL_MODULUS.VALID -/
  valid : Bool := false
  /-- CEL_MODULUS.BUSY -/
  busy : Bool := false
  /-- CEL_MODULUS_QINV, 32 bits -/
  qinv : Nat := 0
  /-- CEL_MODULUS_RSQ, 31 bits -/
  rsq : Nat := 0
  deriving DecidableEq, Repr

/-- One step of an FX64 group's term stream, kept so that a repeat can replay it (R174). -/
structure TermStep where
  mode : Nat
  tile : Nat
  slot : Nat
  k : Nat
  aCt : Bool
  deriving DecidableEq, Repr

/-- An accumulation group (R157 to R192). -/
structure AccGroup where
  /-- CEL_GROUP.OPEN -/
  isOpen : Bool := false
  sealed : Bool := false
  topk : Bool := false
  ingest : Bool := false
  /-- format code (R154) -/
  format : Nat := 0
  /-- shape code (R160) -/
  shape : Nat := 0
  tiles : Nat := 0
  /-- k of a top-k group -/
  topkK : Nat := 0
  /-- modulus entry -/
  modulus : Nat := 0
  /-- round handle of a sealed group -/
  round : Nat := 0xFF
  /-- current scale exponent -/
  e : Int := 0
  termSource : Nat := 0
  termLength : Nat := 0
  /-- R174 -/
  repeats : Nat := 0
  /-- R176; saturates at 255 -/
  inplace : Nat := 0
  saturated : Bool := false
  /-- R170 -/
  windowOpen : Bool := false
  /-- operand bytes the group's steps have read (R170) -/
  operandBytes : Nat := 0
  /-- terms received by tile and slot, by 16 tile + slot (R168) -/
  terms : Tab Nat := []
  /-- tenant whose memory holds the term source (R172) -/
  owner : Nat := 8
  /-- first half of each slot's space, in slot order over the tiles (R165) -/
  halves : List Nat := []
  /-- steps since the open, for a repeat (R174) -/
  steps : List TermStep := []
  deriving DecidableEq, Repr

/-- A bound mask stream of a cell (R225, R292). -/
structure StreamBind where
  /-- the stream's elements, already signed as R289 gives them -/
  elements : List Nat
  deriving DecidableEq, Repr

/-- A DMA descriptor (R390). -/
structure Desc where
  op : Nat
  v : Bool
  srcCell : Bool
  dstCell : Bool
  format : Nat
  q : Nat
  src : Nat
  dst : Nat
  length : Nat
  tag : Nat
  /-- FLAGS, FORMAT and reserved bytes are in range (check 1 of R393) -/
  formOk : Bool
  deriving DecidableEq, Repr

/-- What a cell's program waits for. -/
inductive CellWait where
  | none
  /-- a WAIT on a token for a count (R213) -/
  | token (t n : Nat)
  /-- GSYNC (R215) -/
  | gsync
  /-- a full feed queue (R226): the engine, the descriptor and the signal token of the FEED -/
  | feedQueue (engine : Nat) (d : Desc) (token : Option Nat)
  deriving DecidableEq, Repr

/-- A failure of a program or a load: CEL_FAULT (R229). -/
structure CellFault where
  status : Status := .ok
  index : Nat := 0
  origin : Bool := false
  unit : Nat := 0
  detail : Nat := 0
  loadInstr : Nat := 0
  deriving DecidableEq, Repr

/-- A cell (R123, R138, R146, R153, R229). -/
structure Cell where
  /-- CEL_STATUS.RUNNING (R153); reset 0 -/
  running : Bool := false
  /-- CEL_STATUS.CLEARING (R126); reset 0 -/
  clearing : Bool := false
  /-- CEL_STATUS.HALTED_ERR (R153); reset 0 -/
  haltedErr : Bool := false
  /-- CEL_STATUS.LAST_STATUS, 8 bits (R153); reset 0 -/
  lastStatus : Status := .ok
  /-- CEL_WORK, 64 bits (R153, R210); reset 0 -/
  work : Nat := 0
  /-- CEL_ERR fields SRAM_CE, ACC_CE, SRAM_UE, ACC_UE, LINK_CE, LINK_UE by 0 to 5, RC (R153); reset 0 -/
  err : Tab Nat := []
  /-- CEL_ARITH fields NONFINITE, ZQ_RANGE, CVT_SAT, COLLISION by 0 to 3, 16 bits, RC (R153); reset 0 -/
  arith : Tab Nat := []
  /-- CEL_ERR_ADDR: address and port of the first uncorrectable error (R144); reset none -/
  errAddr : Option (Nat × Nat) := none
  /-- CEL_MODULUS, CEL_MODULUS_QINV, CEL_MODULUS_RSQ: 16 entries (R134); reset 0 -/
  modulus : Tab Modulus := []
  /-- CEL_LINK.BYTES by direction, 48 bits (R153); reset 0 -/
  linkBytes : Tab Nat := []
  /-- CEL_LINK.ROUTE by direction, 8 bits (R153); reset 0 -/
  linkRoute : Tab Nat := []
  /-- accumulation groups 0 to 31: CEL_GROUP, CEL_ACC_MAP (R192); reset closed -/
  groups : Tab AccGroup := []
  /-- seal map: round of each sealed 4 KiB block, plus 1; 0 for a block that is not sealed (R189); reset clear -/
  seals : Tab Nat := []
  /-- accumulator registers by 1,024 n + PE, 64 bits (R138); reset 0 -/
  acc : Tab Word64 := []
  /-- cell SRAM, 4 MiB (R141); reset 0 -/
  sram : List Host.Cell := []
  /-- vector registers by 64 v + lane, 64 bits (R146); reset 0 -/
  vregs : Tab Word64 := []
  /-- instruction store, up to 4,096 instructions (R145); reset empty -/
  store : List InstrWord := []
  /-- CEL_PROG.LOADED (R229); reset 0 -/
  loaded : Bool := false
  /-- default entry of the loaded image (R193); reset 0 -/
  entry : Nat := 0
  /-- WAIT_LIMIT of the loaded image, 16 bits (R193); reset 0 -/
  waitLimit : Nat := 0
  /-- program measurement, 384 bits (R196); reset 0 -/
  measurement : Digest := 0
  /-- BUILD_ID of the loaded image, 16 bytes, kept with the measurement (R193); reset 0 -/
  buildId : Nat := 0
  /-- CEL_PROG.PC, 12 bits (R229); reset 0 -/
  pc : Nat := 0
  /-- active loops, innermost first: first instruction, last instruction, passes left (R222); reset none -/
  loops : List (Nat × Nat × Nat) := []
  /-- scalar registers s1 to s15, 64 bits (R202); reset 0 -/
  sregs : Tab Word64 := []
  /-- staging tokens 0 to 63, 16 bits: CEL_TOKEN (R211); reset 0 -/
  tokens : Tab Nat := []
  /-- what the program waits for: CEL_STATUS.WAITING, CEL_PROG.WAITING_TOKEN (R229); reset nothing -/
  waiting : CellWait := .none
  /-- CEL_PROG.TOKEN, 6 bits (R229); reset 0 -/
  lastToken : Nat := 0
  /-- turn boundaries passed in the current wait, up to the widest WAIT_LIMIT, 65,535 (R214); CEL_PROG.WAIT_TURNS shows 14 bits of it
  (R229); reset 0 -/
  waitTurns : Nat := 0
  /-- GSYNCs executed since start (R215); reset 0 -/
  gsyncs : Nat := 0
  /-- CEL_FAULT, 44 bits (R229); reset 0 -/
  fault : CellFault := {}
  /-- HALT was reached and the program waits for its feeds (R203); reset 0 -/
  halting : Bool := false
  /-- descriptors posted by FEED and not ended: engine, descriptor, signal token (R226); reset none -/
  feeds : List (Nat × Desc × Option Nat) := []
  /-- mask-stream bindings 0 to 3 (R225); reset none -/
  streams : Tab (Option StreamBind) := []
  /-- completion flags the program has earned (R206); reset 0 -/
  flags : Nat := 0
  /-- a group of this program closed saturated (R175); reset 0 -/
  satClosed : Bool := false
  /-- once an instruction of the ARR, ACC, VEC or NET unit has issued since the start, so that a later one may overlap it or be held for
  it (R207, R208, R210): the longest latency of those that have issued (R130, R147), plus 1; reset 0 -/
  landing : Nat := 0
  deriving DecidableEq, Repr

/-- A PROG_START, or a barrier's program, whose cells have not all halted (R206). -/
structure ProgRun where
  group : Nat
  entry : Nat
  args : List Nat
  cmd : Cmd
  /-- the cells have started -/
  begun : Bool
  /-- position of acceptance -/
  at_ : Nat
  deriving DecidableEq, Repr

/-- A program load that has passed its checks and moves its image (R199): its command, group and tenant, the bytes moved. -/
structure LoadJob where
  cmd : Cmd
  group : Nat
  tenant : Nat
  moved : Nat
  deriving DecidableEq, Repr

/-! ### Aggregation (R230 to R306) -/

/-- Round states (R240). -/
inductive RoundState where
  | free | armed | collecting | frozen | unmasking | summed | committed | released | aborted
  deriving DecidableEq, Repr

/-- The code of a round state (AGG_ROUND.STATE). -/
def RoundState.code : RoundState → Nat
  | .free => 0 | .armed => 1 | .collecting => 2 | .frozen => 3 | .unmasking => 4 | .summed => 5 | .committed => 6
  | .released => 7 | .aborted => 8

/-- Release parameters (R299). -/
structure Release where
  target : Nat := 0
  noise : Nat := 0
  flags : Nat := 0
  sigma : Nat := 0
  address : Nat := 0
  region : Nat := 0
  endpoint : Nat := 0
  noiseKey : Nat := 0xFFFF
  deriving DecidableEq, Repr

/-- A staging bin (R261). -/
structure Bin where
  cohort : Nat
  chunk : Nat
  /-- its place in the staging pool -/
  idx : Nat
  /-- slots claimed -/
  count : Nat
  deriving DecidableEq, Repr

/-- An entry of the mirror queue (R258, R259, R283): `chunk` is 2^34 for a SHARE. -/
structure Mirror where
  client : Nat
  chunk : Nat
  bytes : Nat
  sender : Nat
  forwarded : Bool
  deriving DecidableEq, Repr

/-- What a member holds of one client of a round. -/
structure ClientRec where
  /-- a KEYEX has been accepted (R248) -/
  keyex : Bool := false
  /-- a session key is held here (R249) -/
  keyHeld : Bool := false
  /-- the wrapped session key (R249) -/
  wrapped : Nat := 0
  /-- P-256 mask public key (R246) -/
  maskKey : Nat := 0
  /-- an ABORT has been accepted (R253) -/
  aborted : Bool := false
  /-- the guard's state (R280) -/
  guard : Nat := 0
  /-- a SHARE from the client has been accepted (R282) -/
  shared : Bool := false
  /-- self seed or pairwise key rebuilt (R285), plus 1; 0 for none -/
  secret : Nat := 0
  /-- verdict of a robust round, plus 1 (R370) -/
  verdict : Nat := 0
  deriving DecidableEq, Repr

/-- What a member holds of one cohort of a round. -/
structure CohortRec where
  /-- survivor set (R260) -/
  s : List Nat := []
  /-- dropout set (R260) -/
  d : List Nat := []
  /-- the sets have been published -/
  published : Bool := false
  /-- REASON of R298: 0 kept -/
  reason : Nat := 0
  /-- the cohort has settled (R284) -/
  settled : Bool := false
  /-- its secrets have been rebuilt, or its seeds have come (R285, R288) -/
  rebuilt : Bool := false
  /-- streams of R290 -/
  streams : Nat := 0
  /-- accepted share entries: sender, client named, kind, value (R282) -/
  shares : List (Nat × Nat × Nat × Nat) := []
  /-- pairwise seeds by (dropped, neighbour) (R285) -/
  pairs : List (Nat × Nat × Nat) := []
  deriving DecidableEq, Repr

/-- A round as one member holds it (R230 to R306). -/
structure Round where
  state : RoundState := .free
  tenant : Nat := 0
  repair : Bool := false
  /-- R233 -/
  number : Nat := 0
  format : Nat := 0
  b : Nat := 0
  k : Nat := 0
  t : Nat := 0
  batch : Nat := 256
  parent : Nat := 0xFF
  l : Nat := 0
  q : Nat := 0
  pCollect : Nat := 0
  pDeadline : Nat := 0
  pShareEnd : Nat := 0
  staging : Nat := 0
  cohortTable : Nat := 0
  directory : Nat := 0
  statement : Nat := 0
  release : Release := {}
  /-- cohort sizes (R232) -/
  sizes : List Nat := []
  /-- values captured at ROUND_OPEN (R117) -/
  cohortMin : Nat := 0
  roundMin : Nat := 0
  r : Nat := 1
  shards : List (List Nat) := []
  /-- encrypted round: parameter set (R344); none for a plaintext round -/
  psid : Option Nat := none
  keyset : Nat := 0
  clientLevel : Nat := 0
  ctCount : Nat := 0
  clientNoise : Nat := 0
  scale : Nat := 0
  robust : Bool := false
  test : Nat := 0
  checkPlan : Nat := 0
  exitBind : Nat := 0
  lweKey : Nat := 0
  brKey : Nat := 0
  testPoly : Nat := 0
  /-- B_open while the open is pending (R234) -/
  bOpen : Option Nat := none
  /-- this member's verdict on a pending open, whether it has been sent, the verdicts at the coordinator, and its decision (R113, R234) -/
  openOwn : Status := .ok
  openSent : Bool := false
  openVerdicts : List (Nat × Status) := []
  openDecision : Option Status := none
  /-- the ROUND_OPEN that is pending -/
  openCmd : Option Cmd := none
  /-- round key pairs, graph seed, wrapping key: key-register entries and the seed (R237) -/
  keyEntries : List Nat := []
  graphSeed : Nat := 0
  /-- the digest of the assembly descriptor when the round was opened (R239) -/
  assemblyDigest : Digest := 0
  /-- REVISION of the statement (R239) -/
  revision : Nat := 0
  /-- later deadlines accepted: the boundary from which each holds, the deadline, and the command on the coordinator (R242) -/
  newDeadlines : List (Nat × Nat × Option Cmd) := []
  /-- the boundary at which a pending change of state takes effect, and the state (R240) -/
  change : Option (Nat × RoundState) := none
  /-- the status that a change to ABORTED reports -/
  changeStatus : Status := .ok
  /-- the commands that complete at that change, with status and flags -/
  changeCmds : List (Cmd × Status × Nat) := []
  /-- clients by global index -/
  clients : Tab ClientRec := []
  /-- contribution bitmap: key 2^34 client + chunk (R257) -/
  bitmap : Tab Bool := []
  /-- cohorts -/
  cohorts : Tab CohortRec := []
  /-- open bins (R261), oldest first -/
  bins : List Bin := []
  /-- batches in the order in which they became batches (R264) -/
  batches : List Bin := []
  /-- held chunks of a robust round: client, chunk, elements (R369) -/
  heldChunks : List (Nat × Nat × List Nat) := []
  /-- bytes of evaluation keys that have streamed for the check under way (R332, R370) -/
  checkMoved : Nat := 0
  /-- mirror queue (R259) -/
  mirrorQueue : List Mirror := []
  /-- AGG_MIRROR.DRAINED -/
  drained : Bool := false
  /-- AGG_ACCEPT.CHUNKS, AGG_ACCEPT.KEYEX -/
  chunksAccepted : Nat := 0
  keyexAccepted : Nat := 0
  /-- AGG_REFUSE fields DUPLICATE, AEAD, CLOSED, OTHER by 0 to 3, RC -/
  refused : Tab Nat := []
  /-- AGG_POOL.BATCHES and AGG_POOL.PRESSURE -/
  batchCount : Nat := 0
  pressure : Nat := 0
  /-- AGG_SHARES.ACCEPTED, GUARD, OTHER -/
  sharesAccepted : Nat := 0
  sharesGuard : Nat := 0
  sharesOther : Nat := 0
  /-- AGG_RECON.SELF, PAIRKEYS -/
  reconSelf : Nat := 0
  reconPair : Nat := 0
  /-- the ROUND_UNMASK that stands, and the boundary from which delivery is armed (R291) -/
  unmaskCmd : Option Cmd := none
  armAt : Option Nat := none
  /-- AGG_UNMASK.ARMED, GATE_DONE, REPLICA_OK, UNVERIFIED, HELD -/
  unmaskArmed : Bool := false
  gateDone : Bool := false
  replicaOk : Bool := false
  unverified : Bool := false
  heldWrite : Bool := false
  /-- chunk totals after the gate pass: chunk, elements (R294) -/
  totals : List (Nat × List Nat) := []
  /-- digest list of the tiles (R294) -/
  digests : List Digest := []
  /-- status of this member's shard (R269, R295) -/
  shardStatus : Status := .ok
  /-- reports of members at the coordinator (R296): member, status -/
  reports : List (Nat × Status) := []
  /-- SUMMED announced (R296) -/
  announced : Bool := false
  /-- commit record written: kept cohorts and survivors (R298) -/
  commitRecord : Option (Nat × Nat × Bool) := none
  /-- noise seed held (R301), plus 1 -/
  noiseSeed : Nat := 0
  /-- the ROUND_RELEASE that runs (R303) -/
  releaseCmd : Option Cmd := none
  /-- a release runs on this member: its digest of the noisy shard total is to agree with the twin's (R303) -/
  releasing : Bool := false
  /-- the twin's digest, once it has come (R303) -/
  twinDigest : Option Digest := none
  /-- this member has reported on the digests (R303) -/
  agreed : Bool := false
  /-- the reports of members on the digests, and on their writes, at the coordinator (R303) -/
  agreeReports : List (Nat × Status) := []
  writeReports : List (Nat × Status) := []
  /-- writing announced (R303) -/
  writing : Bool := false
  /-- this member's write has ended (R303) -/
  written : Bool := false
  /-- shards released or covered: repair rounds committed (R48) -/
  repairs : List Nat := []
  /-- cells whose sealed clear has still to run (R190) -/
  sealedCells : List Nat := []
  /-- the position at which the sealed clear ended (R240) -/
  clearedAt : Option Nat := none
  /-- shards that a repair round covers (R48) -/
  repaired : List Nat := []
  /-- status of each shard at the commit (R298) -/
  shardSt : List Status := []
  /-- turn in which the last report reached the coordinator (R296) -/
  reportTurn : Nat := 0
  /-- members lost since the round was opened, which take no more part in it, readmitted or not (R45) -/
  gone : List Nat := []
  deriving DecidableEq, Repr

/-- A binding (R264, R271, R306). -/
structure Bind where
  /-- AGG_BIND_CTL -/
  enable : Bool := false
  cell : Nat := 0
  token : Nat := 0
  round : Nat := 0
  engine : Nat := 0
  status : Status := .ok
  busy : Bool := false
  resident : Bool := false
  /-- a WAIT has taken the notice of the batch or stream in hand (R264, R292) -/
  taken : Bool := false
  /-- AGG_BIND_CHUNKS -/
  chunkFirst : Nat := 0
  chunkCount : Nat := 0
  /-- AGG_BIND_COHORTS -/
  cohortFirst : Nat := 0
  cohortCount : Nat := 0
  /-- AGG_BIND_ADDR -/
  tile : Nat := 0
  desc : Nat := 0
  buf : Nat := 0
  /-- AGG_BIND_STREAMS -/
  streams : Nat := 0
  delivered : Nat := 0
  /-- tile placed in the tile block: cohort · chunks + chunk, plus 1 (R264) -/
  placed : Nat := 0
  /-- descriptors copied for the batch dispatched, not yet spent (R267) -/
  copies : List Desc := []
  /-- bin of the batch dispatched (R264) -/
  current : Option Bin := none
  deriving DecidableEq, Repr

/-- An ingest engine (AGG_INGEST). -/
structure Ingest where
  bytes : Nat := 0
  dropped : Nat := 0
  deriving DecidableEq, Repr

/-- AGG block. -/
structure Agg where
  /-- rounds by handle (R230); reset FREE -/
  rounds : Tab Round := []
  /-- bindings by 32 t + i (R271); reset 0 -/
  binds : Tab Bind := []
  /-- AGG_INGEST by ingest engine (R271); reset 0 -/
  ingest : Tab Ingest := []
  /-- last round number plus 1 opened in the tenant's life, by tenant (R230); reset 0 -/
  lastRound : Tab Nat := []
  deriving DecidableEq, Repr

/-! ### The ring sequencer (R307 to R375) -/

/-- A parameter set (R307, R308). -/
structure ParamSet where
  valid : Bool := false
  owner : Nat := 0
  exact : Bool := false
  logN : Nat := 0
  limbs : Nat := 0
  special : Nat := 0
  dnum : Nat := 0
  spread : Nat := 0
  plainT : Nat := 0
  fresh : Nat := 0
  cMul : Nat := 0
  cKs : Nat := 0
  cRs : Nat := 0
  primes : List Nat := []
  roots : List Nat := []
  thresh : List Nat := []
  group : Nat := 0
  scratch : Nat := 0
  scratchLen : Nat := 0
  /-- the 832-byte record, for the fingerprint (R312) -/
  record : List Byte := []
  detached : Bool := false
  deriving DecidableEq, Repr

/-- A descriptor (R334, R357). -/
structure RingDesc where
  valid : Bool := false
  owner : Nat := 0
  psid : Nat := 0
  type : Nat := 0
  level : Nat := 0
  eval : Bool := false
  plain : Bool := false
  noise : Nat := 0
  scale : Nat := 0
  keyset : Nat := 0
  fingerprint : Nat := 0
  base : Nat := 0
  compStride : Nat := 0
  limbStride : Nat := 0
  generation : Nat := 0
  cap : Nat := 0
  dim : Nat := 0
  deriving DecidableEq, Repr

/-- An evaluation key (R329, R358). -/
structure Evk where
  valid : Bool := false
  owner : Nat := 0
  psid : Nat := 0
  kind : Nat := 0
  conj : Bool := false
  keyset : Nat := 0
  fingerprint : Nat := 0
  rot : Nat := 0
  chunks : Nat := 0
  base : Nat := 0
  digests : Nat := 0
  digestKey : Nat := 0
  targetPsid : Nat := 0
  lweDim : Nat := 0
  digits : Nat := 0
  logBase : Nat := 0
  noiseAdd : Nat := 0
  deriving DecidableEq, Repr

/-- One entry of a RING_MACRO list or of a plan (R337). -/
structure RingEntry where
  op : Nat
  rsvd1 : Nat
  dst : Nat
  a : Nat
  b : Nat
  evk : Nat
  rsvd2 : Nat
  arg : Nat
  imm : Nat
  rsvd3 : Nat
  deriving DecidableEq, Repr

/-- A plan (R350 to R354). -/
structure Plan where
  valid : Bool := false
  owner : Nat := 0
  check : Bool := false
  psid : Nat := 0
  inputs : Nat := 0
  inLevel : Nat := 0
  inNoiseMax : Nat := 0
  raiseNoise : Nat := 0
  inScale : Nat := 0
  keyset : Nat := 0
  scratch : Nat := 0
  scratchLen : Nat := 0
  entries : List RingEntry := []
  outLevel : Nat := 0
  outNoise : Nat := 0
  outScale : Nat := 0
  outEval : Bool := false
  outPlain : Bool := false
  chunks : Nat := 0
  temps : Nat := 0
  detached : Bool := false
  deriving DecidableEq, Repr

/-- An exit binding (R363). -/
structure ExitBind where
  valid : Bool := false
  endpoint : Nat := 0
  macKey : Nat := 0
  sigma : Nat := 0
  rBits : Nat := 0
  replyLevel : Nat := 0
  waitTurns : Nat := 0
  sends : Nat := 0
  deriving DecidableEq, Repr

/-- A request that awaits a committee reply (R364 to R366, R370). -/
structure ExitReq where
  id : Nat
  tenant : Nat
  bind : Nat
  kind : Nat
  fingerprint : Nat
  level : Nat
  sentTurn : Nat
  sends : Nat
  /-- round and client of a robust-round check -/
  check : Option (Nat × Nat)
  /-- destination descriptor of a SIGN_EXIT -/
  dst : Nat
  /-- source descriptor of a SIGN_EXIT -/
  src : Nat
  /-- WAIT_TURNS and SENDS of the binding when it was sent -/
  waitTurns : Nat
  sendsMax : Nat
  deriving DecidableEq, Repr

/-- A RING_MACRO that has not completed (R337, R341). -/
structure RingMacro where
  cmd : Cmd
  entries : List RingEntry
  /-- index of the entry at the head -/
  pos : Nat
  /-- completion flags earned -/
  flags : Nat
  /-- the head entry waits for a committee reply (R364) -/
  waiting : Bool
  /-- the head entry runs: bytes of its evaluation key that have streamed, and the turn in which it began (R332, R341, R343) -/
  run : Option (Nat × Nat) := none
  deriving DecidableEq, Repr

/-- An EVK_REGISTER that reads its key (R330): its command and tenant, the index and the key as they will be registered, the bytes read, and
whether an uncorrectable error has been met. -/
structure EvkJob where
  cmd : Cmd
  tenant : Nat
  index : Nat
  evk : Evk
  moved : Nat
  ue : Bool
  deriving DecidableEq, Repr

/-- RING block (R349, R375). -/
structure Ring where
  /-- RING_STATUS.TENANT, 3 bits (R349); reset 0 -/
  tenant : Nat := 0
  /-- RING_STATUS.LAST_STATUS, 8 bits (R349); reset 0 -/
  lastStatus : Status := .ok
  /-- RING_ERR fields LEVEL, NOISE, EVK, PARAMS by 0 to 3, 16 bits, RC (R349); reset 0 -/
  err : Tab Nat := []
  /-- RING_TENANT.DESC_LIMIT by tenant, 13 bits (R349); reset 512 -/
  descLimit : Tab Nat := []
  /-- RING_TENANT.LAST_STATUS by tenant, 8 bits (R349); reset 0 -/
  tenantStatus : Tab Status := []
  /-- RING_MACRO commands of each tenant, oldest first, at most 16 (R341); reset none -/
  macros : Tab (List RingMacro) := []
  /-- EVK_REGISTER commands that read their keys (R330); reset none -/
  evkJobs : List EvkJob := []
  /-- RING_MACRO_POS ENTRY, OP and CHUNKS by tenant: 16, 8 and 32 bits (R349); reset 0 -/
  macroPos : Tab (Nat × Nat × Nat) := []
  /-- RING_MACRO_POS.PAUSED by tenant, 1 bit (R349); reset 0 -/
  paused : Tab Bool := []
  /-- parameter sets 0 to 63: RING_PARAMS, RING_PARAMS_DIGEST, RING_PLAN (R307, R349); reset free -/
  params : Tab ParamSet := []
  /-- descriptors 0 to 4,095 (R334); reset free -/
  descs : Tab RingDesc := []
  /-- evaluation keys 0 to 511 (R329); reset free -/
  evks : Tab Evk := []
  /-- plans 0 to 15: RING_RPLAN, RING_RPLAN_KEYS (R350, R375); reset free -/
  plans : Tab Plan := []
  /-- exit bindings by 4 t + i (R363); reset free -/
  exits : Tab ExitBind := []
  /-- requests that await a reply: RING_EXIT.OUTSTANDING (R375); reset none -/
  reqs : List ExitReq := []
  /-- requests settled or ended, whose late replies are counted (R365); reset none -/
  settled : List (Nat × Nat) := []
  /-- REQUEST_ID of the next request, 64 bits (R366); reset 1 (DESIGN CHOICE 9) -/
  nextReq : Nat := 1
  /-- RING_EXIT fields BAD, LATE, REFUSED, TIMEOUTS, FAILED by 8 t + 0 to 4, RC (R375); reset 0 -/
  exitCount : Tab Nat := []
  /-- RING_DESC_SEL by tenant: INDEX and EVK, 13 bits (R349); reset 0 -/
  sel : Tab Nat := []
  deriving DecidableEq, Repr

/-! ### Memory (R376 to R414) -/

/-- A leaf page-table entry (R382). -/
structure Page where
  /-- tier code (R376): 1 HBM, 2 DDR, 3 HOST; 0 not mapped -/
  tier : Nat := 0
  /-- LEAF: a 2 MiB page -/
  large : Bool := false
  r : Bool := false
  w : Bool := false
  acc : Bool := false
  x : Bool := false
  epoch : Nat := 0
  sealed_ : Bool := false
  exch : Bool := false
  /-- causes that lock the page (R400): LOCKED while not 0 -/
  locks : Nat := 0
  broken : Bool := false
  /-- bits 63:16 of the physical address, or of the host address -/
  frame : Nat := 0
  deriving DecidableEq, Repr

/-- What a map operation acts on (R384). -/
structure MapJob where
  va : Nat := 0
  tier : Nat := 0
  large : Bool := false
  rights : Nat := 0
  exch : Bool := false
  count : Nat := 0
  deriving DecidableEq, Repr

/-- The MEM_MAP registers of a tenant (R384, R414). -/
structure MapRegs where
  va : Nat := 0
  arg : Nat := 0
  op : Nat := 0
  tier : Nat := 0
  large : Bool := false
  rights : Nat := 0
  exch : Bool := false
  count : Nat := 0
  busy : Bool := false
  status : Status := .ok
  done : Nat := 0
  /-- frames of a MAP that is still zero-filling, and what it maps (R386) -/
  frames : List Nat := []
  job : MapJob := {}
  /-- the host driver wrote GO -/
  byHost : Bool := false
  deriving DecidableEq, Repr

/-- MEM_KEY of a tenant's tier (R405 to R408, R414). -/
structure TierKey where
  epoch : Nat := 0
  prevValid : Bool := false
  sweeping : Bool := false
  oldPages : Nat := 0
  rotations : Nat := 0
  retries : Nat := 0
  /-- entries of the current, the previous and the new key set -/
  cur : List Nat := []
  prev : List Nat := []
  fresh : List Nat := []
  /-- the KEY_ROTATE_MEM that waits for its boundary, and the boundary -/
  cmd : Option (Cmd × Nat) := none
  /-- units left for after the rest of the tier (R407) -/
  skipped : List Nat := []
  deriving DecidableEq, Repr

/-- Where a descriptor came from, and so where its end is reported. -/
inductive DmaSource where
  /-- a DMA_SUBMIT chain or a barrier's chain -/
  | cmd (c : Cmd)
  /-- a FEED of a cell: its program index, its signal token (R226) -/
  | feed (cell index : Nat) (token : Option Nat)
  /-- the aggregation controller, for a round (R264) -/
  | batch (bind round : Nat)
  deriving DecidableEq, Repr

/-- Why a descriptor stops before its end (R70, R395, R397). -/
inductive DmaStop where
  /-- it parks on a page, for a translation fault or a host error -/
  | park (va : Nat) (hostErr : Bool)
  /-- it ends with a status -/
  | fail (st : Status)
  /-- the next block waits for budget -/
  | budget
  /-- the next block does not fit into the slots owned (R65) -/
  | slot
  deriving DecidableEq, Repr

/-- Descriptors in hand on an engine for a tenant (R392, R395, R398). -/
structure DmaWork where
  source : DmaSource
  descs : List Desc
  /-- index of the descriptor in hand -/
  idx : Nat
  /-- resume offset -/
  off : Nat
  preempted : Bool
  resumed : Bool
  varied : Bool
  /-- the descriptor in hand has passed its checks and started -/
  begun : Bool
  /-- the round for which the aggregation controller issued the descriptor (R267, R397) -/
  round : Option Nat
  deriving DecidableEq, Repr

/-- A fault park: MEM_FAULT_VA, MEM_FAULT_OFFSET (R395, R414). -/
structure Parked where
  va : Nat := 0
  pending : Bool := false
  hostErr : Bool := false
  offset : Nat := 0
  chain : Nat := 0
  feed : Bool := false
  /-- RESUME has been written (R396) -/
  resume : Bool := false
  /-- turn boundaries since it parked -/
  turns : Nat := 0
  deriving DecidableEq, Repr

/-- MEM_DMA of an engine (R414). -/
structure DmaEng where
  active : Bool := false
  tenant : Nat := 0
  op : Nat := 0
  device : Bool := false
  bytes : Nat := 0
  lastStatus : Status := .ok
  deriving DecidableEq, Repr

/-- A scrub receipt's body (R413). -/
structure Receipt where
  tenant : Nat
  reset : Bool
  serial : Nat
  pStart : Nat
  pEnd : Nat
  hbmBytes : Nat
  ddrBytes : Nat
  hostBytes : Nat
  hostRefused : Nat
  keysDestroyed : Nat
  ueFrames : Nat
  jig : Digest
  deriving DecidableEq, Repr

/-- A returned frame that is held out of the pool until it is zeroed (R412). -/
structure HeldFrame where
  tier : Nat
  frame : Nat
  units : Nat
  tenant : Nat
  /-- the round whose memory it was (R399) -/
  round : Option Nat
  /-- an uncorrectable error stopped its zeroing while the retirement list was full (R411) -/
  stuck : Bool
  deriving DecidableEq, Repr

/-- MEM block (R414). -/
structure Mem where
  /-- MEM_HBM_CAP.INSTALLED_MIB, 21 bits (R378); found at start, here 294,912 (DESIGN CHOICE 10) -/
  hbmMib : Nat := 294912
  /-- MEM_DDR_CAP.INSTALLED_MIB, 21 bits (R378); found at start, here 786,432 (DESIGN CHOICE 10) -/
  ddrMib : Nat := 786432
  /-- MEM_EXCH.SIZE, 16 bits (R379); reset 0 -/
  exch : Nat := 0
  /-- which generation of device memory keys is in use: one for each COLD or POWER-ON reset (R377, R379, R402); the key values
  are `Config.deviceKey` of it (DESIGN CHOICE 47) -/
  keyGen : Nat := 0
  /-- MEM_SCRUB.LAST_SERIAL, 56 bits (R414); reset 0 -/
  lastSerial : Nat := 0
  /-- MEM_FAULT_LIMIT.TURNS, 32 bits (R414); reset 65,536 -/
  faultLimit : Nat := 65536
  /-- MEM_ERR fields HBM_CE, DDR_CE, HBM_UE, DDR_UE, TAG_FAIL by 0 to 4, RC (R414); reset 0 -/
  err : Tab Nat := []
  /-- MEM_UE_LOG: address, tier, tenant, device of the first capture (R414); reset none -/
  ueLog : Option (Nat × Nat × Nat × Bool) := none
  /-- retired frames as (tier, frame), at most 4,096 a tier (R411); reset none -/
  retired : List (Nat × Nat) := []
  /-- MEM_RETIRE_STATUS.LAST_STATUS, 8 bits (R414); reset 0 -/
  retireStatus : Status := .ok
  /-- MEM_RECEIPT_SEL RECEIPT and WORD, 15 bits (R414); reset 0 -/
  receiptSel : Nat := 0
  /-- the last 16 receipts, newest first (R413); reset none -/
  receipts : List Receipt := []
  /-- MEM_QUOTA.LIMIT by 3 t + i, 31 bits (R388); reset 0 -/
  limit : Tab Nat := []
  /-- MEM_QUOTA.USED by 3 t + i, 31 bits (R388); reset 0 -/
  used : Tab Nat := []
  /-- MEM_KEY by 2 t + i (R414); reset 0 -/
  keys : Tab TierKey := []
  /-- MEM_MAP registers by tenant (R414); reset 0 -/
  maps : Tab MapRegs := []
  /-- MEM_WALK_VA by tenant, 48 bits (R414); reset 0 -/
  walkVa : Tab Nat := []
  /-- MEM_WALK_PTE by tenant, 64 bits (R414); reset 0 -/
  walkPte : Tab Nat := []
  /-- leaf page-table entries by 2^33 t + VA / 64 KiB (R381, R382); reset none -/
  pages : Tab Page := []
  /-- MEM_FAULT by 32 t + d (R414); reset none -/
  parked : Tab Parked := []
  /-- MEM_DMA by engine (R414); reset 0 -/
  engines : Tab DmaEng := []
  /-- descriptors in hand or queued by 32 t + d, oldest first, the save area with them (R392, R398); reset none -/
  work : Tab (List DmaWork) := []
  /-- frames in use by tier · 2^48 + frame: tenant + 1 (R376); reset none -/
  inUse : Tab Nat := []
  /-- returned frames held until zeroed: MEM_SCRUB.ACTIVE (R412); reset none -/
  held : List HeldFrame := []
  deriving DecidableEq, Repr

/-! ### The fabric (R415 to R453) -/

/-- A frame in a replay buffer: its SEQ, its header and when it was sent last (R418, R420). -/
structure HeldSent where
  seq : Nat
  head : List Byte
  at_ : Nat
  deriving DecidableEq, Repr

/-- A port (R415, R421, R453). -/
structure Port where
  role : Nat := 0
  /-- 0 DOWN, 1 UP, 2 OUT -/
  state : Nat := 0
  reason : Nat := 0
  lanesOk : Nat := 0
  peer : Nat := 0xFFFF
  keySeq : Nat := 0
  /-- FAB_PORT_CTL.READMIT -/
  readmit : Bool := false
  /-- a link key is held (R419) -/
  keyed : Bool := false
  /-- boundary at which the port comes up (R423) -/
  upAt : Option Nat := none
  fecCorr : Nat := 0
  fecUncorr : Nat := 0
  replays : Nat := 0
  tagFail : Nat := 0
  tx : Nat := 0
  rx : Nat := 0
  /-- FAB_ETH_DROP fields by 0 to 3 -/
  drops : Tab Nat := []
  /-- highest SEQ sent and received, and the frames sent and not acknowledged, oldest first (R418, R420) -/
  txSeq : Nat := 0
  rxSeq : Nat := 0
  replay : List HeldSent := []
  /-- key-register entries of the link keys, and those that take effect at the next turn boundary (R419, R465) -/
  keys : List Nat := []
  newKeys : List Nat := []
  deriving DecidableEq, Repr

/-- A laser module (R453). -/
structure Laser where
  present : Bool := false
  fault : Bool := false
  faults : Nat := 0
  deriving DecidableEq, Repr

/-- A flow (R427, R430 to R434). -/
structure Flow where
  /-- source endpoint, destination and destination endpoint, as one number -/
  key : Nat
  /-- packets -/
  window : Nat
  /-- turn in which it last sent -/
  lastTurn : Nat
  /-- acknowledgements since the last growth -/
  acks : Nat
  /-- packets sent on it so far -/
  sent : Nat
  /-- a packet numbered up to here halves the window no more -/
  halved : Nat
  /-- smoothed round trip and its variation in ticks, scaled by 8 and by 4, once measured (R431) -/
  rtt : Option (Nat × Nat)
  deriving DecidableEq, Repr

/-- A registered region (R435 to R440). -/
structure Region where
  tenant : Nat
  va : Nat
  length : Nat
  rights : Nat
  scope : Nat
  format : Nat
  prefixLen : Nat
  q : Nat
  ops : Nat
  notifyEp : Nat
  prefixAddr : Nat
  /-- operation bitmap: the bits set (R440) -/
  applied : List Nat
  deriving DecidableEq, Repr

/-- A work request (R443). -/
structure WorkReq where
  kind : Nat
  flags : Nat
  format : Nat
  dstTenant : Nat
  dstEp : Nat
  dstMember : Nat
  regionKey : Nat
  opId : Nat
  localVa : Nat
  length : Nat
  tag : Nat
  dstUdp : Nat
  remoteOffset : Nat
  dstIpv6 : Nat
  /-- the reserved bytes are 0 -/
  reservedZero : Bool
  deriving DecidableEq, Repr

/-- A receive-queue entry taken from the queue (R442). -/
structure RecvEntry where
  addr : Nat
  length : Nat
  tag : Nat
  deriving DecidableEq, Repr

/-- One message that an endpoint reassembles (R446). -/
structure Reasm where
  srcEp : Nat
  srcMember : Nat
  srcAddr : Nat
  msgId : Nat
  count : Nat
  /-- packets that have landed -/
  got : List Nat
  /-- bytes that they hold together -/
  bytes : Nat
  retx : Bool
  entry : RecvEntry
  /-- a WRITE_NOTIFY's region key -/
  region : Option Nat
  /-- position of the last packet -/
  last : Nat
  deriving DecidableEq, Repr

/-- A packet of a message that is not yet acknowledged (R430 to R432). -/
structure SendPkt where
  idx : Nat
  /-- times sent -/
  sends : Nat
  /-- times sent since the last NAK -/
  tries : Nat
  /-- retryable NAKs -/
  naks : Nat
  /-- position of the last sending -/
  sentAt : Nat
  /-- its number in the flow when last sent -/
  number : Nat
  /-- position until which a NAK holds it back -/
  waitUntil : Option Nat
  deriving DecidableEq, Repr

/-- A message that an endpoint sends (R430 to R432, R443). -/
structure SendMsg where
  msgId : Nat
  req : WorkReq
  data : List Byte
  left : List SendPkt
  retransmitted : Bool
  deriving DecidableEq, Repr

/-- A PUSH or BCAST whose destinations have not all answered (R449, R450). -/
structure PushReq where
  id : Nat
  req : WorkReq
  waiting : List Nat
  /-- refusals so far, by member -/
  refused : List (Nat × Status)
  deriving DecidableEq, Repr

/-- An endpoint context (R442, R453). -/
structure Endpoint where
  /-- 0 free, 1 resident, 2 parked, 3 parking -/
  state : Nat := 0
  tenant : Nat := 0
  sqBase : Nat := 0
  rqBase : Nat := 0
  cqBase : Nat := 0
  /-- entries -/
  sqSize : Nat := 0
  rqSize : Nat := 0
  cqSize : Nat := 0
  sqHead : Nat := 0
  sqTail : Nat := 0
  rqHead : Nat := 0
  rqTail : Nat := 0
  cqTail : Nat := 0
  cqHead : Nat := 0
  /-- passes through the completion queue, modulo 2 -/
  cqPass : Bool := false
  reasm : List Reasm := []
  /-- receive entries of discarded reassemblies, which serve the next messages (R446) -/
  spare : List RecvEntry := []
  sends : List SendMsg := []
  pushes : List PushReq := []
  /-- MSG_ID of the next message (R426) -/
  nextMsg : Nat := 0
  /-- NAKs with ENDPOINT_PARKED sent in this turn (R447) -/
  naksTurn : Nat := 0
  /-- the park command that waits (R447) -/
  parkCmd : Option Cmd := none
  deriving DecidableEq, Repr

/-- FAB_TENANT (R453). -/
structure FabTenant where
  fenceRound : Nat := 0
  gone : Nat := 0
  nakParked : Nat := 0
  deriving DecidableEq, Repr

/-- FAB block (R453). -/
structure Fab where
  /-- ports 0 to 15: FAB_PORT_STATUS, _CTL, _ERR, _TX, _RX, FAB_ETH_DROP (R453); reset DOWN, unused -/
  ports : Tab Port := []
  /-- laser modules 0 to 3: FAB_LASER (R453); reset 0 -/
  lasers : Tab Laser := []
  /-- flow table, least recently used first: FAB_FLOWS.ACTIVE (R434); reset empty -/
  flows : List Flow := []
  /-- FAB_FLOWS.EVICTED, 16 bits, RC (R453); reset 0 -/
  evicted : Nat := 0
  /-- FAB_FLOWS.UNREACHABLE, 16 bits, RC (R453); reset 0 -/
  unreachable : Nat := 0
  /-- FAB_FLOWS.PARKED_PEER, 16 bits, RC (R453); reset 0 -/
  parkedPeer : Nat := 0
  /-- FAB_TENANT by tenant (R453); reset 0 -/
  tenants : Tab FabTenant := []
  /-- registered regions by index (R435); reset none -/
  regions : List (Nat × Region) := []
  /-- generation of each region index, 12 bits (R436); reset 0 -/
  regionGen : Tab Nat := []
  /-- endpoint contexts 0 to 8,191: FAB_EP_CTX (R442, R453); reset free -/
  eps : Tab Endpoint := []
  /-- verdicts on requests of which frames are still to come: source member, tenant, region key, first refusal (R450); reset none -/
  inbound : List (Nat × Nat × Nat × Status) := []
  deriving DecidableEq, Repr

/-! ### Tenants, keys, life cycle (R454 to R496) -/

/-- Life-cycle states (R484). -/
inductive Lifecycle where
  | blank | provisioned | owned | open_ | retired | tampered
  deriving DecidableEq, Repr

/-- The code of a life-cycle state (R484). -/
def Lifecycle.code : Lifecycle → Nat
  | .blank => 0 | .provisioned => 1 | .owned => 2 | .open_ => 3 | .retired => 4 | .tampered => 5

/-- Tenant states (R455). -/
inductive TenantState where
  | absent | created | running | suspended | removing
  deriving DecidableEq, Repr

/-- The code of a tenant state (R455). -/
def TenantState.code : TenantState → Nat
  | .absent => 0 | .created => 1 | .running => 2 | .suspended => 3 | .removing => 4

/-- A removal or TENANT reset in progress (R460 to R463). -/
structure Removal where
  boundary : Nat
  /-- a TENANT reset rather than a TENANT_REMOVE -/
  reset : Bool
  cmd : Option Cmd
  /-- the boundary's work has run -/
  begun : Bool
  /-- the tenant was RUNNING when the removal was accepted -/
  ran : Bool
  descsEnded : Nat
  keysDestroyed : Nat
  pStart : Nat
  hbmBytes : Nat
  ddrBytes : Nat
  hostBytes : Nat
  deriving DecidableEq, Repr

/-- A creation that waits for its boundary (R458, R459). -/
structure Creating where
  boundary : Nat
  /-- the command, on the member that took it -/
  cmd : Option Cmd
  /-- this member's verdict -/
  own : Status := .ok
  sent : Bool := false
  /-- on the coordinator: verdicts by member -/
  verdicts : List (Nat × Status) := []
  decision : Option Status := none
  deriving DecidableEq, Repr

/-- The completion of a TENANT_REMOVE that waits for the other members (R462). -/
structure Removed where
  cmd : Cmd
  /-- members that have ended: status, descriptors ended, packets and frames refused -/
  reports : List (Nat × Status × Nat × Nat)
  deriving DecidableEq, Repr

/-- A tenant (R455, R496). -/
structure Tenant where
  state : TenantState := .absent
  /-- SUSPEND_CAUSE, 2 bits -/
  suspendCause : Nat := 0
  /-- suspension due at the next turn boundary, with its cause (R456); 0 none -/
  suspendDue : Nat := 0
  /-- PHASE, 8 bits -/
  phase : Nat := 0
  /-- CREATIONS, 16 bits -/
  creations : Nat := 0
  /-- the tenant's CTR_DRBG is instantiated (R459) -/
  drbg : Bool := false
  /-- generate requests since the last reseed (R495) -/
  drawn : Nat := 0
  /-- creation pending (R459) -/
  creating : Option Creating := none
  removal : Option Removal := none
  /-- an FLR of the VF was taken here and waits for the coordinator (R463) -/
  flr : Bool := false
  /-- the removal has ended here, and its completion waits for the other members (R462) -/
  removed : Option Removed := none
  /-- reports of other members that ended it before this one (R462) -/
  early : List (Nat × Status × Nat × Nat) := []
  deriving DecidableEq, Repr

/-- A key-register entry (R466). -/
structure Key where
  /-- type code, 4 bits; 0 for a free entry -/
  type : Nat := 0
  /-- owner code, 4 bits -/
  owner : Nat := 0
  /-- permitted uses, 16 bits -/
  uses : Nat := 0
  /-- counted uses, 32 bits -/
  count : Nat := 0
  /-- expire at the next reset that reaches the owner -/
  expire : Bool := false
  imported : Bool := false
  /-- the 256-bit value -/
  value : Nat := 0
  deriving DecidableEq, Repr

/-- SEC block (R496), BBRAM and OTP. -/
structure Sec where
  /-- SEC_LIFECYCLE.STATE, 3 bits (R484); a shipped part: PROVISIONED (R485; DESIGN CHOICE 11) -/
  lifecycle : Lifecycle := .provisioned
  /-- SEC_LIFECYCLE.STEPPING, 8 bits (R3); the part, here 0xB1 (DESIGN CHOICE 11) -/
  stepping : Nat := 0xB1
  /-- the part is XNL-7264-B rather than -E (R4), 1 bit; here B (DESIGN CHOICE 11) -/
  partB : Bool := true
  /-- SEC_LIFECYCLE.OPEN_METHOD, 2 bits (R496); reset 0 -/
  openMethod : Nat := 0
  /-- SEC_LIFECYCLE.PW_FAILS in BBRAM, 4 bits (R488); from BBRAM, here 0 (DESIGN CHOICE 11) -/
  pwFails : Nat := 0
  /-- SEC_LIFECYCLE.PW_LOCKED in BBRAM, 1 bit (R488); from BBRAM, here 0 (DESIGN CHOICE 11) -/
  pwLocked : Bool := false
  /-- position of the last failed password attempt (R488); reset none -/
  lastFail : Option Nat := none
  /-- SEC_LIFECYCLE.IDENTITY_READY, 1 bit (R475); reset 0 -/
  identityReady : Bool := false
  /-- SEC_IDENTITY, 384 bits (R475); reset 0 -/
  fingerprint : Digest := 0
  /-- SEC_OWNER: OWNER_KEYS digest in BBRAM, 384 bits (R486); 0 in PROVISIONED -/
  ownerKeys : Digest := 0
  /-- the owner's password record in BBRAM: length and password (R486, R488); none in PROVISIONED -/
  password : Option (Nat × Nat) := none
  /-- the root secret in BBRAM, 256 bits (R474): this symbol stands for its value; here 1 (DESIGN CHOICE 11) -/
  rootSecret : Nat := 1
  /-- OTP anti-rollback counter: DBG_FW.COUNTER, 8 bits (R500); from OTP, here 0 (DESIGN CHOICE 11) -/
  otpSvn : Nat := 0
  /-- SEC_APPROVED.ENFORCE, 1 bit (R494); reset 0 -/
  enforce : Bool := false
  /-- SEC_TAMPER.CAUSE, 6 bits (R481); from OTP, here 0 (DESIGN CHOICE 11) -/
  tamperCause : Nat := 0
  /-- SEC_TAMPER.VBAT_MV, 12 bits (R496); measured, here 3,000 (DESIGN CHOICE 11) -/
  vbatMv : Nat := 3000
  /-- SEC_TAMPER.MESH_OK, 1 bit (R496); measured, here 1 (DESIGN CHOICE 11) -/
  meshOk : Bool := true
  /-- SEC_TAMPER.DARK, 1 bit (R496); measured, here 1 (DESIGN CHOICE 11) -/
  dark : Bool := true
  /-- SEC_TRNG.HEALTH_FAIL, 1 bit (R495); reset 0 -/
  healthFail : Bool := false
  /-- SEC_TRNG.RCT_FAILS, 8 bits, RC (R496); reset 0 -/
  rctFails : Nat := 0
  /-- SEC_TRNG.APT_FAILS, 8 bits, RC (R496); reset 0 -/
  aptFails : Nat := 0
  /-- SEC_TRNG.RESEEDS, 32 bits (R495); reset 0 -/
  reseeds : Nat := 0
  /-- generate requests of the device's DRBG since its last reseed (R495); reset 0 -/
  devDrawn : Nat := 0
  /-- SEC_CHALLENGE_CTL.VALID, 1 bit (R487); reset 0 -/
  chalValid : Bool := false
  /-- SEC_CHALLENGE, 256 bits (R487); reset 0 -/
  challenge : Nat := 0
  /-- the key register's entries 0 to 1,023: SEC_KEY_STATUS, SEC_KEY_INFO (R465); reset free -/
  keys : Tab Key := []
  /-- SEC_KEY_QUOTA.LIMIT by tenant, 10 bits (R496); reset 120 -/
  keyQuota : Tab Nat := []
  /-- SEC_KEY_SEL by tenant, 10 bits (R496); reset 0 -/
  keySel : Tab Nat := []
  /-- tenants 0 to 7: SEC_TENANT (R455, R496); reset ABSENT -/
  tenants : Tab Tenant := []
  /-- user calibration deltas as loaded, by ID, in 32-bit two's complement (R490); reset 0 -/
  calLoaded : Tab Nat := []
  /-- user calibration deltas in effect, clamped (R492); reset 0 -/
  calEffect : Tab Int := []
  /-- a load whose deltas take effect at the next turn boundary (R492); reset 0 -/
  calPending : Bool := false
  /-- SEC_CAL_SEL.ID, 16 bits (R496); reset 0x0001 -/
  calSel : Nat := 1
  /-- serial of the current assembly attestation, 64 bits (R479); reset 0 -/
  attSerial : Nat := 0
  /-- position at which the current assembly attestation was signed, 64 bits (R479); reset 0 -/
  attPos : Nat := 0
  deriving DecidableEq, Repr

/-! ### Power, firmware, Shavings, Calipers (R497 to R521) -/

/-- PWR_GRANT (R520). -/
structure Grant where
  duty : Nat := 8
  withheld : Nat := 0
  overrides : Nat := 0
  deriving DecidableEq, Repr

/-- PWR_RAIL (R520). -/
structure Rail where
  mv : Nat := 0
  current : Nat := 0
  valid : Bool := false
  alerts : Nat := 0
  deriving DecidableEq, Repr

/-- PWR block (R520) and the loops. -/
structure Pwr where
  /-- PWR_STATUS.RUNG in force, 5 bits (R503); reset 0 -/
  rung : Nat := 0
  /-- the loop's own rung, 5 bits (R504); reset 0 -/
  loopRung : Nat := 0
  /-- rung to be in force from the next frame (R504); reset none -/
  nextRung : Option Nat := none
  /-- PWR_STATUS.FLOOR, 5 bits (R508); reset 0 -/
  floor : Nat := 0
  /-- floor to be in force from the next frame boundary, 5 bits (R508); reset 0 -/
  nextFloor : Nat := 0
  /-- PWR_STATUS.FALLBACK, 1 bit (R501); reset 0 -/
  fallback : Bool := false
  /-- the fallback grants apply from the next turn boundary (R501); reset 0 -/
  fallbackDue : Bool := false
  /-- PWR_STATUS.HOT, 1 bit (R509); reset 0 -/
  hot : Bool := false
  /-- hot withholding starts at the next turn boundary (R509); reset 0 -/
  hotDue : Bool := false
  /-- PWR_STATUS.SETTLING, 1 bit (R504); reset 0 -/
  settling : Bool := false
  /-- PWR_STATUS.CALM, 3 bits (R504); reset 0 -/
  calm : Nat := 0
  /-- PWR_LIMIT.HOST_W, 11 bits (R506); reset 450 -/
  hostW : Nat := 450
  /-- PWR_LIMIT.SIDEBAND_W, 11 bits (R506); reset 0 -/
  sidebandW : Nat := 0
  /-- PWR_LIMIT.EFFECTIVE_W, 11 bits (R506); reset 450 -/
  effectiveW : Nat := 450
  /-- POWER_LIMIT_SET commands that wait for their power loop, oldest first (R506); reset none -/
  limitCmds : List Cmd := []
  /-- PWR_PACKAGE.LAST_DW, 16 bits (R520); reset 0 -/
  lastDw : Nat := 0
  /-- PWR_PACKAGE.PEAK_DW, 16 bits, RC (R520); reset 0 -/
  peakDw : Nat := 0
  /-- PWR_PACKAGE.LOOPS, 32 bits (R520); reset 0 -/
  loops : Nat := 0
  /-- PWR_TRIP.CURRENT, 16 bits, RC (R520); reset 0 -/
  tripCurrent : Nat := 0
  /-- PWR_TRIP.VR_ALERT, 16 bits, RC (R520); reset 0 -/
  tripAlert : Nat := 0
  /-- PWR_TRIP.HOT, 16 bits, RC (R520); reset 0 -/
  tripHot : Nat := 0
  /-- PWR_TRIP.LAST_CAUSE, 2 bits (R520); reset 0 -/
  lastCause : Nat := 0
  /-- PWR_TEMP.TEMP by sensor, 16 bits (R520); measured, here 0 (DESIGN CHOICE 11) -/
  temp : Tab Int := []
  /-- PWR_TEMP.MAX by sensor, 16 bits, RC (R520); measured, here 0 (DESIGN CHOICE 11) -/
  tempMax : Tab Int := []
  /-- PWR_RAIL by rail (R520); reset 0 -/
  rails : Tab Rail := []
  /-- PWR_GRANT by 8 t + c (R520); reset DUTY 8 -/
  grants : Tab Grant := []
  /-- consumers withheld in the current turn, by 8 t + class, as decided at its boundary (R89); reset none -/
  withheld : List Nat := []
  /-- bands in force by 8 t + class (R507, R520); reset 0 -/
  bands : Tab Nat := []
  /-- frame in which a fast current trip's freeze last began, plus 1 (R504); reset 0 -/
  tripFrame : Nat := 0
  /-- the warning temperature has been reached and not yet left by 2 °C (R508); reset 0 -/
  warned : Bool := false
  /-- position of the last thermal loop (R508); reset 0 -/
  lastThermal : Nat := 0
  /-- frame of the last power loop, plus 1 (R504); reset 0 -/
  lastLoop : Nat := 0
  /-- a higher VDD_CORE setpoint that a ratio rise waits for, mV (R551); reset none -/
  vddWait : Option Nat := none
  /-- VDD_CORE setpoint that VOUT_COMMAND last wrote, mV (R551); reset 0 (DESIGN CHOICE 11: none is written before firmware runs) -/
  vddSet : Nat := 0
  /-- VDD_CORE as last read, mV (R551); reset 0 -/
  vddMv : Nat := 0
  deriving DecidableEq, Repr

/-- Firmware states (DBG_FW.STATE). -/
inductive FwState where | loadWait | booting | running | stopped
  deriving DecidableEq, Repr

/-- The code of a firmware state (R521). -/
def FwState.code : FwState → Nat
  | .loadWait => 0 | .booting => 1 | .running => 2 | .stopped => 3

/-- The firmware (R497 to R501, R521). -/
structure Fw where
  /-- DBG_FW.STATE, 2 bits (R521); reset LOAD_WAIT -/
  state : FwState := .loadWait
  /-- DBG_FW.REASON, 3 bits (R521); reset 0 -/
  reason : Nat := 0
  /-- DBG_FW.STOP_CAUSE, 2 bits (R521); reset 0 -/
  stopCause : Nat := 0
  /-- DBG_FW.ATTEMPTS, 8 bits (R521); reset 0 -/
  attempts : Nat := 0
  /-- DBG_FW.LAST_STATUS, 8 bits (R521); reset 0 -/
  lastStatus : Status := .ok
  /-- DBG_FW.SVN, 8 bits (R521); reset 0 -/
  svn : Nat := 0
  /-- FW_CLASS of the running image, 16 bits (R498); reset 0 -/
  fwClass : Nat := 0
  /-- DBG_FW_MEASUREMENT, 384 bits (R521); reset 0 -/
  measurement : Digest := 0
  /-- the image that boots: its FW_LOAD, unless a WARM reset has discarded the command, its SVN, ADVANCE, and the position at which it
  passed (R24, R500); reset none -/
  loading : Option (Option Cmd × Nat × Bool × Nat) := none
  deriving DecidableEq, Repr

/-- Supervision of the host driver (R511 to R514, R521). -/
structure HostSup where
  /-- DBG_HOST.LOST, 1 bit (R521); reset 0 -/
  lost : Bool := false
  /-- DBG_HOST.LIMIT_PASSED, 1 bit (R521); reset 0 -/
  limitPassed : Bool := false
  /-- DBG_HOST.LINK_DOWN, 1 bit (R521); reset 0 -/
  linkDown : Bool := false
  /-- position at which the link went down without PERST#: HOST_LOST is due (R511); reset none -/
  downAt : Option Nat := none
  /-- supervision has begun (R511); reset 0 -/
  supervised : Bool := false
  /-- position of the last heartbeat write: DBG_HOST.SINCE_MS (R521); reset 0 -/
  lastBeat : Nat := 0
  /-- position at which HOST_LOST was entered (R513); reset 0 -/
  lostAt : Nat := 0
  /-- DBG_HOST.LOST_COUNT, 16 bits, RC (R521); reset 0 -/
  lostCount : Nat := 0
  /-- DBG_HOST.ATTACHES, 16 bits (R521); reset 0 -/
  attaches : Nat := 0
  /-- an ATTACH was accepted: HOST_LOST ends at the next turn boundary (R514); reset 0 -/
  ending : Bool := false
  deriving DecidableEq, Repr

/-- A Shavings entry (R515). -/
structure Shaving where
  cls : Nat
  underrun : Bool
  status : Nat
  source : Nat
  seq : Nat
  position : Nat
  /-- DETAIL as a little-endian number of 16 bytes -/
  detail : Nat
  deriving DecidableEq, Repr

/-- A Shavings queue (R515 to R517, R521). -/
structure ShvQueue where
  /-- oldest first, at most 4,096 -/
  entries : List Shaving := []
  emptyRead : Bool := false
  lost : Nat := 0
  accessErr : Nat := 0
  seq : Nat := 0
  latch : Option Shaving := none
  mask : Nat := 0xFFFFFFFF
  vector : Nat := 0
  threshold : Nat := 1
  deriving DecidableEq, Repr

/-- DBG block (R521). -/
structure Dbg where
  fw : Fw := {}
  host : HostSup := {}
  /-- Calipers closed by DBG_CALIPERS.CLOSE, 1 bit (R518); reset 0 -/
  calClosed : Bool := false
  /-- DBG_CALIPERS.RATE, 3 bits (R521); reset 0 -/
  calRate : Nat := 0
  /-- DBG_CALIPERS.LINES, 16 bits, RC (R521); reset 0 -/
  calLines : Nat := 0
  /-- DBG_CALIPERS.ERRORS, 16 bits, RC (R521); reset 0 -/
  calErrors : Nat := 0
  /-- Shavings queues 0 to 8: DBG_SHV_STATUS, _CONFIG, _POP, _DATA (R515, R521); reset empty -/
  shv : Tab ShvQueue := []
  deriving DecidableEq, Repr

/-! ### What leaves the engine, the pins and the whole state -/

/-- The Ethernet, IPv6 and UDP headers of a transmitted Etkai packet (R417, R433): MAC addresses, addresses, ports, next header, hop
limit, flow label and ECN. -/
structure EthHead where
  dstMac : Nat
  srcMac : Nat
  etherType : Nat := 0x86DD
  nextHeader : Nat := 17
  hopLimit : Nat := 64
  flowLabel : Nat := 0
  /-- 2 is ECT(0), which DATA packets carry -/
  ecn : Nat
  srcIpv6 : Nat
  dstIpv6 : Nat
  srcUdp : Nat
  dstUdp : Nat
  deriving DecidableEq, Repr

/-- What a step sends out of the engine. -/
inductive Out where
  /-- the value that a register read returns (R18) -/
  | regRead (offset value : Nat)
  /-- bytes written to host memory, at an address of a function (R391, R526) -/
  | hostWrite (fn addr : Nat) (data : List Byte)
  /-- bytes read by the host from the exchange window (R526) -/
  | exchRead (addr : Nat) (data : List Byte)
  /-- an Etkai packet, its header and payload; over Ethernet with the frame that carries it (R417, R426) -/
  | packet (frame : Option EthHead) (data : List Byte)
  /-- a transport ACK's header (R428) -/
  | ack (frame : Option EthHead) (data : List Byte)
  /-- a transport NAK's header (R428) -/
  | nak (frame : Option EthHead) (data : List Byte)
  /-- a fabric frame leaves a port: the 16 bytes of its header (R418, R420) -/
  | frame (port : Nat) (head : List Byte)
  /-- a frame of the slot-0 protocol (R47) -/
  | device (m : DeviceMsg)
  /-- a timing frame answered (R56) -/
  | timing (port pos : Nat)
  /-- a PTP delay request (R54) -/
  | ptpDelayReq (port : Nat)
  /-- this member is refused at assembly alignment and does not join (R33) -/
  | alignRefused (st : Status)
  /-- a fence frame (R451) -/
  | fence (port tenant round : Nat)
  /-- the 32 bytes of a client receipt, and where it goes (R254) -/
  | receipt (dest : Nat) (data : List Byte)
  /-- a packet of a client message forwarded to its handler: port, member, part and number of parts (R41) -/
  | forward (port member part parts : Nat) (m : ClientMsg)
  /-- a wrapped session key to a twin of a shard: port, member, round, client and wrapped key (R249) -/
  | wrapped (port member round client key : Nat)
  /-- the acknowledgement of a mirrored message (R258, R283) -/
  | mirrorAck (port round client chunk : Nat)
  /-- a frame of a mirrored message to the twin: port, member, its bytes, last frame (R258, R283) -/
  | mirror (port member : Nat) (data : List Byte) (last : Bool)
  /-- completeness bits of a shard for a cohort, to its home engine (R260) -/
  | completeness (port member round cohort : Nat) (complete : List Bool)
  /-- the sets of a cohort, from its home engine (R260) -/
  | sets (port member round : Nat) (x : HomeSets)
  /-- a frame of the seeds of a cohort, wrapped under the round wrapping key, or of its discard with a reason: port, member, round, cohort
  (R288) -/
  | seeds (port member round cohort reason : Nat) (data : List Byte) (last : Bool)
  /-- a frame of the digest list of a member's tiles, to its twin (R295) -/
  | digests (port member round : Nat) (data : List Byte) (last : Bool)
  /-- a neighbour advertisement or an echo reply (R416) -/
  | icmp (port dest target : Nat) (data : List Byte)
  /-- an identity record and its two signatures over the transcript (R480) -/
  | linkKey (port : Nat)
  /-- a committee request (R366): REQUEST_ID, KIND, TENANT, LEVEL, FINGERPRINT, ROUND, COHORT, CLIENT, REPLY_LEVEL and the payload's
  residues -/
  | exitReq (id kind tenant level fingerprint round cohort client replyLevel : Nat) (payload : List Nat)
  /-- a robust round's verdict mirrored to the twin (R370) -/
  | verdict (round client bit : Nat)
  /-- a signed statement written for the host or kept for it: magic, serial -/
  | statement (magic serial : Nat) (fields : List Nat)
  /-- an SPDM response (R523) -/
  | spdm (request : Nat) (fields : List Nat)
  /-- a Calipers answer (R519): 0 OK, 1 SYNTAX, 2 STATE, 3 RANGE, 4 ACCESS, 5 CLOSED, with its fields -/
  | uart (answer : Nat) (fields : List Nat)
  /-- an SMBus answer (R558) -/
  | smbus (value : Nat)
  /-- a value shifted out by JTAG (R559); none where the operation is refused -/
  | jtag (value : Option Nat)
  /-- an endpoint completion (R444): endpoint, STATUS, completion flags, TAG and KIND -/
  | epDone (ep : Nat) (st : Status) (flags tag kind : Nat)
  /-- a SCHEDULED frame that lands data of a PUSH or BCAST: port, destination member, region key, offset, format, data, last (R449) -/
  | pushFrame (port member regionKey offset format : Nat) (data : List Byte) (last : Bool)
  /-- a destination's verdict on a PUSH or BCAST (R450): member, region key -/
  | pushVerdict (member regionKey : Nat) (st : Status)
  /-- a fabric frame sent onward: arriving port, outgoing port, final destination (R424) -/
  | onward (port member : Nat)
  deriving DecidableEq, Repr

/-- A frame or packet that waits for its port: for a slot of its owner and class, for budget, or for the port (R64, R70, R422, R424). -/
structure PortFrame where
  port : Nat
  /-- the tenant whose slots and link budget it takes -/
  owner : Nat
  /-- class SCHEDULED rather than TRANSPORT -/
  sched : Bool
  /-- charged bytes -/
  len : Nat
  /-- the member to which its route leads, for a SCHEDULED frame -/
  dest : Option Nat
  out : Out
  deriving DecidableEq, Repr

/-- The engine. -/
structure State where
  /-- frames and packets that wait for their ports, oldest first (R64, R424); reset none -/
  waiting : List PortFrame := []
  /-- frames that wait for slot 0 of the fabric-role ports, oldest first (R67); reset none -/
  slot0 : List Out := []
  hif : Hif := {}
  spn : Spn := {}
  jig : Jig := {}
  /-- cells 0 to 63 -/
  cells : Tab Cell := []
  /-- programs started and not ended -/
  progs : List ProgRun := []
  /-- program loads that move their image (R199); reset none -/
  loads : List LoadJob := []
  agg : Agg := {}
  ring : Ring := {}
  mem : Mem := {}
  /-- contents of HBM, DDR5 and the exchange window, by tier · 2^64 + device physical address; unlisted 0 -/
  ram : List Host.Cell := []
  fab : Fab := {}
  sec : Sec := {}
  pwr : Pwr := {}
  dbg : Dbg := {}
  /-- PERST# is asserted, or the rails have not come up since a brown-out (R552, R554), 1 bit; asserted at power-on -/
  perst : Bool := true
  /-- a COLD reset is due (R540), 1 bit; reset 0 -/
  coldDue : Bool := false
  /-- boundary at which a requested WARM reset takes effect (R540); reset none -/
  warmAt : Option Nat := none
  /-- what has left the engine, newest first -/
  out : List Out := []
  /-- the model's own: how many free values have been drawn (DESIGN CHOICE 3); no statement rests on it -/
  freeCtr : Nat := 0
  /-- the model's own: the commands that wait, first in, first out -/
  pending : List Instr := []
  deriving DecidableEq, Repr

/-- The engine right after a POWER-ON reset: every field at its default. -/
def State.reset : State := {}

end Sys2Proof.Machine
end

