-- ==== Sys2Proof/Machine/Ops.lean ====
section
/-! DEFINITION. Machine/Ops.lean: the named operations over the state that the meanings share: reading and writing its
tables, the time base, what the committed jig gives, events and completions, the key register, and memory. -/

namespace Sys2Proof.Machine

/-! ### Tables of the state -/

/-- Cell `c`. -/
def State.cell (s : State) (c : Nat) : Cell := Tab.look {} s.cells c
/-- Replace cell `c`. -/
def State.setCell (s : State) (c : Nat) (v : Cell) : State := { s with cells := Tab.put {} s.cells c v }
/-- Change cell `c`. -/
def State.updCell (s : State) (c : Nat) (f : Cell → Cell) : State := s.setCell c (f (s.cell c))
/-- Round handle `h`. -/
def State.round (s : State) (h : Nat) : Round := Tab.look {} s.agg.rounds h
/-- Replace the round of handle `h`. -/
def State.setRound (s : State) (h : Nat) (r : Round) : State :=
  { s with agg := { s.agg with rounds := Tab.put {} s.agg.rounds h r } }
/-- Change the round of handle `h`. -/
def State.updRound (s : State) (h : Nat) (f : Round → Round) : State := s.setRound h (f (s.round h))
/-- Binding element `e`. -/
def State.bind (s : State) (e : Nat) : Bind := Tab.look {} s.agg.binds e
/-- Replace binding element `e`. -/
def State.setBind (s : State) (e : Nat) (b : Bind) : State :=
  { s with agg := { s.agg with binds := Tab.put {} s.agg.binds e b } }
/-- Tenant `t`. -/
def State.tenant (s : State) (t : Nat) : Tenant := Tab.look {} s.sec.tenants t
/-- Replace tenant `t`. -/
def State.setTenant (s : State) (t : Nat) (v : Tenant) : State :=
  { s with sec := { s.sec with tenants := Tab.put {} s.sec.tenants t v } }
/-- Change tenant `t`. -/
def State.updTenant (s : State) (t : Nat) (f : Tenant → Tenant) : State := s.setTenant t (f (s.tenant t))
/-- Key-register entry `i` (R465). -/
def State.key (s : State) (i : Nat) : Key := Tab.look {} s.sec.keys i
/-- Write key-register entry `i`. -/
def State.setKey (s : State) (i : Nat) (k : Key) : State :=
  { s with sec := { s.sec with keys := Tab.put {} s.sec.keys i k } }
/-- Queue pair `q` of function `f` (R528). -/
def State.queue (s : State) (f q : Nat) : QPair := Tab.look {} s.hif.queues (16 * f + q)
/-- Replace queue pair `q` of function `f`. -/
def State.setQueue (s : State) (f q : Nat) (v : QPair) : State :=
  { s with hif := { s.hif with queues := Tab.put {} s.hif.queues (16 * f + q) v } }
/-- Shavings queue `q` (R515). -/
def State.shv (s : State) (q : Nat) : ShvQueue := Tab.look {} s.dbg.shv q
/-- Replace Shavings queue `q`. -/
def State.setShv (s : State) (q : Nat) (v : ShvQueue) : State :=
  { s with dbg := { s.dbg with shv := Tab.put {} s.dbg.shv q v } }
/-- Port `p` (R453). -/
def State.port (s : State) (p : Nat) : Port := Tab.look {} s.fab.ports p
/-- Replace port `p`. -/
def State.setPort (s : State) (p : Nat) (v : Port) : State :=
  { s with fab := { s.fab with ports := Tab.put {} s.fab.ports p v } }
/-- Endpoint `e` (R442). -/
def State.ep (s : State) (e : Nat) : Endpoint := Tab.look {} s.fab.eps e
/-- Replace endpoint `e`. -/
def State.setEp (s : State) (e : Nat) (v : Endpoint) : State :=
  { s with fab := { s.fab with eps := Tab.put {} s.fab.eps e v } }
/-- FAB_TENANT of tenant `t`. -/
def State.fabTenant (s : State) (t : Nat) : FabTenant := Tab.look {} s.fab.tenants t
/-- Replace FAB_TENANT of tenant `t`. -/
def State.setFabTenant (s : State) (t : Nat) (v : FabTenant) : State :=
  { s with fab := { s.fab with tenants := Tab.put {} s.fab.tenants t v } }
/-- MEM_MAP registers of tenant `t` (R384). -/
def State.mapRegs (s : State) (t : Nat) : MapRegs := Tab.look {} s.mem.maps t
/-- Replace the MEM_MAP registers of tenant `t`. -/
def State.setMapRegs (s : State) (t : Nat) (m : MapRegs) : State :=
  { s with mem := { s.mem with maps := Tab.put {} s.mem.maps t m } }
/-- MEM_KEY of tenant `t`'s tier `i` (0 HBM, 1 DDR). -/
def State.tierKey (s : State) (t i : Nat) : TierKey := Tab.look {} s.mem.keys (2 * t + i)
/-- Replace MEM_KEY of tenant `t`'s tier `i`. -/
def State.setTierKey (s : State) (t i : Nat) (k : TierKey) : State :=
  { s with mem := { s.mem with keys := Tab.put {} s.mem.keys (2 * t + i) k } }
/-- Descriptors of tenant `t` on DMA engine `d`, oldest first. -/
def State.work (s : State) (t d : Nat) : List DmaWork := Tab.look [] s.mem.work (32 * t + d)
/-- Replace the descriptors of tenant `t` on DMA engine `d`. -/
def State.setWork (s : State) (t d : Nat) (w : List DmaWork) : State :=
  { s with mem := { s.mem with work := Tab.put [] s.mem.work (32 * t + d) w } }
/-- The fault park of tenant `t` on DMA engine `d` (R395). -/
def State.parkedAt (s : State) (t d : Nat) : Parked := Tab.look {} s.mem.parked (32 * t + d)
/-- Replace the fault park of tenant `t` on DMA engine `d`. -/
def State.setParked (s : State) (t d : Nat) (p : Parked) : State :=
  { s with mem := { s.mem with parked := Tab.put {} s.mem.parked (32 * t + d) p } }
/-- MEM_DMA of engine `d`. -/
def State.engine (s : State) (d : Nat) : DmaEng := Tab.look {} s.mem.engines d
/-- Replace MEM_DMA of engine `d`. -/
def State.setEngine (s : State) (d : Nat) (e : DmaEng) : State :=
  { s with mem := { s.mem with engines := Tab.put {} s.mem.engines d e } }
/-- PWR_GRANT of tenant `t` on class `c`. -/
def State.grant (s : State) (t c : Nat) : Grant := Tab.look {} s.pwr.grants (8 * t + c)
/-- Replace PWR_GRANT of tenant `t` on class `c`. -/
def State.setGrant (s : State) (t c : Nat) (g : Grant) : State :=
  { s with pwr := { s.pwr with grants := Tab.put {} s.pwr.grants (8 * t + c) g } }

/-- Something leaves the engine. -/
def State.emit (s : State) (o : Out) : State := { s with out := o :: s.out }

/-- Draw the next free value. -/
def State.draw (s : State) : Nat × State :=
  (Config.freeNat s.freeCtr, { s with freeCtr := s.freeCtr + 1 })

/-- Fold a state change over a list. -/
def State.each {α : Type} (s : State) (l : List α) (f : State → α → State) : State := l.foldl f s

/-- The first failing check of a list in order, each a failing condition and its status. -/
def firstFail : List (Bool × Status) → Option Status
  | [] => none
  | (b, st) :: r => if b then some st else firstFail r

/-! ### Positions, turns and slots (R50, R60) -/

/-- The Spindle position. -/
def State.pos (s : State) : Nat := s.spn.pos
/-- Ticks in a turn. -/
def State.turnTicks (s : State) : Nat := 2 ^ s.spn.k
/-- The turn number of a position. -/
def State.turnOf (s : State) (p : Nat) : Nat := p / 2 ^ s.spn.k
/-- The current turn. -/
def State.turn (s : State) : Nat := s.turnOf s.pos
/-- The slot index of a position. -/
def State.slotOf (s : State) (p : Nat) : Nat := p / 2 ^ (s.spn.k - 6) % 64
/-- A frame goes out in slot 0: at once in that slot, otherwise when it comes (R47, R67, R113). -/
def State.sendSlot0 (s : State) (o : Out) : State :=
  if s.slotOf s.pos = 0 then s.emit o else { s with slot0 := s.slot0 ++ [o] }

/-- A DEVICE frame to the other members (R67). -/
def State.sendDevice (s : State) (m : DeviceMsg) : State := s.sendSlot0 (.device m)

/-- The first turn boundary strictly after a position (R565). -/
def State.boundaryAfter (s : State) (p : Nat) : Nat := (p / 2 ^ s.spn.k + 1) * 2 ^ s.spn.k
/-- The first turn boundary at or after a position. -/
def State.boundaryFrom (s : State) (p : Nat) : Nat := (p + 2 ^ s.spn.k - 1) / 2 ^ s.spn.k * 2 ^ s.spn.k
/-- The engine is frozen (R90). -/
def State.frozen (s : State) : Bool := s.spn.frozenAt.isSome
/-- The position counter runs (R81): from the qualification of SPIN_CLK until it is lost or the engine is reset; an engine that
takes its tick elsewhere, or holds over, goes on (R51, R57, R59). -/
def State.counting (s : State) : Bool :=
  (s.spn.clk || s.spn.source != .ball) && !s.perst && (match s.spn.align with | .inReset => false | .qualifying => false | _ => true)
/-- The work clocks stand still while a position is adopted: from the adoption to the end of the alignment sequence, or for good
after ALIGN_FAIL (R82, R83). -/
def State.realigning (s : State) : Bool :=
  match s.spn.align with | .locking => true | .released _ => true | .failed => true | _ => false
/-- An event placed at position `p` is due: the position has come, the clocks are not frozen, and every turn boundary up to `p` has
been handled, so that what passed runs in order of position (R91, R115). -/
def State.due (s : State) (p : Nat) : Bool :=
  decide (p ≤ s.pos) && !s.frozen && decide (p < s.spn.lastBoundary + 2 ^ s.spn.k)

/-! ### What the committed jig gives (R99, R124, R125) -/

/-- Members of the assembly, E. -/
def State.bigE (s : State) : Nat := s.jig.cfg.assembly.members.length
/-- The member's PARTITION record. -/
def State.part (s : State) : JigPartition := s.jig.cfg.partition.getD s.jig.me {}
/-- Owner of cell `c`: a tenant, or 8. -/
def State.cellTenant (s : State) (c : Nat) : Nat := if s.jig.loaded then s.part.cellTenant.getD c 8 else 8
/-- Group of cell `c`: 0 to 63, or 0xFF. -/
def State.cellGroup (s : State) (c : Nat) : Nat := if s.jig.loaded then s.part.cellGroup.getD c 0xFF else 0xFF
/-- Cells of group `g` in rank order (R195). -/
def State.groupCells (s : State) (g : Nat) : List Nat :=
  (List.range 64).filter (fun c => s.cellGroup c == g && decide (g < 64) && decide (s.cellTenant c < 8))
/-- Owner of cell group `g`: a tenant, or 8 where the group does not exist. -/
def State.groupOwner (s : State) (g : Nat) : Nat := match s.groupCells g with | c :: _ => s.cellTenant c | [] => 8
/-- Rank of a cell in its group (R195). -/
def State.rank (s : State) (c : Nat) : Nat := (s.groupCells (s.cellGroup c)).idxOf c
/-- Cell group that DMA engine `d` feeds, or 0xFF. -/
def State.dmaFeeds (s : State) (d : Nat) : Nat := if s.jig.loaded then s.part.dmaGroup.getD d 0xFF else 0xFF
/-- The slot table of an instance of a class (R62); one not listed is all IDLE. -/
def State.slotTable (s : State) (c : ResClass) (i : Nat) : SlotTable :=
  if s.jig.loaded then Tab.look (List.replicate 64 8) (s.jig.cfg.slots.getD s.jig.me []) (slotKey c i)
  else List.replicate 64 8
/-- The entry of slot `n` (R63). -/
def State.slotEntry (s : State) (c : ResClass) (i n : Nat) : Nat := (s.slotTable c i).getD n 8
/-- Owner code of slot `n`. -/
def State.slotOwner (s : State) (c : ResClass) (i n : Nat) : Nat := s.slotEntry c i n % 16
/-- A consumer owns some slot of the instance (R71). -/
def State.ownsSlot (s : State) (c : ResClass) (i who : Nat) : Bool := (s.slotTable c i).any (fun e => e % 16 == who)
/-- The current slot of the instance belongs to a consumer (R64). -/
def State.inSlot (s : State) (c : ResClass) (i who : Nat) : Bool := s.slotOwner c i (s.slotOf s.pos) == who
/-- Ticks of the current turn from position `p` on in which the instance belongs to a consumer without a break, looking at `fuel` slots
(R65). -/
def State.runTicks (s : State) (c : ResClass) (i who : Nat) : Nat → Nat → Nat
  | 0, _ => 0
  | fuel + 1, p =>
    let slot := 2 ^ (s.spn.k - 6)
    if s.slotOwner c i (s.slotOf p) == who then
      let stop := (p / slot + 1) * slot
      (stop - p) + (if s.slotOf stop = 0 then 0 else s.runTicks c i who fuel stop)
    else 0
/-- Work cycles left in the current run of slots that a consumer owns, at the current ratio (R65). -/
def State.runCycles (s : State) (c : ResClass) (i who : Nat) : Nat := s.runTicks c i who 64 s.pos * s.spn.ratio
/-- Some DMA engine has a slot of DEVICE: where one, the engines (R386). -/
def State.deviceEngines (s : State) : List Nat := (List.range 32).filter (fun d => s.ownsSlot .dma d 0xA)
/-- The coordinator's assembly index: the standby's once it has taken over (R58). -/
def State.coordinator (s : State) : Nat :=
  if s.spn.standbyTree then s.jig.cfg.assembly.standby else s.jig.cfg.assembly.coordinator
/-- This member is the coordinator. -/
def State.isCoord (s : State) : Bool := s.jig.me == s.coordinator
/-- The committed scrub mode: 0 EXTERNAL, 1 FIRMWARE (R412). -/
def State.scrubMode (s : State) : Nat := if s.jig.loaded then s.jig.cfg.scrub else 0
/-- POLICY of tenant `t` (R300). -/
def State.policy (s : State) (t : Nat) : JigPolicy := s.jig.cfg.policy.getD t {}
/-- The active route set. -/
def State.routeSet (s : State) : JigRouteSet :=
  match s.jig.cfg.routeSets.find? (fun p => p.1 == s.jig.active) with | some p => p.2 | none => {}
/-- The turn `n` is granted at duty `d` (R502). -/
def dutyGrants (d n : Nat) : Bool :=
  match d with
  | 8 => true
  | 4 => n % 8 % 2 == 1
  | 2 => n % 8 == 3 || n % 8 == 7
  | 1 => n % 8 == 7
  | _ => false
/-- PATTERN of a duty (R502). -/
def dutyPattern (d : Nat) : Nat :=
  match d with | 8 => 0xFF | 4 => 0xAA | 2 => 0x88 | 1 => 0x80 | _ => 0
/-- Turn `tn` holds an armed barrier's start of the tenant (R86, R505). -/
def State.barrierTurn (s : State) (t tn : Nat) : Bool := s.spn.barriers.any (fun b => b.tenant == t && s.turnOf (b.pos + 2) == tn)
/-- Turn `tn` lies in the deadline window of a round of the tenant: from P_DEADLINE for sixteen turns, for the port and ingest
classes (R259, R505). -/
def State.windowTurn (s : State) (t tn : Nat) (c : ResClass) : Bool :=
  (c == .port || c == .ingest) && s.agg.rounds.any (fun hr =>
    hr.2.tenant == t && (match hr.2.state with | .free => false | .aborted => false | .released => false | _ => true) &&
    decide (s.turnOf hr.2.pDeadline ≤ tn) && decide (tn < s.turnOf (hr.2.pDeadline + 2 ^ (s.spn.k + 4))))
/-- The class's activity of the tenant is not withheld in turn `tn` (R89, R505); a hot package withholds at duty 0 (R509), but never a turn
of an armed barrier's start or of a deadline window (R86, R259; DEDUCED: notes/assumptions/29.md). -/
def State.grantedAt (s : State) (t : Nat) (c : ResClass) (tn : Nat) : Bool :=
  s.barrierTurn t tn || s.windowTurn t tn c || (!s.pwr.hot && dutyGrants (s.grant t c.index).duty tn)
/-- The classes of PWR_GRANT in its order (R520). -/
def grantClasses : List ResClass := [.cellGroup, .meshRoute, .dma, .maskExpander, .ingest, .ring, .port]
/-- The consumers withheld in turn `tn`, by 8 t + class (R89). -/
def State.withheldIn (s : State) (tn : Nat) : List Nat :=
  (List.range 8).flatMap (fun t => (grantClasses.filter (fun c => !s.grantedAt t c tn)).map (fun c => 8 * t + c.index))
/-- The class's activity of the tenant is not withheld in the current turn, as decided at its boundary (R89). -/
def State.granted (s : State) (t : Nat) (c : ResClass) : Bool := !s.pwr.withheld.contains (8 * t + c.index)
/-- Tenant `t` issues work: it is RUNNING, or its removal has not reached its boundary, and issue is not stopped or frozen
(R46, R90, R455, R461). -/
def State.issuing (s : State) (t : Nat) : Bool :=
  ((s.tenant t).state == .running ||
    (match (s.tenant t).removal with | some r => r.ran && !r.begun | none => false)) && !s.spn.stopped && !s.frozen &&
  !s.realigning
/-- Tenant `t` may issue on the instance in the current slot (R64, R89). -/
def State.mayIssue (s : State) (t : Nat) (c : ResClass) (i : Nat) : Bool :=
  s.issuing t && s.granted t c && s.inSlot c i t

/-! ### Refresh windows (R68) -/

/-- The slot at which the REFRESH run that holds slot `n` begins: REFRESH is owner code 9. -/
def runStart (tab : SlotTable) : Nat → Nat
  | 0 => 0
  | n + 1 => if tab.getD n 8 % 16 = 9 then runStart tab n else n + 1

/-- The slots of the REFRESH run from slot `n` on. -/
def runLength (tab : SlotTable) : Nat → Nat → Nat
  | 0, _ => 0
  | fuel + 1, n => if n < 64 ∧ tab.getD n 8 % 16 = 9 then runLength tab fuel (n + 1) + 1 else 0

/-- The start of the refresh window that holds position `p`, if one does (R68): 64 ticks at the start of a run and, for k of 15
or 16, every 512 ticks after it while 64 ticks of the run remain. -/
def State.refreshAt (s : State) (tab : SlotTable) (p : Nat) : Option Nat :=
  let slot := 2 ^ (s.spn.k - 6)
  let n := s.slotOf p
  if tab.getD n 8 % 16 != 9 then none
  else
    let a := runStart tab n
    let start := p / 2 ^ s.spn.k * 2 ^ s.spn.k + a * slot
    let len := runLength tab 64 a * slot
    let off := p - start
    let w := if 15 ≤ s.spn.k then off / 512 * 512 else 0
    if off < w + 64 ∧ w + 64 ≤ len then some (start + w) else none

/-- A refresh window of a memory unit covers the current position (R68): units 0 to 7 are the HBM stacks, 8 to 19 the DDR channels. -/
def State.inWindowNow (s : State) (u : Nat) : Bool :=
  (s.refreshAt (if u < 8 then s.slotTable .hbmRefresh u else s.slotTable .ddrRefresh (u - 8)) s.pos).isSome

/-! ### The jig's digests (R97, R103, R111) -/

/-- Change the JIG block. -/
def State.updJig (s : State) (f : Jig → Jig) : State := { s with jig := f s.jig }

/-- What assembly alignment leaves in the JIG block: whether it is still due, and LAST_STATUS (R33, R106). -/
def State.updJigAlign (s : State) (alignDue : Bool) (lastStatus : Status) : State :=
  s.updJig fun j => { j with alignDue := alignDue, lastStatus := lastStatus }

/-- The composition hash of an ASSEMBLY section's value (R97, R103). -/
def compositionHash (a : JigAssembly) : Digest := Config.digest "composition" a

/-- The jig measurement (R103): the digest of the canonical image. -/
def jigMeasurement (h : JigHeader) (serial : Nat) (c : JigConfig) : Digest :=
  Config.digest "jig" (h.flags, h.stepping, h.fwClass, h.ownerKeys, serial, compositionHash c.assembly, { c with live := none })

/-- The shadow digest (R111): as the measurement, with the serial taken as 0. -/
def State.digestOfShadow (s : State) : Digest := jigMeasurement s.jig.header 0 s.jig.shadow

/-! ### Interrupts, Shavings and completions (R515, R516, R536, R539) -/

/-- An interrupt on a vector: held in HOST_LOST, fired when unmasked, otherwise noted in the PBA (R512, R539). -/
def State.interrupt (s : State) (f v : Nat) : State :=
  if s.dbg.host.lost then { s with hif := { s.hif with heldIrqs := s.hif.heldIrqs ++ [(f, v)] } }
  else if Tab.look false s.hif.unmasked (64 * f + v) then { s with hif := { s.hif with irqs := (f, v) :: s.hif.irqs } }
  else { s with hif := { s.hif with pba := Tab.put false s.hif.pba (64 * f + v) true } }

/-- The class mask of Shavings queue `q`: DEVICE_MASK for queue 0 (R515, R517). -/
def State.shvMask (s : State) (q : Nat) : Nat := if q = 0 then s.jig.live.deviceMask else (s.shv q).mask

/-- Most entries a Shavings queue holds (R515). -/
def shvDepth : Nat := 4096

/-- Enter an event among the newest entries, newest first: before those of its own position and a higher class, SEQ rising all the same
(R515). -/
def placeEvent (e : Shaving) : List Shaving → List Shaving
  | [] => [e]
  | x :: r =>
    if x.position = e.position ∧ e.cls < x.cls then { x with seq := e.seq } :: placeEvent { e with seq := x.seq } r else e :: x :: r

/-- A queue with an event entered: events of one position in ascending class; the oldest entry is overwritten where the queue is full
(R515, R516). -/
def ShvQueue.enter (q : ShvQueue) (e : Shaving) : ShvQueue :=
  if q.entries.length < shvDepth then { q with entries := (placeEvent e q.entries.reverse).reverse, seq := wrapAdd 32 q.seq 1 }
  else { q with entries := (placeEvent e (q.entries.drop 1).reverse).reverse, seq := wrapAdd 32 q.seq 1, lost := satAdd 16 q.lost 1 }

/-- Raise an event of class `cls` in queue `q` where its mask takes it; the queue's interrupt fires when COUNT rises to
the threshold (R515 to R517). -/
def State.event (s : State) (q cls status source detail : Nat) : State :=
  if bitAt (s.shvMask q) cls then
    let x := s.shv q
    let y := x.enter { cls := cls, underrun := false, status := status, source := source, seq := x.seq,
                       position := s.pos, detail := detail }
    let s := s.setShv q y
    if x.entries.length < y.entries.length && y.entries.length == y.threshold then s.interrupt (q - 1) y.vector else s
  else s

/-- A DISCARDED event for a register write: in the queue of the function that wrote (R515, R516). -/
def State.discarded (s : State) (fn offset value : Nat) : State :=
  s.event (if fn = 0 then 0 else fn + 1) 1 0 (if fn = 0 then 0xA else fn) (offset + value * 2 ^ 64)

/-- A TENANT event for a change of state (class 13), in the device queue. -/
def State.tenantEvent (s : State) (t : Nat) : State := s.event 0 13 0 0xA (t + (s.tenant t).state.code * 256)

/-- Set a tenant's state and raise its event (R515). -/
def State.setTenantState (s : State) (t : Nat) (st : TenantState) : State :=
  (s.updTenant t (fun x => { x with state := st })).tenantEvent t

/-- A ROUND event (class 4) in the tenant's queue (R243, R512). -/
def State.roundEvent (s : State) (h : Nat) : State :=
  let r := s.round h
  s.event (r.tenant + 1) 4 0 r.tenant (h + r.state.code * 2 ^ 8 + r.number % 2 ^ 48 * 2 ^ 16)

/-- A HOST event (class 11) in the device queue. -/
def State.hostEvent (s : State) (what : Nat) : State := s.event 0 11 0 0xA what

/-- Entries of a completion queue, of a submission queue. -/
def QPair.cqEntries (q : QPair) : Nat := 2 ^ q.cqLog
/-- Entries of a submission queue. -/
def QPair.sqEntries (q : QPair) : Nat := 2 ^ q.sqLog

/-- The 32 bytes of a completion (R536). -/
def Completion.bytes (k : Completion) : List Byte :=
  leBytes 2 k.cid ++ leBytes 1 k.status.code ++ leBytes 1 k.flags ++ leBytes 1 k.qp ++ leBytes 1 0 ++ leBytes 2 k.sqHead ++
  leBytes 8 k.result0 ++ leBytes 8 k.result1 ++ leBytes 7 0 ++ leBytes 1 (b2n k.phase)

/-- Write a completion to its queue: the entry at the tail, the phase of this pass, and the interrupt where the head as
last written equals the tail before (R530, R536, R539). -/
def State.post (s : State) (k : Completion) : State :=
  let q := s.queue k.fn k.qp
  let tail' := (q.cqTail + 1) % q.cqEntries
  let q' := { q with cqTail := tail', phase := if tail' = 0 then !q.phase else q.phase,
                     inflight := q.inflight - b2n k.own, draining := q.draining && decide (b2n k.own < q.inflight) }
  let k := { k with index := q.cqTail, phase := q.phase }
  let s := { s.setQueue k.fn k.qp q' with
             hif := { (s.setQueue k.fn k.qp q').hif with
                      posted := { k with entry := k.bytes } :: s.hif.posted } }
  if q.ien && q.cqHead == q.cqTail then s.interrupt k.fn q.vector else s

/-- Completion flag VARIED (R538). -/
def flagVaried : Nat := 1
/-- Completion flag RESCALED. -/
def flagRescaled : Nat := 4
/-- Completion flag INPLACE. -/
def flagInplace : Nat := 8

/-! ### Pages, as far as a completion needs them (R381, R382) -/

/-- The key of a leaf entry: tenant and 64 KiB page number. -/
def pageKey (t va : Nat) : Nat := t * 2 ^ 33 + va / 65536

/-- The leaf entry that maps a virtual address, or an entry of tier 0 (R381). -/
def State.page (s : State) (t va : Nat) : Page :=
  let p := Tab.look {} s.mem.pages (pageKey t va)
  if p.tier != 0 && !p.large then p
  else
    let q := Tab.look {} s.mem.pages (pageKey t (va / 2 ^ 21 * 2 ^ 21))
    if q.tier != 0 && q.large then q else {}

/-- The 64 KiB pages that a range touches, by virtual address. -/
def pagesOf (va n : Nat) : List Nat :=
  if n = 0 then [] else (List.range ((va + n - 1) / 65536 - va / 65536 + 1)).map (fun i => (va / 65536 + i) * 65536)

/-- Every page of a range satisfies a condition. -/
def State.allPages (s : State) (t va n : Nat) (p : Page → Bool) : Bool := (pagesOf va n).all (fun a => p (s.page t a))

/-- Some page of a range lies in the HOST tier, so that its contents come from the host (R73, R76). -/
def State.onHost (s : State) (t va n : Nat) : Bool := !s.allPages t va n (fun p => p.tier != 3)

/-- The tenant a command acts for (R568): its VF's, or the one the host driver names. -/
def cmdActs (c : Cmd) : Nat := if c.fn.val = 0 then c.tenant else c.fn.val

/-- The flags of a completion: VARIED also where the command's block lies in the HOST tier, whose accesses are VARIABLE (R73, R76). -/
def State.cmdFlags (s : State) (c : Cmd) (st : Status) (flags : Nat) : Nat :=
  if st = .ok ∧ c.len ≠ 0 ∧ s.onHost (cmdActs c) c.addr c.len = true then Nat.lor flags flagVaried else flags

/-! ### Completions (R530, R536, R538) -/

/-- End a command: its completion is posted, held in HOST_LOST (R512), or discarded where an FLR said so (R541). -/
def State.complete (s : State) (c : Cmd) (st : Status) (r0 r1 flags : Nat) : State :=
  let mine := fun (x : Nat × Nat × Nat × Nat) => x.1 == c.fn.val && x.2.1 == c.qp.val && x.2.2.1 == c.cid
  let hit := s.hif.fetched.find? mine
  let head := match hit with
    | some x => x.2.2.2
    | none => (s.queue c.fn.val c.qp.val).sqHead
  let s := { s with hif := { s.hif with fetched := s.hif.fetched.eraseP mine } }
  if s.hif.discard.contains (16 * c.fn.val + c.qp.val, c.cid) then
    { s with hif := { s.hif with discard := s.hif.discard.erase (16 * c.fn.val + c.qp.val, c.cid) } }
  else
    let k : Completion := { fn := c.fn.val, qp := c.qp.val, cid := c.cid, status := st, flags := s.cmdFlags c st flags, sqHead := head,
                            result0 := r0 % 2 ^ 64, result1 := r1 % 2 ^ 64, index := 0, phase := false, own := hit.isSome }
    if s.dbg.host.lost then { s with hif := { s.hif with held := s.hif.held ++ [k] } } else s.post k

/-- Refuse a command with a status: no other change (R8). -/
def State.fail (s : State) (c : Cmd) (st : Status) : State := s.complete c st 0 0 0
/-- Complete a command with OK. -/
def State.ok (s : State) (c : Cmd) : State := s.complete c .ok 0 0 0

/-! ### Host commands (R531 to R535, R568) -/

/-- All 64 bits of an ARG. -/
def full64 : Nat := 2 ^ 64 - 1

/-- R533, row by row: reserved to PF0, acts for the engine (R568), and the ARG bits in use. -/
def cmdInfo (op : Nat) : Option (Bool × Bool × List Nat) :=
  match op with
  | 0x01 => some (true, true, [])
  | 0x02 => some (true, true, [])
  | 0x03 => some (true, true, [full64, full64, 1])
  | 0x08 => some (true, true, [])
  | 0x10 => some (true, false, [])
  | 0x11 => some (true, false, [])
  | 0x12 => some (true, false, [full64])
  | 0x20 => some (false, false, [])
  | 0x21 => some (false, false, [full64])
  | 0x22 => some (false, false, [full64])
  | 0x28 => some (false, false, [])
  | 0x29 => some (false, false, [full64])
  | 0x2A => some (false, false, [full64])
  | 0x30 => some (false, false, [full64])
  | 0x40 => some (false, false, [full64])
  | 0x41 => some (false, false, [0xFFFFFFFF, full64, full64, full64, full64])
  | 0x42 => some (false, false, [full64])
  | 0x50 => some (false, false, [0x03FFFFFFFFFFFFFF, full64, full64])
  | 0x51 => some (false, false, [full64, full64])
  | 0x52 => some (false, false, [full64])
  | 0x53 => some (false, false, [full64])
  | 0x54 => some (false, false, [full64])
  | 0x55 => some (false, false, [full64])
  | 0x60 => some (false, false, [0x0F1FFFFF])
  | 0x61 => some (false, false, [0x0F1FFFFF])
  | 0x62 => some (false, false, [full64])
  | 0x63 => some (false, false, [full64, full64, full64, full64, full64])
  | 0x64 => some (false, false, [full64])
  | 0x70 => some (false, false, [full64, full64])
  | 0x71 => some (false, false, [])
  | 0x72 => some (false, false, [])
  | 0x80 => some (true, true, [full64])
  | 0x81 => some (false, false, [full64, full64, full64, full64, full64])
  | 0x82 => some (false, true, [])
  | 0x83 => some (true, true, [full64, full64, full64, full64, full64])
  | 0x90 => some (true, true, [full64])
  | 0x91 => some (true, true, [])
  | 0xA0 => some (false, true, [full64, full64, full64, full64])
  | _ => none

/-- ARG bits outside the ones in use. -/
def cmdUnused (c : Cmd) (masks : List Nat) : Bool :=
  [(c.a0, 0), (c.a1, 1), (c.a2, 2), (c.a3, 3), (c.a4, 4)].any
    (fun (v, i) => Nat.land v (masks.getD i 0) != v)

/-- R532 and R568: what every command is checked for before its own checks. A host-driver command that acts for the
engine must name tenant 0, and any other names one from 0 to 7. -/
def State.general (s : State) (op : Nat) (c : Cmd) : Option Status :=
  match cmdInfo op with
  | none =>
    firstFail [(s.sec.lifecycle == .tampered, .tamper), (s.dbg.fw.state == .loadWait, .cfgLocked),
               (true, .instrIllegal)]
  | some (pf0, engine, masks) =>
    firstFail [
      (s.sec.lifecycle == .tampered, .tamper),
      (s.dbg.fw.state == .loadWait && op != 0x08, .cfgLocked),
      (c.rsvd != 0 || cmdUnused c masks, .bounds),
      (pf0 && c.fn.val != 0, .rights),
      (c.fn.val == 0 && (if engine then c.tenant != 0 else decide (7 < c.tenant)), .bounds)]

/-- A VF's command while its tenant is ABSENT or REMOVING, or being created again after a reset (R455, R460, R463). -/
def State.gone (s : State) (c : Cmd) : Bool :=
  c.fn.val != 0 && ((s.tenant c.fn.val).state == .absent || (s.tenant c.fn.val).state == .removing ||
    (s.tenant c.fn.val).removal.isSome || (s.tenant c.fn.val).flr)

/-- A host command: R532 and R568, TENANT_GONE for a VF whose tenant is gone (R455), then the command's own body. During a freeze
every work clock of both I/O dies stands, so a command is not served before the thaw (R90, R91). -/
def State.command (s : State) (op : Nat) (c : Cmd) (body : State → State) : State :=
  if s.frozen then s
  else
    match s.general op c with
    | some st => s.fail c st
    | none => if s.gone c then s.fail c .tenantGone else body s

/-! ### The key register (R465 to R472) -/

/-- The owner code of the device (R63, R465). -/
def deviceOwner : Nat := 0xA

/-- Entries held by an owner: SEC_KEY_QUOTA.USED. -/
def State.keysHeld (s : State) (who : Nat) : Nat := (s.sec.keys.filter (fun e => e.2.type != 0 && e.2.owner == who)).length

/-- Free entries from `lo` up to `hi`, lowest first. -/
def State.freeKeys (s : State) (lo hi : Nat) : List Nat :=
  ((List.range (hi - lo)).map (· + lo)).filter (fun i => (s.key i).type == 0)

/-- Free tenant entries. -/
def State.freeTenantKeys (s : State) : List Nat := s.freeKeys 0 960

/-- A tenant's key limit: SEC_KEY_QUOTA.LIMIT. -/
def State.keyLimit (s : State) (t : Nat) : Nat := Tab.look 120 s.sec.keyQuota t

/-- Write new entries of a tenant at the free entries lowest first (DESIGN CHOICE 5), each with a drawn value; the entries
come back with the state. -/
def State.newKeys (s : State) (owner : Nat) (lo hi : Nat) : List (Nat × Nat) → List Nat × State
  | [] => ([], s)
  | (ty, uses) :: r =>
    match s.freeKeys lo hi with
    | [] => ([], s)
    | i :: _ =>
      let (v, s1) := s.draw
      let s2 := s1.setKey i { type := ty, owner := owner, uses := uses, value := v % 2 ^ 256 }
      let (l, s3) := s2.newKeys owner lo hi r
      (i :: l, s3)

/-- Write new entries whose values are given, as `newKeys` does for drawn ones. -/
def State.storeKeys (s : State) (owner : Nat) (lo hi : Nat) : List ((Nat × Nat) × Nat) → List Nat × State
  | [] => ([], s)
  | ((ty, uses), v) :: r =>
    match s.freeKeys lo hi with
    | [] => ([], s)
    | i :: _ =>
      let (l, s1) := (s.setKey i { type := ty, owner := owner, uses := uses, value := v }).storeKeys owner lo hi r
      (i :: l, s1)

/-- What a unit that uses an entry checks (R471). -/
def State.keyUse (s : State) (i owner useBit : Nat) : Option Status :=
  let k := s.key i
  firstFail [(k.type == 0 || k.owner != owner, .keyAbsent), (!bitAt k.uses useBit, .keyUse),
             (decide (0xFFFFFFFF ≤ k.count), .keySpent)]

/-- Count one use of an entry (R471). -/
def State.countKey (s : State) (i : Nat) : State :=
  s.setKey i { s.key i with count := (s.key i).count + 1 }

/-- Zero an entry, with its expanded form (R469, R472). -/
def State.zeroKey (s : State) (i : Nat) : State := s.setKey i {}

/-- Destroy every entry that satisfies a condition. -/
def State.zeroKeys (s : State) (p : Nat → Key → Bool) : State :=
  { s with sec := { s.sec with keys := s.sec.keys.filter (fun e => !p e.1 e.2) } }

/-- The five memory-key entries of a tenant (R401): AES-256 for HBM twice, AES-256 and HMAC for DDR, MEMORY use only. -/
def memoryKeys (ddr : Bool) : List (Nat × Nat) :=
  if ddr then [(1, 2 ^ 9), (1, 2 ^ 9), (1, 2 ^ 9)] else [(1, 2 ^ 9), (1, 2 ^ 9)]

/-- Generate a tenant's memory keys (R401): a current key set for each tier. -/
def State.makeMemoryKeys (s : State) (t : Nat) : State :=
  let (h, s) := s.newKeys t 0 960 (memoryKeys false)
  let (d, s) := s.newKeys t 0 960 (memoryKeys true)
  (s.setTierKey t 0 { s.tierKey t 0 with cur := h }).setTierKey t 1 { s.tierKey t 1 with cur := d }

/-- One generate request of a tenant's CTR_DRBG: a reseed after every 2^20 (R495). -/
def State.drbg (s : State) (t : Nat) : Nat × State :=
  let (v, s) := s.draw
  let n := (s.tenant t).drawn + 1
  if n < 2 ^ 20 then (v, s.updTenant t (fun x => { x with drawn := n }))
  else (v, { s.updTenant t (fun x => { x with drawn := 0 }) with
             sec := { (s.updTenant t (fun x => { x with drawn := 0 })).sec with reseeds := wrapAdd 32 s.sec.reseeds 1 } })

/-! ### Memory (R376 to R399) -/

/-- The key under which the page of a virtual address is held. -/
def State.pageAt (s : State) (t va : Nat) : Nat :=
  if (Tab.look ({} : Page) s.mem.pages (pageKey t va)).tier != 0 && !(Tab.look ({} : Page) s.mem.pages (pageKey t va)).large
  then pageKey t va else pageKey t (va / 2 ^ 21 * 2 ^ 21)

/-- Change the leaf entry held under a key. -/
def State.updPage (s : State) (key : Nat) (f : Page → Page) : State :=
  { s with mem := { s.mem with pages := Tab.put {} s.mem.pages key (f (Tab.look {} s.mem.pages key)) } }

/-- Bytes a page covers. -/
def Page.size (p : Page) : Nat := if p.large then 2 ^ 21 else 65536

/-- The physical address of a virtual address on its page; the host address for HOST. -/
def Page.phys (p : Page) (va : Nat) : Nat := p.frame * 65536 + va % p.size

/-- The address in `State.ram` of a tier's physical address. -/
def ramKey (tier phys : Nat) : Nat := tier * 2 ^ 64 + phys

/-- One byte of device memory; a byte that nothing has written reads 0 (R386; DESIGN CHOICE 12). -/
def State.ramByte (s : State) (key : Nat) : Byte := Tab.look 0 s.ram key

/-- Write one byte of device memory. -/
def State.setRam (s : State) (key : Nat) (b : Byte) : State := { s with ram := Tab.put 0 s.ram key b }

/-- Write bytes of device memory from an address on. -/
def ramWrite : List Host.Cell → Nat → List Byte → List Host.Cell
  | m, _, [] => m
  | m, k, b :: r => ramWrite (Tab.put 0 m k b) (k + 1) r

/-- One byte of a tenant's space: device memory, or what the host answers for byte `i` of the access. -/
def State.vaByte (s : State) (t va : Nat) (host : List Byte) (i : Nat) : Byte :=
  let p := s.page t (va + i)
  if p.tier == 3 then host.getD i 0
  else if p.tier == 0 then 0
  else s.ramByte (ramKey p.tier (p.phys (va + i)))

/-- `n` bytes of a tenant's space from `va`; `host` holds what host memory answers with. -/
def State.readVA (s : State) (t va n : Nat) (host : List Byte) : List Byte :=
  (List.range n).map (fun i => s.vaByte t va host i)

/-- Write bytes of a tenant's space that lie on one page. -/
def State.writeSpan (s : State) (t va : Nat) (bs : List Byte) : State :=
  let p := s.page t va
  if p.tier == 3 then s.emit (.hostWrite t (p.phys va) bs)
  else if p.tier == 0 then s
  else { s with ram := ramWrite s.ram (ramKey p.tier (p.phys va)) bs }

/-- Write bytes of a tenant's space, beat by beat of 64 bytes; `fuel` bounds the beats. -/
def State.writeVA (s : State) (t va : Nat) (bs : List Byte) : Nat → State
  | 0 => s
  | fuel + 1 =>
    match bs with
    | [] => s
    | _ =>
      let n := 64 - va % 64
      (s.writeSpan t va (bs.take n)).writeVA t (va + n) (bs.drop n) fuel

/-- Every page of a range is mapped. -/
def State.mapped (s : State) (t va n : Nat) : Bool :=
  decide (va + n ≤ 2 ^ 48) && s.allPages t va n (fun p => p.tier != 0)

/-- The read and write checks of a command's block: mapped and with the right. -/
def State.blockFail (s : State) (t va n : Nat) (right : Page → Bool) : Option Status :=
  firstFail [(!s.mapped t va n, .xlateFault), (!s.allPages t va n right, .rights),
             (!s.allPages t va n (fun p => !p.broken), .memUe)]

/-- Lock or unlock, for one cause, every page of a range (R400). -/
def State.lockPages (s : State) (t va n : Nat) (lock : Bool) : State :=
  s.each (((pagesOf va n).map (s.pageAt t)).dedup) (fun s k =>
    s.updPage k (fun p => { p with locks := if lock then p.locks + 1 else p.locks - 1 }))

/-- Used units of a tenant's tier: MEM_QUOTA.USED (R388). -/
def State.usedUnits (s : State) (t i : Nat) : Nat := Tab.look 0 s.mem.used (3 * t + i)
/-- A tenant's limit on a tier: MEM_QUOTA.LIMIT. -/
def State.limitUnits (s : State) (t i : Nat) : Nat := Tab.look 0 s.mem.limit (3 * t + i)
/-- Set a tenant's used units on a tier. -/
def State.setUsed (s : State) (t i n : Nat) : State := { s with mem := { s.mem with used := Tab.put 0 s.mem.used (3 * t + i) n } }
/-- Set a tenant's limit on a tier. -/
def State.setLimit (s : State) (t i n : Nat) : State :=
  { s with mem := { s.mem with limit := Tab.put 0 s.mem.limit (3 * t + i) n } }

/-- Reserved MiB of HBM (1) or DDR (2) (R377). -/
def State.reservedMib (s : State) (tier : Nat) : Nat :=
  if tier = 1 then 4096 else 4096 + s.mem.ddrMib / 32 + 2 * s.mem.exch
/-- Installed MiB, less the frames retired (R378). -/
def State.installedMib (s : State) (tier : Nat) : Nat :=
  (if tier = 1 then s.mem.hbmMib else s.mem.ddrMib) -
    ceilDiv ((s.mem.retired.filter (fun f => f.1 == tier)).length * 64) 1024
/-- Available MiB for tenant quotas (R378). -/
def State.availableMib (s : State) (tier : Nat) : Nat := s.installedMib tier - s.reservedMib tier
/-- The first physical frame of a tier that a tenant may hold: the reservation lies at the bottom (DESIGN CHOICE 10). -/
def State.firstFrame (s : State) (tier : Nat) : Nat := s.reservedMib tier * 16
/-- The frames of a tier, found at start. -/
def State.frameCount (s : State) (tier : Nat) : Nat := (if tier = 1 then s.mem.hbmMib else s.mem.ddrMib) * 16
/-- The first byte of the exchange window in DDR (DESIGN CHOICE 10). -/
def State.exchBase (s : State) : Nat := (4096 + s.mem.ddrMib / 32) * 2 ^ 20

/-- The key of a frame in `Mem.inUse`. -/
def frameKey (tier f : Nat) : Nat := tier * 2 ^ 48 + f
/-- A frame may be allocated: it is neither in use, held nor retired. -/
def State.frameFree (s : State) (tier f : Nat) : Bool :=
  Tab.look 0 s.mem.inUse (frameKey tier f) == 0 && !s.mem.retired.contains (tier, f) &&
  !s.mem.held.any (fun h => h.tier == tier && decide (h.frame ≤ f) && decide (f < h.frame + h.units))
/-- The first run of `units` free frames, aligned to `units`, at or above a frame: lowest first (DESIGN CHOICE 5). -/
def State.findRun (s : State) (tier units : Nat) : Nat → Nat → Option Nat
  | 0, _ => none
  | fuel + 1, f =>
    if s.frameCount tier < f + units then none
    else if (List.range units).all (fun i => s.frameFree tier (f + i)) then some f
    else s.findRun tier units fuel (f + units)
/-- Take `n` runs of `units` frames for a tenant; none where the pool is short. -/
def State.takeFrames (s : State) (t tier units : Nat) : Nat → Nat → Option (List Nat × State)
  | 0, _ => some ([], s)
  | n + 1, start =>
    match s.findRun tier units (s.frameCount tier / units + 1) (ceilDiv start units * units) with
    | none => none
    | some f =>
      let use := (List.range units).foldl (fun m i => Tab.put 0 m (frameKey tier (f + i)) (t + 1)) s.mem.inUse
      let s1 : State := { s with mem := { s.mem with inUse := use } }
      match s1.takeFrames t tier units n (f + units) with
      | none => none
      | some (l, s2) => some (f :: l, s2)
/-- Return a run of frames: to the pool at once, or held until it is zeroed (R412). -/
def State.returnFrames (s : State) (t tier f units : Nat) (held : Bool) (round : Option Nat) : State :=
  let use := (List.range units).foldl (fun m i => Tab.put 0 m (frameKey tier (f + i)) 0) s.mem.inUse
  let m := { s.mem with inUse := use }
  if held then
    { s with mem := { m with held := m.held ++ [{ tier := tier, frame := f, units := units, tenant := t, round := round, stuck := false }] } }
  else
    { s with mem := { m with used := Tab.put 0 m.used (3 * t + (tier - 1)) (Tab.look 0 m.used (3 * t + (tier - 1)) - units) } }
/-- Zero the bytes of frames. -/
def ramZero (m : List Host.Cell) (tier f units : Nat) : List Host.Cell :=
  m.filter (fun c => !(decide (ramKey tier (f * 65536) ≤ c.1) && decide (c.1 < ramKey tier ((f + units) * 65536))))
/-- Copy the bytes of frames. -/
def ramCopy (m : List Host.Cell) (tier src dst units : Nat) : List Host.Cell :=
  (m.filter (fun c => decide (ramKey tier (src * 65536) ≤ c.1) && decide (c.1 < ramKey tier ((src + units) * 65536)))).foldl
    (fun m c => Tab.put 0 m (c.1 - ramKey tier (src * 65536) + ramKey tier (dst * 65536)) c.2)
    (ramZero m tier dst units)

/-- An uncorrectable error: MEM_ERR, the first capture in MEM_UE_LOG, and MEM_UE events in the device queue and the
owner's (R410). -/
def State.memUe (s : State) (tier phys tenant : Nat) (device : Bool) (retire : Nat) : State :=
  let f := if tier = 1 then 2 else 3
  let s := { s with mem := { s.mem with
    err := Tab.put 0 s.mem.err f (satAdd 8 (Tab.look 0 s.mem.err f) 1),
    ueLog := some (s.mem.ueLog.getD (phys / 64, tier, tenant % 8, device)) } }
  let d := phys % 2 ^ 64 + tier * 2 ^ 64 + retire * 2 ^ 72
  let s := s.event 0 3 0x23 0xA d
  if device then s else s.event (tenant + 1) 3 0x23 tenant d


/-- In TAMPERED a write to any register is discarded (R483). -/
def State.ifWritable (s : State) (f : State → State) : State := if s.sec.lifecycle == .tampered then s else f s

/-- A VF's access outside its window: the access error of R23, counted and raised in its tenant's queue (R515 to R517). -/
def State.windowMiss (s : State) (fn offset : Nat) (write : Bool) : State :=
  let q := if fn = 0 then 0 else fn + 1
  let s := s.setShv q { s.shv q with accessErr := satAdd 16 (s.shv q).accessErr 1 }
  s.event q 0 0 (if fn = 0 then 0xA else fn) (offset + b2n write * 2 ^ 64)

/-- The tenant of a command is CREATED, RUNNING or SUSPENDED; tenant 0 needs no creation (R455). -/
def State.present (s : State) (t : Nat) : Bool :=
  match (s.tenant t).state with | .created => true | .running => true | .suspended => true | _ => t == 0

end Sys2Proof.Machine
end

