-- ==== Sys2Proof/Machine/RoundOps.lean ====
section
/-! DEFINITION. Machine/RoundOps.lean: what ends a round or a member's shard of it (R240, R243, R269, R399). -/

namespace Sys2Proof.Machine

/-- The round is open: neither FREE, RELEASED nor ABORTED. -/
def RoundState.isOpen (st : RoundState) : Bool :=
  match st with | .free => false | .released => false | .aborted => false | _ => true

/-- Cells that hold sealed blocks of round `h` (R190). -/
def State.sealedCells (s : State) (h : Nat) : List Nat :=
  (List.range 64).filter (fun c => (s.cell c).seals.any (fun e => e.2 == h + 1))

/-- This member is the coordinator and takes part in decisions: one that has stopped issue does not (R47). -/
def State.decides (s : State) : Bool := s.isCoord && !s.spn.stopped

/-- This member reports the end of its gate pass and comparison, with its shard status (R296). -/
def State.reportGate (s : State) (h : Nat) : State :=
  let st := (s.round h).shardStatus
  let s := s.sendDevice (.gateReport s.jig.me (Fin.ofNat 64 h) st)
  if s.isCoord then
    s.updRound h fun r => { r with reports := r.reports.filter (fun x => x.1 != s.jig.me) ++ [(s.jig.me, st)], reportTurn := s.turn }
  else s

/-- The bindings of round `h` end: ENABLE clears, and what a batch had dispatched is dropped (R243, R271). -/
def State.endBindings (s : State) (h : Nat) : State :=
  s.each (s.agg.binds.filter (fun e => e.2.enable && e.2.round == h)) (fun s e =>
    s.setBind e.1 { e.2 with enable := false, busy := false, taken := false, copies := [], current := none, placed := 0 })

/-- The status that commands of a round carry when it ends: ROUND_CLOSED where ROUND_ABORT ended it (R291; DEDUCED). -/
def endStatus (st : Status) : Status := if st = .ok then .roundClosed else st

/-- The commands of a round that wait for its later states end with a status (R242, R291, R303). -/
def State.endRoundCmds (s : State) (h : Nat) (st : Status) : State :=
  let r := s.round h
  let cmds := r.openCmd.toList ++ r.unmaskCmd.toList ++ r.releaseCmd.toList ++ r.newDeadlines.filterMap (fun x => x.2.2)
  let s := s.setRound h { r with openCmd := none, unmaskCmd := none, releaseCmd := none, newDeadlines := [] }
  s.each cmds (fun s c => s.fail c (endStatus st))

/-- The range of the engine range that round `h` takes (R380). -/
def roundBase (h : Nat) : Nat := 0xC00000000000 + h * 2 ^ 40

/-- The leaf entries that map the memory of round `h` of tenant `t`: their keys (R380, R399). -/
def State.roundPages (s : State) (t h : Nat) : List Nat :=
  (s.mem.pages.filter (fun e => e.1 / 2 ^ 33 == t && decide (roundBase h ≤ e.1 % 2 ^ 33 * 65536) &&
    decide (e.1 % 2 ^ 33 * 65536 < roundBase (h + 1)))).map (fun e => e.1)

/-- The memory of round `h` is unmapped at once; its frames are held, and charged, until they are zeroed (R399). -/
def State.unmapRound (s : State) (t h : Nat) : State :=
  s.each (s.roundPages t h) (fun s k =>
    let p := Tab.look ({} : Page) s.mem.pages k
    ({ s with mem := { s.mem with pages := Tab.put {} s.mem.pages k {} } }).returnFrames t p.tier p.frame 1 true (some h))

/-- Round `h` becomes ABORTED or RELEASED: bindings end, its memory is unmapped and waits to be zeroed, the cells clear their
sealed blocks (R190, R243, R399). -/
def State.closeRound (s : State) (h : Nat) (st : RoundState) : State :=
  let s := (s.endBindings h).unmapRound (s.round h).tenant h
  let cells := s.sealedCells h
  s.updRound h fun r => { r with
    state := st, change := none, sealedCells := cells, clearedAt := if cells.isEmpty then some s.pos else none,
    bins := [], batches := [], mirrorQueue := [], heldChunks := [] }

/-- The detail of a ROUND event (R515). -/
def State.roundDetail (s : State) (h : Nat) : Nat :=
  let r := s.round h
  h + r.state.code * 2 ^ 8 + r.number % 2 ^ 48 * 2 ^ 16

/-- Round `h` becomes ABORTED; a cause other than ROUND_ABORT is reported in the tenant's queue with its status (R243). -/
def State.abortRound (s : State) (h : Nat) (st : Status) (report : Bool) : State :=
  let s := (s.endRoundCmds h st).closeRound h .aborted
  if report then s.event ((s.round h).tenant + 1) 4 st.code (s.round h).tenant (s.roundDetail h) else s

/-- The key-register entries that a round destroys when it ends: a repair round's are its parent's (R48, R237). -/
def Round.ownKeys (r : Round) : List Nat := if r.repair then [] else r.keyEntries

/-- An open that is refused, or that ends before B_open, leaves no round: its memory and keys go, and its command ends with a status
(R234; DEDUCED for a removal, a suspension, a coordinator loss or a WARM reset in between). -/
def State.cancelOpen (s : State) (h : Nat) (st : Status) : State :=
  let r := s.round h
  let s := (s.unmapRound r.tenant h).each r.ownKeys State.zeroKey
  (s.setRound h {}).each r.openCmd.toList (fun s c => s.fail c st)

/-- Handles of opens that have not reached B_open, of one tenant or of all. -/
def State.pendingOpens (s : State) (t : Option Nat) : List Nat :=
  (s.agg.rounds.filter (fun e => e.2.bOpen.isSome && (match t with | some k => e.2.tenant == k | none => true))).map (fun e => e.1)

/-- A verdict on a round's opening reaches the coordinator, before it decides (R113, R234). -/
def State.takeOpenVerdict (s : State) (h m : Nat) (st : Status) : State :=
  let r := s.round h
  match r.bOpen with
  | some b =>
    if s.decides && r.openDecision.isNone && decide (s.pos ≤ b - 2 ^ s.spn.k) && !r.openVerdicts.any (fun v => v.1 == m) then
      s.setRound h { r with openVerdicts := r.openVerdicts ++ [(m, st)] }
    else s
  | none => s

/-- The status of an opening: the first failing verdict in order of assembly index, lost members left out, a missing verdict counting as
BARRIER_TIMEOUT (R114, R234). -/
def State.openStatus (s : State) (r : Round) : Status :=
  ((((List.range (max s.bigE 1)).filter (fun m => !s.spn.lost.contains m)).map (fun m =>
    match r.openVerdicts.find? (fun v => v.1 == m) with | some v => v.2 | none => .barrierTimeout)).find? (fun st => st != .ok)).getD .ok

/-- What a pending open does at turn boundary `b`: this member's verdict goes out at B_open - 2^(k+1), and at B_open - 2^k the coordinator
decides (R113, R234). -/
def State.openBoundary (s : State) (b : Nat) : State :=
  s.each (s.pendingOpens none) (fun s h =>
    match (s.round h).bOpen with
    | none => s
    | some p =>
      let r := s.round h
      let s := if !r.openSent && decide (p - 2 ^ (s.spn.k + 1) ≤ b) then
          let s := s.setRound h { r with openSent := true }
          if s.isCoord then s.takeOpenVerdict h s.jig.me r.openOwn else s.sendDevice (.roundVerdict s.jig.me (Fin.ofNat 64 h) r.openOwn)
        else s
      if s.decides && (s.round h).openDecision.isNone && decide (p - 2 ^ s.spn.k ≤ b) then
        let st := s.openStatus (s.round h)
        let s := s.updRound h fun r => { r with openDecision := some st }
        if 2 ≤ s.bigE then s.sendDevice (.roundDecision (Fin.ofNat 64 h) st) else s
      else s)

/-- A failure on this member ends the round here for its shard (R269). -/
def State.shardFail (s : State) (h : Nat) (st : Status) : State :=
  s.updRound h fun r => { r with shardStatus := if r.shardStatus = .ok then st else r.shardStatus }

/-- Ask for round `h` to become ABORTED at the next turn boundary (R240). -/
def State.abortAtBoundary (s : State) (h : Nat) (st : Status) : State :=
  s.updRound h fun r => { r with change := some (s.boundaryAfter s.pos, .aborted), changeStatus := st }

/-- The commands that wait for a change of state complete (R240, R243, R297, R303). -/
def State.endChange (s : State) (h : Nat) : State :=
  let cs := (s.round h).changeCmds
  (s.updRound h fun r => { r with changeCmds := [] }).each cs (fun s x => s.complete x.1 x.2.1 0 0 x.2.2)

/-- Committed repair rounds of parent `h`, which are released with it (R305). -/
def State.repairsOf (s : State) (h : Nat) : List Nat :=
  (s.agg.rounds.filter (fun e => e.2.repair && e.2.parent == h && e.2.state == .committed && e.2.tenant == (s.round h).tenant)).map
    (fun e => e.1)

/-- The tile of a resident binding is written back from its tile block when its round reaches SUMMED (R265). -/
def State.writeResidents (s : State) (h : Nat) : State :=
  let r := s.round h
  let n := 16384 * (if r.format = 1 then 8 else 4)
  s.each (s.agg.binds.filter (fun e => e.2.enable && e.2.round == h && e.2.resident && e.2.placed != 0)) (fun s e =>
    let bs := (List.range n).map (fun i => Tab.look 0 (s.cell e.2.cell).sram (e.2.tile * 4096 + i))
    (s.writeVA r.tenant (roundBase h + r.staging + 2 ^ 20 + (e.2.placed - 1) * n) bs (n / 64 + 1)).setBind e.1 { e.2 with placed := 0 })

/-- Write a statement and its signature block, which counts one use of both identity keys, to a tenant's memory (R471, R477). -/
def State.writeSigned (s : State) (t va : Nat) (body : List Byte) : State :=
  let (v, s) := (s.countKey 1022 |>.countKey 1023).draw
  s.writeVA t va (body ++ (List.range 8240).map (Config.signByte v)) ((body.length + 8240) / 64 + 2)

/-- The cohort has been discarded: it has a reason (R298). -/
def CohortRec.discarded (k : CohortRec) : Bool := k.reason != 0

/-- A member takes part in a round: it has not been declared lost, now or since the round was opened (R45). -/
def State.takesPart (s : State) (r : Round) (m : Nat) : Bool := !s.spn.lost.contains m && !r.gone.contains m

/-- The status of shard `i`: OK where a live holder reports OK, otherwise its first report, and PEER_UNREACHABLE without one (R46,
R269, R298). -/
def State.shardStatusOf (s : State) (r : Round) (i : Nat) : Status :=
  let l := (r.shards.getD i []).filter (s.takesPart r)
  let reps := r.reports.filter (fun x => l.contains x.1)
  if reps.any (fun x => x.2 == .ok) then .ok else match reps with | x :: _ => x.2 | [] => .peerUnreachable

/-- Cohorts whose home engine and its twin are both lost before their seeds are sent are discarded with HOME_LOST, once the sets are
published (R288); a robust round rebuilds no seed. -/
def State.discardHomeless (s : State) (h : Nat) : State :=
  s.updRound h fun r =>
    if r.robust || !(Tab.look ({} : CohortRec) r.cohorts 0).published || !r.state.isOpen then r
    else (List.range r.sizes.length).foldl (fun r c =>
      let k := Tab.look ({} : CohortRec) r.cohorts c
      let alone := ((r.shards.getD (c % r.shards.length) []).filter (s.takesPart r)).isEmpty
      if alone && !k.rebuilt && k.reason == 0 then { r with cohorts := Tab.put {} r.cohorts c { k with reason := 5 } } else r) r

/-- A release has ended without RELEASED, or is to start afresh (R303, R304). -/
def Round.clearRelease (r : Round) : Round :=
  { r with releasing := false, twinDigest := none, agreed := false, agreeReports := [], writeReports := [], writing := false, written := false,
           heldWrite := false, releaseCmd := none }

/-- The coordinator ends a release: RELEASED at the next turn boundary with the completion there, or, where a status is not OK, the round
stays COMMITTED and the completion carries it (R303, R304). -/
def State.endRelease (s : State) (h : Nat) (st : Status) : State :=
  let r := s.round h
  let b := s.boundaryAfter s.pos
  let s := if st = .ok then
      s.setRound h { r with
        writing := false, heldWrite := false, releaseCmd := none, change := some (b, .released),
        changeCmds := r.changeCmds ++ r.releaseCmd.toList.map (fun c => (c, .ok, flagVaried)) }
    else (s.setRound h r.clearRelease).each r.releaseCmd.toList (fun s c => s.complete c st 0 0 flagVaried)
  if 2 ≤ s.bigE then s.sendDevice (.releaseEnds (Fin.ofNat 64 h) b st r.shardSt) else s

/-- What the coordinator finds in the reports of a release: once every member has agreed on its digests, writing is announced in slot 0; once
every member's write has ended, so has the release (R303, R304). -/
def State.checkRelease (s : State) (h : Nat) : State :=
  let r := s.round h
  let ms := (List.range (max s.bigE 1)).filter (s.takesPart r)
  let first := fun (l : List (Nat × Status)) => (ms.filterMap (fun m => l.find? (fun x => x.1 == m && x.2 != .ok))).head?
  let all := fun (l : List (Nat × Status)) => ms.all (fun m => l.any (fun x => x.1 == m))
  if !s.decides || r.state != .committed || !r.releasing || r.change.isSome then s
  else if !r.writing then
    if !all r.agreeReports then s
    else match first r.agreeReports with
      | some x => s.endRelease h x.2
      | none =>
        let s := s.setRound h { r with writing := true }
        if 2 ≤ s.bigE then s.sendDevice (.writing (Fin.ofNat 64 h)) else s
  else if all r.writeReports then s.endRelease h ((first r.writeReports).elim .ok (fun x => x.2))
  else s

/-- A member's report on its digests or on its write reaches the coordinator; a difference ends its shard with REPLICA_MISMATCH (R303). -/
def State.noteAgree (s : State) (h m : Nat) (st : Status) : State :=
  (s.updRound h fun r =>
    let i := r.shards.findIdx? (fun l => l.contains m)
    { r with
      agreeReports := r.agreeReports.filter (fun x => x.1 != m) ++ [(m, st)],
      shardSt := match i with | some i => if st = .replicaMismatch then r.shardSt.set i st else r.shardSt | none => r.shardSt }).checkRelease h
def State.noteWrite (s : State) (h m : Nat) (st : Status) : State :=
  (s.updRound h fun r => { r with writeReports := r.writeReports.filter (fun x => x.1 != m) ++ [(m, st)] }).checkRelease h

/-- This member has agreed with its twin, or has not (R303). -/
def State.reportAgree (s : State) (h : Nat) (st : Status) : State :=
  let s := s.updRound h fun r => { r with agreed := true }
  if s.isCoord then s.noteAgree h s.jig.me st else s.sendDevice (.agreeReport s.jig.me (Fin.ofNat 64 h) st)
/-- This member's write has ended (R303). -/
def State.reportWrite (s : State) (h : Nat) (st : Status) : State :=
  let s := s.updRound h fun r => { r with written := true, heldWrite := false }
  if s.isCoord then s.noteWrite h s.jig.me st else s.sendDevice (.wrote s.jig.me (Fin.ofNat 64 h) st)

/-- Kept cohorts of a round. -/
def Round.kept (r : Round) : List Nat := (List.range r.sizes.length).filter (fun c => !(Tab.look {} r.cohorts c).discarded)
/-- The sum of |S| over the kept cohorts (R297). -/
def Round.survivors (r : Round) : Nat := (r.kept.map (fun c => (Tab.look {} r.cohorts c).s.length)).sum

/-- The commit record (R298). -/
def State.recordBytes (s : State) (h : Nat) (statement : Digest) : List Byte :=
  let r := s.round h
  let below := decide (r.survivors < r.roundMin)
  leBytes 4 0x544D4358 ++ leBytes 1 1 ++ leBytes 1 (b2n below + 2 * b2n r.repair) ++ leBytes 6 r.number ++
  leBytes 2 r.sizes.length ++ leBytes 2 r.shards.length ++ leBytes 4 r.kept.length ++ leBytes 4 r.survivors ++
  leBytes 4 r.cohortMin ++ leBytes 4 r.roundMin ++ leBytes 4 r.release.sigma ++ leBytes 12 0 ++ leBytes 48 statement ++ leBytes 32 0 ++
  (List.range r.sizes.length).flatMap (fun c => let k := Tab.look ({} : CohortRec) r.cohorts c
    leBytes 3 k.s.length ++ leBytes 3 k.d.length ++ leBytes 1 k.reason ++ leBytes 1 0) ++
  (List.range r.shards.length).flatMap (fun i =>
    let mine := r.repair && r.repaired.contains i
    let alone := decide (((r.shards.getD i []).filter (s.takesPart r)).length < 2)
    leBytes 1 (s.shardStatusOf r i).code ++ leBytes 1 (b2n alone + 2 * b2n mine) ++ leBytes 1 (if mine then h else 0xFF) ++ leBytes 1 0 ++
    leBytes 4 (if r.repair && !mine then (s.round r.parent).survivors else r.survivors))

/-- A commit accepted now: the record is written and signed, and the round becomes COMMITTED at the next turn boundary, or ABORTED
with COHORT_BELOW_MIN where the survivors are below ROUND_MIN (R297, R298). -/
def State.acceptCommit (s : State) (h : Nat) (c : Option Cmd) : State :=
  let r := s.round h
  let st : Status := if r.survivors < r.roundMin then .cohortBelowMin else .ok
  let b := s.boundaryAfter s.pos
  let sts := (List.range r.shards.length).map (s.shardStatusOf r)
  let s := s.writeSigned r.tenant (r.statement + 0x4000)
    (s.recordBytes h (Config.digest "round statement" (r.tenant, r.number, r.revision, r.pDeadline, r.pShareEnd, r.graphSeed)))
  let s := s.updRound h fun r => { r with
    commitRecord := some (r.kept.length, r.survivors, decide (r.survivors < r.roundMin)), shardSt := sts,
    change := some (b, if st = .ok then .committed else .aborted), changeStatus := st,
    changeCmds := r.changeCmds ++ c.toList.map (fun c => (c, st, 0)) }
  if 2 ≤ s.bigE then s.sendDevice (.roundEnds (Fin.ofNat 64 h) (st == .ok) b st sts) else s

/-- A change of state that round `h` awaits takes effect at its boundary, and the commands that asked for it complete; a round
that becomes RELEASED takes its committed repair rounds with it, and a coordinator in HOST_LOST commits one that becomes SUMMED
(R240, R243, R291, R296, R297, R305, R512). -/
def State.applyChange (s : State) (h : Nat) : State :=
  match (s.round h).change with
  | none => s
  | some (_, .aborted) =>
    let st := (s.round h).changeStatus
    (s.abortRound h st (st != .ok)).endChange h
  | some (_, .released) =>
    let s := s.each (s.repairsOf h) (fun s k => s.closeRound k .released)
    (s.closeRound h .released).endChange h
  | some (_, st') =>
    let u := (s.round h).unmaskCmd
    let s := (s.updRound h fun r => { r with state := st', change := none, unmaskCmd := if st' = .summed then none else u }).endChange h
    if st' = .summed then
      let s := (s.writeResidents h).each u.toList State.ok
      if s.dbg.host.lost && s.isCoord then
        (s.acceptCommit h none).event ((s.round h).tenant + 1) 4 0 (s.round h).tenant (s.roundDetail h)
      else s
    else s

/-- Handles of a tenant's open rounds that satisfy a condition. -/
def State.openRounds (s : State) (t : Nat) (p : RoundState → Bool) : List Nat :=
  (s.agg.rounds.filter (fun e => e.2.tenant == t && e.2.state.isOpen && p e.2.state)).map (fun e => e.1)

end Sys2Proof.Machine
end

