-- ==== Sys2Proof/Machine/CellOps.lean ====
section
/-! DEFINITION. Machine/CellOps.lean: cell SRAM and its seal map, tokens, failures and the end of a program (R141 to R144,
R189, R203 to R213). -/

namespace Sys2Proof.Machine

/-- Bytes of cell SRAM (R141). -/
def sramBytes : Nat := 2 ^ 22

/-- `n` bytes of cell SRAM from an address; past the top the addresses wrap (R217; DEDUCED). -/
def Cell.read (c : Cell) (a n : Nat) : List Byte := (List.range n).map (fun i => Tab.look 0 c.sram ((a + i) % sramBytes))

/-- Write bytes of cell SRAM, wrapping at the top. -/
def Cell.write (c : Cell) (a : Nat) (bs : List Byte) : Cell :=
  { c with sram := ramWrite (ramWrite c.sram a (bs.take (sramBytes - a))) 0 (bs.drop (sramBytes - a)) }

/-- The seal of the 4 KiB block at an address: the round plus 1, or 0 (R189). -/
def Cell.sealAt (c : Cell) (a : Nat) : Nat := Tab.look 0 c.seals (a / 4096)

/-- The 4 KiB blocks that a range touches. -/
def blocksOf (a n : Nat) : List Nat :=
  if n = 0 then [] else (List.range ((a + n - 1) / 4096 - a / 4096 + 1)).map (fun i => (i + a / 4096) % 1024)

/-- Some block of a range is sealed, other than for round `h` where one is given (R189). -/
def Cell.sealedRange (c : Cell) (a n : Nat) (h : Option Nat) : Bool :=
  (blocksOf a n).any (fun b => let x := Tab.look 0 c.seals b; x != 0 && (match h with | some r => x != r + 1 | none => true))

/-- Seal every block of a range for a round. -/
def Cell.sealRange (c : Cell) (a n h : Nat) : Cell :=
  { c with seals := (blocksOf a n).foldl (fun m b => Tab.put 0 m b (h + 1)) c.seals }

/-- Count in a field of CEL_ARITH (R153). -/
def Cell.countArith (c : Cell) (f n : Nat) : Cell :=
  if n = 0 then c else { c with arith := Tab.put 0 c.arith f (satAdd 16 (Tab.look 0 c.arith f) n) }

/-! ### Errors of a cell's memories, and writes that meet (R140, R142, R144, R149) -/

/-- Field of CEL_ERR: corrected SRAM errors. -/
def errSramCe : Nat := 0
/-- Field of CEL_ERR: corrected accumulator errors. -/
def errAccCe : Nat := 1
/-- Field of CEL_ERR: uncorrectable SRAM errors. -/
def errSramUe : Nat := 2
/-- Field of CEL_ERR: uncorrectable accumulator errors. -/
def errAccUe : Nat := 3
/-- Field of CEL_ERR: corrected errors on links that arrive here. -/
def errLinkCe : Nat := 4
/-- Field of CEL_ERR: uncorrectable errors on links that arrive here. -/
def errLinkUe : Nat := 5
/-- Field of CEL_ARITH: discarded same-cycle writes (R142). -/
def arithCollision : Nat := 3

/-- Count in a field of CEL_ERR: 16 bits for the corrected errors of SRAM and accumulators, 8 for the others (R153). -/
def Cell.countErr (c : Cell) (f n : Nat) : Cell :=
  if n = 0 then c else { c with err := Tab.put 0 c.err f (satAdd (if f ≤ errAccCe then 16 else 8) (Tab.look 0 c.err f) n) }

/-- An uncorrectable SRAM error: it counts, and CEL_ERR_ADDR captures its address and port unless it holds a capture (R144, R153). -/
def Cell.sramError (c : Cell) (addr port : Nat) : Cell :=
  let c := c.countErr errSramUe 1
  match c.errAddr with
  | some _ => c
  | none => { c with errAddr := some (addr % sramBytes / 8 * 8, port) }

/-- The cell as a unit reads it that meets another unit's write: the bytes before that write (R142, R208). -/
def Cell.seen (c : Cell) (m : Met) : Cell := { c with sram := m.stale.foldl (fun r b => ramWrite r (b.1 % sramBytes) [b.2]) c.sram }

/-- Writes through a port that met writes of other ports in the same work cycle: in the port order accumulator, vector, mesh, feed the
earlier port's stands, the other is discarded and counts (R142); `before` holds the earlier port's writes. -/
def Cell.collide (c before : Cell) (port : Nat) (m : Met) : Cell :=
  let lost := if port ≤ 1 then [] else m.lost
  ((lost.foldl (fun c w => c.write (8 * w % sramBytes) (before.read (8 * w) 8)) c).countArith arithCollision (lost.length + m.beaten))

/-- Scalar register `r`: s0 reads 0 (R202). -/
def Cell.sreg (c : Cell) (r : Nat) : Word64 := if r = 0 then 0 else Tab.look 0 c.sregs r
/-- Write scalar register `r`: writes to s0 are discarded (R202). -/
def Cell.setSreg (c : Cell) (r : Nat) (v : Word64) : Cell := if r = 0 then c else { c with sregs := Tab.put 0 c.sregs r v }

/-- Lane `l` of vector register `v` (R146). -/
def Cell.lane (c : Cell) (v l : Nat) : Word64 := Tab.look 0 c.vregs (64 * v + l)
/-- Write all 64 lanes of vector register `v`. -/
def Cell.setVreg (c : Cell) (v : Nat) (f : Nat → Word64) : Cell :=
  { c with vregs := (List.range 64).foldl (fun m l => Tab.put 0 m (64 * v + l) (f l)) c.vregs }

/-- Accumulation group `g` of a cell. -/
def Cell.group (c : Cell) (g : Nat) : AccGroup := Tab.look {} c.groups g
/-- Replace accumulation group `g`. -/
def Cell.setGroup (c : Cell) (g : Nat) (v : AccGroup) : Cell := { c with groups := Tab.put {} c.groups g v }

/-- The bindings whose batch is dispatched to a cell (R264). -/
def State.busyBinds (s : State) (c : Nat) : List Nat :=
  (s.agg.binds.filter (fun e => e.2.enable && e.2.busy && e.2.cell == c)).map (fun e => e.1)

/-- The cell has finished its batch: it begins a WAIT on the binding's token, or halts (R264, R267). -/
def State.finishBatch (s : State) (e : Nat) : State :=
  s.setBind e { s.bind e with busy := false, taken := false, copies := [], current := none }

/-- The program run of a group: the one that has begun, or the first that waits to. -/
def State.runOf (s : State) (g : Nat) : Option ProgRun :=
  match s.progs.find? (fun r => r.group == g && r.begun) with
  | some r => some r
  | none => s.progs.find? (fun r => r.group == g)

/-- The completion of a group's program, once every cell of the group has halted: status, rank and index of the failure,
the largest work-cycle count, flags (R175, R206). -/
def State.endRun (s : State) (g : Nat) : State :=
  match s.runOf g with
  | none => s
  | some run =>
    let cells := s.groupCells g
    if !run.begun || cells.any (fun c => (s.cell c).running) then s
    else
      let s1 := { s with progs := s.progs.filter (fun r => !(r.group == g && r.begun)) }
      let work := min (2 ^ 32 - 1) ((cells.map (fun c => (s.cell c).work)).foldl max 0)
      let flags := cells.foldl (fun f c => Nat.lor f (s.cell c).flags) 0
      match cells.find? (fun c => (s.cell c).fault.origin), cells.find? (fun c => (s.cell c).haltedErr) with
      | some c, _ => s1.complete run.cmd (s.cell c).fault.status
          (cells.idxOf c + (s.cell c).fault.index * 2 ^ 16 + work * 2 ^ 32) 0 flags
      | none, some c => s1.complete run.cmd (s.cell c).lastStatus
          (cells.idxOf c + (s.cell c).pc * 2 ^ 16 + work * 2 ^ 32) 0 flags
      | none, none =>
        s1.complete run.cmd (if cells.any (fun c => (s.cell c).satClosed) then .accScaleExhausted else .ok) (work * 2 ^ 32) 0 flags

/-- One cell's program ends with a status (R203, R204): batches dispatched to it are finished, and end their round's shard
where the status is not OK (R264, R269). -/
def State.haltCell (s : State) (c : Nat) (st : Status) : State :=
  let s := s.updCell c fun x => { x with
    running := false, haltedErr := st != .ok, lastStatus := st, waiting := .none, halting := false, loops := [] }
  s.each (s.busyBinds c) (fun s e =>
    let h := (s.bind e).round
    let s := s.finishBatch e
    if st = .ok then s else s.shardFail h st)

/-- An instruction of cell `c` fails: the cell halts with ORIGIN set, and every other running cell of its group halts with
the same status (R204). DESIGN CHOICE: in a cell that halts with ORIGIN clear the rule gives only the status; INDEX shows the cell's own
instruction, UNIT and DETAIL 0 (notes/assumptions/45.md). -/
def State.failCell (s : State) (c idx : Nat) (st : Status) (unit detail : Nat) : State :=
  let g := s.cellGroup c
  let s := s.updCell c fun x => { x with
    fault := { status := st, index := idx, origin := true, unit := unit, detail := detail, loadInstr := 0 } }
  let s := s.haltCell c st
  let s := s.each ((s.groupCells g).filter (fun d => d != c && (s.cell d).running)) (fun s d =>
    (s.updCell d fun x => { x with fault := { status := st, index := x.pc, origin := false, unit := 0, detail := 0, loadInstr := 0 } }).haltCell d st)
  s.endRun g

/-- Halt every running cell of a group with a status that no instruction of it raised (R205, R461). -/
def State.haltGroup (s : State) (g : Nat) (st : Status) : State :=
  let s := s.each ((s.groupCells g).filter (fun d => (s.cell d).running)) (fun s d =>
    (s.updCell d fun x => { x with fault := { status := st, index := x.pc, origin := false, unit := 0, detail := 0, loadInstr := 0 } }).haltCell d st)
  s.endRun g

/-- Where control goes after the instruction before `p`: back to the start of a loop whose last instruction has run, while it
has passes left (R222). -/
def backEdge : List (Nat × Nat × Nat) → Nat → Nat × List (Nat × Nat × Nat)
  | [], p => (p, [])
  | (f, e, n) :: r, p => if p = e + 1 then (if 1 < n then (f, (f, e, n - 1) :: r) else backEdge r p) else (p, (f, e, n) :: r)

/-- The cell's program goes on at instruction `p`; past the last instruction it ends with INSTR_ILLEGAL, detail 0x0A (R203,
R222). -/
def State.goTo (s : State) (c p : Nat) : State :=
  let x := s.cell c
  let (q, l) := backEdge x.loops p
  if q < x.store.length then s.updCell c fun x => { x with pc := q, loops := l }
  else (s.updCell c fun x => { x with pc := q % 4096, loops := l }).failCell c (q % 4096) .instrIllegal 0 0x0A

/-- A WAIT on a token begins: a batch or stream of the cell whose notice an earlier WAIT took is finished (R264, R292). -/
def State.waitBegins (s : State) (c t : Nat) : State :=
  s.each ((s.busyBinds c).filter (fun e => (s.bind e).token == t && (s.bind e).taken)) (fun s e => s.finishBatch e)

/-- A WAIT's count has been reached: it is subtracted, and the program goes on (R213). -/
def State.takeToken (s : State) (c t n : Nat) : State :=
  let s := s.each ((s.busyBinds c).filter (fun e => (s.bind e).token == t)) (fun s e =>
    s.setBind e { s.bind e with taken := true })
  let s := s.updCell c fun x => { x with
    tokens := Tab.put 0 x.tokens t (Tab.look 0 x.tokens t - n), waiting := .none }
  s.goTo c ((s.cell c).pc + 1)

/-- Raise a staging token by `n` and wake a WAIT whose count is reached; past 65,535 the count stays there and a running
program halts with INSTR_ILLEGAL, detail 0x09 (R211, R213). -/
def State.signalToken (s : State) (c t n : Nat) : State :=
  let v := Tab.look 0 (s.cell c).tokens t
  if v + n ≤ 65535 then
    let s := s.updCell c fun x => { x with tokens := Tab.put 0 x.tokens t (v + n) }
    match (s.cell c).waiting with
    | .token t' m => if t' = t && decide (m ≤ v + n) && (s.cell c).running then s.takeToken c t m else s
    | _ => s
  else
    let s := s.updCell c fun x => { x with tokens := Tab.put 0 x.tokens t 65535 }
    if (s.cell c).running then s.failCell c (s.cell c).pc .instrIllegal 0 9 else s

/-- GSYNC: the waiting cells of a group whose rendezvous every cell has reached go on together (R215). -/
def State.releaseGsync (s : State) (g : Nat) : State :=
  let least := (s.groupCells g).foldl (fun m c => min m (s.cell c).gsyncs) (2 ^ 64)
  s.each ((s.groupCells g).filter (fun c => (s.cell c).waiting == .gsync && decide ((s.cell c).gsyncs ≤ least))) (fun s c =>
    if (s.cell c).running then (s.updCell c fun x => { x with waiting := .none }).goTo c ((s.cell c).pc + 1) else s)

/-- Descriptors that an engine's queue holds from one cell (R226). -/
def feedDepth : Nat := 16

/-- Descriptors of a cell queued on an engine. -/
def Cell.feedsOn (x : Cell) (e : Nat) : Nat := (x.feeds.filter (fun f => f.1 == e)).length

/-- The binding of the cell and engine that holds a copy equal to a descriptor (R267). -/
def State.matchCopy (s : State) (c e : Nat) (d : Desc) : Option Nat :=
  (s.busyBinds c).find? (fun b => (s.bind b).engine == e && (s.bind b).copies.contains d)

/-- Post a descriptor from a cell to an engine's queue (R226). One that equals a copy of the controller's is executed as the
controller's for the binding's round, and the copy is spent (R267). -/
def State.postFeed (s : State) (c e : Nat) (d : Desc) (token : Option Nat) : State :=
  let t := s.cellTenant c
  let hit := s.matchCopy c e d
  let round := hit.map (fun b => (s.bind b).round)
  let s := match hit with | some b => s.setBind b { s.bind b with copies := (s.bind b).copies.erase d } | none => s
  let s := s.updCell c fun x => { x with
    feeds := x.feeds ++ [(e, d, token)], flags := Nat.lor x.flags (b2n d.v) }
  s.setWork t e (s.work t e ++ [
    { source := .feed c (s.cell c).pc token, descs := [d], idx := 0, off := 0, preempted := false, resumed := false,
      varied := false, begun := false, round := round }])

/-- A FEED that waited for room is posted once there is room (R226). -/
def State.releaseFeed (s : State) (c : Nat) : State :=
  match (s.cell c).waiting with
  | .feedQueue e d token =>
    if (s.cell c).running && decide ((s.cell c).feedsOn e < feedDepth) then
      let s := s.postFeed c e d token
      (s.updCell c fun x => { x with waiting := .none }).goTo c ((s.cell c).pc + 1)
    else s
  | _ => s

/-- A cell whose program has reached HALT ends once its feeds have ended (R203). -/
def State.tryHalt (s : State) (c : Nat) : State :=
  let x := s.cell c
  if x.halting && x.feeds.isEmpty then (s.haltCell c .ok).endRun (s.cellGroup c) else s

/-- The clear of R126 starts on a cell: its program, where one still runs, ends with the status. -/
def State.startClear (s : State) (c : Nat) : State := s.updCell c fun x => { x with clearing := true }

/-- The clear of R126 ends: SRAM, accumulators and their groups, vector registers, instruction store, modulus table, tokens,
seal map and the counters of R153 are zero. -/
def Cell.cleared (x : Cell) : Cell :=
  { ({} : Cell) with
    haltedErr := x.haltedErr, lastStatus := x.lastStatus, work := x.work, fault := x.fault, pc := x.pc,
    errAddr := x.errAddr, linkBytes := x.linkBytes, linkRoute := x.linkRoute, lastToken := x.lastToken,
    waitTurns := x.waitTurns, feeds := x.feeds }

end Sys2Proof.Machine
end

