-- ==== Sys2Proof/Machine/Flags.lean ====
section
/-! DEFINITION. Machine/Flags.lean: the number formats of cells (R131 to R137,
R154, R181) with the conditions that CEL_ARITH counts, and the exact arithmetic behind them. -/

namespace Sys2Proof.Machine

/-! ### CEL_ARITH fields (R153) -/

/-- NONFINITE. -/
def arithNonfinite : Nat := 0
/-- ZQ_RANGE. -/
def arithZqRange : Nat := 1
/-- CVT_SAT. -/
def arithCvtSat : Nat := 2

/-! ### Modular arithmetic (R134 to R137) -/

/-- Newton steps for an inverse modulo 2^32: from `x` with `q x = 1` modulo 2^3 on. -/
def invStep (q : Nat) : Nat → Nat → Nat
  | 0, x => x
  | n + 1, x => invStep q n (x * (2 ^ 33 + 2 - q * x % 2 ^ 32) % 2 ^ 32)

/-- `-q^(-1) mod 2^32` for an odd q (R134). -/
def qinvOf (q : Nat) : Nat := (2 ^ 32 - invStep q 5 q) % 2 ^ 32
/-- `2^64 mod q` (R134). -/
def rsqOf (q : Nat) : Nat := 2 ^ 64 % q

/-- The Montgomery product of R136. -/
def montMul (a b q qinv : Nat) : Nat :=
  let t := a * b
  let m := t % 2 ^ 32 * qinv % 2 ^ 32
  let u := (t + m * q) / 2 ^ 32
  if q ≤ u then u - q else u

/-- A ZQ operand word as R137 takes it, and 1 where it is replaced by 0. -/
def zqTake (q w : Nat) : Nat × Nat :=
  let v := if q ≤ w then w - q else w
  if q ≤ v then (0, 1) else (v, 0)

/-! ### Floating formats (R131 to R133) -/

/-- A floating format: exponent bits, fraction bits, and whether it is E4M3, whose only special value is NaN. -/
structure FloatFmt where
  eb : Nat
  fb : Nat
  e4m3 : Bool := false
  deriving DecidableEq, Repr

/-- E4M3. -/
def e4m3 : FloatFmt := { eb := 4, fb := 3, e4m3 := true }
/-- E5M2. -/
def e5m2 : FloatFmt := { eb := 5, fb := 2 }
/-- BF16. -/
def bf16 : FloatFmt := { eb := 8, fb := 7 }
/-- FP16. -/
def fp16 : FloatFmt := { eb := 5, fb := 10 }
/-- FP32. -/
def fp32 : FloatFmt := { eb := 8, fb := 23 }

/-- An exact number `m` times 2 to the power `x`. -/
abbrev Exact := Int × Int

/-- Bias of a format. -/
def FloatFmt.bias (f : FloatFmt) : Nat := 2 ^ (f.eb - 1) - 1

/-- The exact value of a code; none for a NaN or an infinity (R131, R132). -/
def FloatFmt.value (f : FloatFmt) (v : Nat) : Option Exact :=
  let e := bits v f.fb f.eb
  let fr := bits v 0 f.fb
  let top := 2 ^ f.eb - 1
  if e = top && (!f.e4m3 || fr == 2 ^ f.fb - 1) then none
  else
    let m : Nat := if e = 0 then fr else fr + 2 ^ f.fb
    let x : Int := (if e = 0 then (1 : Int) else (e : Int)) - f.bias - f.fb
    some (if bitAt v (f.eb + f.fb) then -(m : Int) else m, x)

/-- The exact quotient of `m` times 2^x by 2^e, rounded to the nearest integer, ties to even (R169). -/
def alignTo (t : Exact) (e : Int) : Int :=
  if e ≤ t.2 then t.1 * 2 ^ (t.2 - e).toNat else roundHalfEven t.1 (e - t.2).toNat

/-- The code of an exact number, rounded to nearest even, and whether it was beyond the largest finite value and so
saturates; zero is +0 (R133, R181). -/
def FloatFmt.code (f : FloatFmt) (t : Exact) : Nat × Bool :=
  if t.1 = 0 then (0, false)
  else
    let sign := if t.1 < 0 then 2 ^ (f.eb + f.fb) else 0
    let m := t.1.natAbs
    let ex : Int := (log2Floor m : Int) + t.2
    let low : Int := 1 - (f.bias : Int)
    let qe := (if ex < low then low else ex) - f.fb
    let q := (alignTo ((m : Int), t.2) qe).toNat
    let largest := (2 ^ f.eb - 2) * 2 ^ f.fb + (2 ^ f.fb - 1)
    let tx : Int := (2 ^ f.eb - 2 : Nat) - (f.bias : Int) - f.fb
    let beyond := if tx ≤ t.2 then decide (2 ^ (f.fb + 1) - 1 < m * 2 ^ (t.2 - tx).toNat)
                else decide ((2 ^ (f.fb + 1) - 1) * 2 ^ (tx - t.2).toNat < m)
    if beyond then (sign + largest, true)
    else if ex < low then (sign + q, false)
    else
      let (q, qe) := if 2 ^ (f.fb + 1) ≤ q then (q / 2, qe + 1) else (q, qe)
      (sign + (qe + f.fb + f.bias).toNat * 2 ^ f.fb + q % 2 ^ f.fb, false)

/-- FP32 to BF16 or FP16 (R133), and whether it saturated: an infinity becomes the BF16 infinity or the largest FP16 value, a
NaN the canonical quiet NaN. A conversion of an FP32 zero keeps its sign (DEDUCED). -/
def cvtFp32 (f : FloatFmt) (v : Nat) : Nat × Bool :=
  let sign := if bitAt v 31 then 2 ^ (f.eb + f.fb) else 0
  match fp32.value v with
  | some (0, _) => (sign, false)
  | some t => f.code t
  | none =>
    if bits v 0 23 = 0 then
      if f = bf16 then (sign + (2 ^ f.eb - 1) * 2 ^ f.fb, false)
      else (sign + (2 ^ f.eb - 2) * 2 ^ f.fb + (2 ^ f.fb - 1), true)
    else ((2 ^ f.eb - 1) * 2 ^ f.fb + 2 ^ (f.fb - 1), false)

/-! ### 64-bit range of FX64 (R154, R169) -/

/-- -2^63. -/
def fxLow : Int := -(2 ^ 63)
/-- 2^63 - 1. -/
def fxHigh : Int := 2 ^ 63 - 1
/-- The value lies in the FX64 range. -/
def fxFits (v : Int) : Bool := decide (fxLow ≤ v) && decide (v ≤ fxHigh)
/-- Clamp towards the sign (R175). -/
def fxClamp (v : Int) : Int := if v < 0 then fxLow else fxHigh

end Sys2Proof.Machine
end

