-- ==== Sys2Proof/Machine/Operands.lean ====
section
/-! DEFINITION. Machine/Operands.lean: the operand forms of cell instructions: the stored word that each spells, the effective
address, and how a cell issues an instruction (R65, R201 to R204, R207, R210, R216 to R219). -/

namespace Sys2Proof.Machine

/-! ### The stored form (R216, R217, R219) -/

/-- The 26-bit code of an address operand (R217). -/
def addrCode (a : AddrOp) : Nat := a.base.val + 16 * (a.off % 2 ^ 22)

/-- The 128 bits of an instruction: opcode, V, SIG and SIG_TOKEN, and the operand fields as (lowest bit, width, value). -/
def cellWord (a : CellAt) (v : Bool) (op : Nat) (fields : List (Nat × Nat × Nat)) : InstrWord :=
  BitVec.ofNat 128 (packFields ([(0, 8, op), (8, 1, b2n v), (9, 1, b2n a.sig.isSome),
    (10, 6, match a.sig with | some t => t.val | none => a.idle.val)] ++ fields))

/-- The effective address of an address operand (R217). -/
def Cell.ea (x : Cell) (a : AddrOp) : Nat := ((x.sreg a.base.val).toNat + a.off) % 2 ^ 22

/-- The effective address misses an alignment: INSTR_ILLEGAL, detail 0x04 (R217). -/
def Cell.misaligned (x : Cell) (a : AddrOp) (al : Nat) : Bool := x.ea a % al != 0

/-- A failure of an instruction: status and detail code (R228). -/
abbrev Failure := Status × Nat

/-- INSTR_ILLEGAL with a detail code. -/
def illegal (d : Nat) : Failure := (.instrIllegal, d)

/-- The first failing check of a list in order. -/
def firstFailure : List (Bool × Failure) → Option Failure
  | [] => none
  | (b, e) :: r => if b then some e else firstFailure r

/-- How an instruction fails: the status and detail, the state at that point, and the work cycles that it has taken (R204, R210). -/
structure Failed where
  why : Failure
  at_ : State
  cycles : Nat := 1
  deriving DecidableEq, Repr

/-! ### Starting (R201, R202) -/

/-- A cell at the start of a program (R202). -/
def Cell.started (x : Cell) (entry : Nat) (args : List Nat) : Cell :=
  { x with
    running := true, pc := entry, loops := [], waiting := .none, waitTurns := 0, gsyncs := 0, halting := false
    sregs := (List.range 4).foldl (fun m i => Tab.put 0 m (12 + i) (BitVec.ofNat 64 (args.getD i 0))) []
    tokens := x.tokens.keep (fun t => decide (48 ≤ t))
    work := 0, fault := {}, flags := 0, satClosed := false, landing := 0 }

/-- Every cell of a run's group starts its program (R201, R202). -/
def State.beginRun (s : State) (r : ProgRun) : State :=
  let s := { s with progs := s.progs.map (fun (q : ProgRun) => if q == r then { q with begun := true } else q) }
  s.each (s.groupCells r.group) (fun s c => s.updCell c fun x => x.started r.entry r.args)

/-- A slot number counted from position 0. -/
def State.slotNumber (s : State) (p : Nat) : Nat := p / 2 ^ (s.spn.k - 6)

/-- The program that waits to start on a group starts with the first work cycle that it may have: in an owned slot later than
that of its acceptance (R201, R565). -/
def State.beginDue (s : State) (g : Nat) : State :=
  match s.runOf g with
  | some r =>
    if !r.begun && decide (s.slotNumber r.at_ < s.slotNumber s.pos) && s.mayIssue (s.groupOwner g) .cellGroup g then s.beginRun r
    else s
  | none => s

/-! ### Issue (R204, R207, R210) -/

/-- Every program whose first work cycle has come starts (R201). -/
def State.beginPrograms (s : State) : State := s.each (s.progs.filter (fun r => !r.begun)) (fun s r => s.beginDue r.group)

/-- Most work cycles of a step (R65, R209). -/
def stepCycles : Nat := 256

/-- The cell issues this word next, with a first step of so many work cycles: its program runs and does not wait, the word stands at its
instruction pointer, its group may issue in the current slot, and the step ends within the run of owned slots (R64, R65, R207). -/
def State.issues (s : State) (c : Nat) (w : InstrWord) (first : Nat) : Bool :=
  let x := s.cell c
  x.running && !x.halting && x.waiting == .none && decide (x.pc < x.store.length) && x.store.getD x.pc 0 == w &&
  s.mayIssue (s.cellTenant c) .cellGroup (s.cellGroup c) &&
  decide (first ≤ s.runCycles .cellGroup (s.cellGroup c) (s.cellTenant c))

/-- Count an instruction's work cycles (R210); `lat` is its latency (R130, R147). Where an earlier instruction of another unit may still
run, the cycles that the two share are counted once, and those for which it is held count too (R208); how many those are is open here,
up to the cost and the longest latency that it may wait for (notes/assumptions/13.md). -/
def Cell.addWork (x : Cell) (unit cost lat : Nat) : Cell :=
  let n := if x.landing = 0 then cost else Config.workCycles "overlap" [x.work, x.pc, unit, cost] % (cost + x.landing)
  { x with work := wrapAdd 64 x.work n, landing := if unit = 0 then x.landing else max x.landing (lat + 1) }

/-- A cell issues an instruction of a unit: where it is the cell's next, its effect takes place, or the instruction fails and
its group halts (R204). -/
def State.issue (s : State) (a : CellAt) (w : InstrWord) (unit cost lat : Nat) (body : State → Except Failed State) : State :=
  let c := a.cell.val
  let s1 := s.beginDue (s.cellGroup c)
  if s1.issues c w (min cost stepCycles) then
    match body (s1.updCell c fun x => x.addWork unit cost lat) with
    | .ok s' => s'
    | .error f =>
      ((f.at_.updCell c fun x => { x with work := wrapAdd 64 (s1.cell c).work f.cycles })).failCell c (s1.cell c).pc f.why.1 unit f.why.2
  else s

/-- A completing instruction of the ARR, ACC, VEC or NET unit raises its token, and the program goes on (R211). -/
def State.completeInstr (s : State) (a : CellAt) : State :=
  let c := a.cell.val
  let s := match a.sig with | some t => s.signalToken c t.val 1 | none => s
  if (s.cell c).running then s.goTo c ((s.cell c).pc + 1) else s

/-- An instruction that its cell abandons: the program has gone on, and no token is raised (R204). -/
def State.passInstr (s : State) (a : CellAt) : State :=
  if (s.cell a.cell.val).running then s.goTo a.cell.val ((s.cell a.cell.val).pc + 1) else s

/-- How an instruction of the ARR, ACC, VEC or NET unit runs: its cost and latency (R130, R147, R218), the steps into which it divides
(R209), the SRAM port it uses (R141, R153), whether it reads accumulators and cell SRAM, and the cell whose SRAM it writes. -/
structure UnitOp where
  unit : Nat
  cost : Nat
  lat : Nat := 0
  steps : Nat := 1
  port : Nat := 2
  acc : Bool := false
  sram : Bool := false
  target : Option Nat := none
  deriving DecidableEq, Repr

/-- The instruction meets this uncorrectable error: it reads what holds the error, and has that step. -/
def UnitOp.meets (o : UnitOp) (m : Met) : Option (Nat × CellUe) :=
  match m.ue with
  | some (n, .acc) => if o.acc && decide (n < o.steps) then some (n, .acc) else none
  | some (n, .sram a) => if o.sram && decide (n < o.steps) then some (n, .sram a) else none
  | _ => none

/-- An uncorrectable error counts in the cell that reads (R140, R144). -/
def Cell.meetsUe (x : Cell) (port : Nat) (u : CellUe) : Cell :=
  match u with
  | .acc => x.countErr errAccUe 1
  | .sram a => x.sramError a port
  | .link _ => x

/-- What the instruction meets besides, up to where it ends: corrected errors, which it reads corrected (R140, R144), and writes of other
ports in the cell it writes (R142). -/
def State.settle (s before : State) (c : Nat) (o : UnitOp) (m : Met) : State :=
  let s := s.updCell c fun x =>
    (x.countErr errSramCe (if o.sram then m.sramCe else 0)).countErr errAccCe (if o.acc then m.accCe else 0)
  let d := o.target.getD c
  if m.lost.isEmpty && m.beaten = 0 then s else s.updCell d fun x => x.collide (before.cell d) o.port m

/-- An instruction of the ARR, ACC, VEC or NET unit: its checks, then its effect, of which `effect n` is that of its first `n` steps. An
uncorrectable error fails it with MEM_UE and it writes nothing further (R140, R144); steps after a cut are abandoned (R204). -/
def State.unitInstr (s : State) (a : CellAt) (w : InstrWord) (o : UnitOp) (checks : State → List (Bool × Failure))
    (effect : Nat → State → Except Failed State) : State :=
  let c := a.cell.val
  s.issue a w o.unit o.cost o.lat fun s =>
    match firstFailure (checks s) with
    | some e => .error { why := e, at_ := s }
    | none =>
      match o.meets a.met with
      | some (n, u) =>
        match (if n = 0 then .ok s else effect n s) with
        | .error f => .error f
        | .ok s' => .error { why := (.memUe, 0), at_ := (s'.settle s c o a.met).updCell c fun x => x.meetsUe o.port u,
                             cycles := ceilDiv (o.cost * (n + 1)) o.steps }
      | none =>
        let n := match a.met.cut with | some n => min (max 1 n) o.steps | none => o.steps
        (effect n s).map fun s' =>
          let s' := s'.settle s c o a.met
          if n < o.steps then s'.passInstr a else s'.completeInstr a

/-- A CTL instruction that goes on with the next instruction. -/
def State.ctlInstr (s : State) (a : CellAt) (w : InstrWord) (cost : Nat) (f : State → State) : State :=
  s.issue a w 0 cost 0 fun s =>
    let s := f s
    .ok (if (s.cell a.cell.val).running then s.goTo a.cell.val ((s.cell a.cell.val).pc + 1) else s)

/-- The cell as the instruction reads it (R142, R208). -/
def State.seenCell (s : State) (a : CellAt) : Cell := (s.cell a.cell.val).seen a.met

end Sys2Proof.Machine
end

