-- ==== Sys2Proof/Machine/Accum.lean ====
section
/-! DEFINITION. Machine/Accum.lean: accumulation groups: capacity, the accumulator file, reduction with its overflow rules,
top-k, and the ACC instructions (R138 to R192). -/

namespace Sys2Proof.Machine

/-! ### Shapes and the accumulator file (R138, R160 to R166) -/

/-- Outputs per PE of a shape code; none for a code that is no shape (R160). -/
def shapeOutputs (shape : Nat) : Option Nat :=
  match shape with
  | 0x00 => some 1 | 0x01 => some 2 | 0x02 => some 2 | 0x03 => some 4 | 0x04 => some 8 | 0x05 => some 8 | 0x06 => some 16
  | 0x10 => some 1 | 0x11 => some 2 | 0x12 => some 4 | 0x13 => some 8 | 0x14 => some 16
  | _ => none

/-- The format takes whole registers: Z64 and FX64 (R154). -/
def wholeFormat (f : Nat) : Bool := f == 1 || f == 3
/-- Slots of one tile of the group as its outputs have them. -/
def AccGroup.outputs (g : AccGroup) : Nat := (shapeOutputs g.shape).getD 0
/-- Slots that ACCLD and ACCST may name: a top-k tile's are its 12 registers (R187). -/
def AccGroup.slots (g : AccGroup) : Nat := if g.topk then 12 else g.outputs
/-- The group's registers are whole ones. -/
def AccGroup.whole (g : AccGroup) : Bool := wholeFormat g.format
/-- Bytes of a slot's plane (R162). -/
def AccGroup.slotBytes (g : AccGroup) : Nat := if g.whole then 8192 else 4096
/-- The half at which a slot of a tile starts (R165, R166). -/
def AccGroup.half (g : AccGroup) (tile slot : Nat) : Nat := g.halves.getD (tile * g.slots + slot) 0
/-- Halves that an open group claims. -/
def AccGroup.claimed (g : AccGroup) : List Nat :=
  if g.isOpen then g.halves.flatMap (fun h => if g.whole then [h, h + 1] else [h]) else []
/-- Term count K of the group (R168). -/
def AccGroup.count (g : AccGroup) : Nat := g.terms.foldl (fun m e => max m e.2) 0

/-- Halves claimed in a cell: CEL_ACC_MAP.USED. -/
def Cell.claimed (x : Cell) : List Nat := (List.range 32).flatMap (fun g => (x.group g).claimed)
/-- Open groups of a cell. -/
def Cell.openGroups (x : Cell) : List Nat := (List.range 32).filter (fun g => (x.group g).isOpen)
/-- Tiles in progress in a cell: CEL_ACC_MAP.TILES. -/
def Cell.tilesOpen (x : Cell) : Nat := (x.openGroups.map (fun g => (x.group g).tiles)).sum

/-- Allocate `n` slots in order: the lowest register with both halves free, or the lowest free half (R165). -/
def allocate (whole : Bool) : Nat → List Nat → Option (List Nat)
  | 0, _ => some []
  | n + 1, used =>
    match (List.range 32).find? (fun h => (!whole || h % 2 == 0) && !used.contains h && (!whole || !used.contains (h + 1))) with
    | none => none
    | some h => (allocate whole n (if whole then h :: (h + 1) :: used else h :: used)).map (fun l => h :: l)

/-- The value of a PE's register, or half register (R138). -/
def Cell.accGet (x : Cell) (whole : Bool) (h p : Nat) : Nat :=
  let w := (Tab.look 0 x.acc (1024 * (h / 2) + p)).toNat
  if whole then w else bits w (32 * (h % 2)) 32
/-- Write a PE's register, or half register. -/
def Cell.accSet (x : Cell) (whole : Bool) (h p v : Nat) : Cell :=
  let k := 1024 * (h / 2) + p
  let w := (Tab.look 0 x.acc k).toNat
  let nw := if whole then v % 2 ^ 64
    else if h % 2 = 0 then w / 2 ^ 32 * 2 ^ 32 + v % 2 ^ 32
    else v % 2 ^ 32 * 2 ^ 32 + w % 2 ^ 32
  { x with acc := Tab.put 0 x.acc k (BitVec.ofNat 64 nw) }
/-- Change a whole plane, PE by PE (R138). -/
def Cell.mapPlane (x : Cell) (whole : Bool) (h : Nat) (f : Nat → Nat → Nat) : Cell :=
  (List.range 1024).foldl (fun x p => x.accSet whole h p (f p (x.accGet whole h p))) x
/-- Zero every register of a group. -/
def Cell.zeroGroup (x : Cell) (g : AccGroup) : Cell := g.halves.foldl (fun x h => x.mapPlane g.whole h (fun _ _ => 0)) x

/-! ### Opening (R157 to R159, R164, R165) -/

/-- The fields of a group descriptor (R157). -/
structure GroupDesc where
  group : Nat
  format : Nat
  shape : Nat
  tiles : Nat
  flags : Nat
  topk : Nat
  modulus : Nat
  round : Nat
  e : Int
  reserved : Bool
  source : Nat
  length : Nat
  deriving DecidableEq, Repr

/-- Read a group descriptor from its 32 bytes. -/
def parseGroup (b : List Byte) : GroupDesc :=
  { group := field b 0 1, format := field b 1 1, shape := field b 2 1, tiles := field b 3 1, flags := field b 4 1,
    topk := field b 5 1, modulus := field b 6 1, round := field b 7 1, e := toSigned 16 (field b 8 2),
    reserved := zeroAt b 10 6, source := field b 16 8, length := field b 24 8 }

/-- SEALED names a round of the tenant that is ARMED, COLLECTING, FROZEN or UNMASKING (R158). -/
def State.sealRound (s : State) (t h : Nat) : Bool :=
  decide (h < 64) && (s.round h).tenant == t &&
    (match (s.round h).state with
     | .armed => true | .collecting => true | .frozen => true | .unmasking => true | _ => false)

/-- Check 1 of R158, but for a modulus entry that is not VALID. DESIGN CHOICE: TERM_SOURCE and TERM_LENGTH, which are 'FX64 only', must be
0 for another format, as the other fields that a format does not use (notes/assumptions/45.md). -/
def State.groupFieldsOk (s : State) (t : Nat) (d : GroupDesc) : Bool :=
  let fx := d.format == 3
  let isSealed := bitAt d.flags 0
  let topk := bitAt d.flags 1
  decide (d.group < 32) && decide (d.format < 4) && (shapeOutputs d.shape).isSome && decide (1 ≤ d.tiles) && decide (d.tiles ≤ 32) &&
  decide (d.flags < 8) && (if topk then decide (1 ≤ d.topk) && decide (d.topk ≤ 8) else d.topk == 0) &&
  (if d.format = 2 then decide (d.modulus < 16) else d.modulus == 0) &&
  (if fx then decide (-512 ≤ d.e) && decide (d.e ≤ 511) else d.e == 0) && d.reserved &&
  (if fx then d.source % 64 == 0 && decide (d.source < 2 ^ 48) && d.length % 64 == 0 else d.source == 0 && d.length == 0) &&
  (!topk || (fx && (d.shape == 0 || d.shape == 0x10))) && !(bitAt d.flags 2 && fx) &&
  (if isSealed then s.sealRound t d.round else d.round == 0xFF)

/-- The slots that an open allocates, where the capacity rule admits its tiles (R163 to R165). -/
def Cell.admitCond (x : Cell) (d : GroupDesc) : Option (List Nat) :=
  let topk := bitAt d.flags 1
  let whole := wholeFormat d.format
  let n := d.tiles * (if topk then 12 else (shapeOutputs d.shape).getD 0)
  if x.openGroups.length < 32 && decide (x.claimed.length + n * (if whole then 2 else 1) ≤ 32) && decide (x.tilesOpen + d.tiles ≤ 32)
  then allocate whole n x.claimed else none

/-- The group that a descriptor of tenant `t` opens (R159). -/
def GroupDesc.opened (d : GroupDesc) (t : Nat) (halves : List Nat) : AccGroup :=
  { isOpen := true, sealed := bitAt d.flags 0, topk := bitAt d.flags 1, ingest := bitAt d.flags 2, format := d.format,
    shape := d.shape, tiles := d.tiles, topkK := d.topk, modulus := d.modulus, round := d.round, e := d.e,
    termSource := d.source, termLength := d.length, windowOpen := d.length != 0, halves := halves, owner := t }

/-- What a GOPEN of a descriptor fails, in the order of R158. -/
def State.openChecks (s : State) (c : Nat) (d : GroupDesc) : List (Bool × Failure) :=
  let x := s.cell c
  let t := s.cellTenant c
  [
    (!s.groupFieldsOk t d, illegal 0x0B),
    (d.format == 2 && !(Tab.look {} x.modulus d.modulus).valid, illegal 0x01),
    ((x.group d.group).isOpen, illegal 0x0C),
    ((x.admitCond d).isNone, (.accNoCapacity, 0)),
    (d.length != 0 && !s.mapped t d.source d.length, (.xlateFault, 0)),
    (d.length != 0 && !s.allPages t d.source d.length (fun p => (p.tier == 1 || p.tier == 2) && p.r), (.rights, 0))]

/-- Open a group from its descriptor; a failed open changes no state (R158, R159). -/
def State.openGroup (s : State) (c : Nat) (d : GroupDesc) : Except Failed State :=
  match firstFailure (s.openChecks c d) with
  | some e => .error { why := e, at_ := s }
  | none =>
    let t := s.cellTenant c
    let g := d.opened t (((s.cell c).admitCond d).getD [])
    let s := if d.length = 0 then s else s.lockPages t d.source d.length true
    .ok (s.updCell c fun x => (x.zeroGroup g).setGroup d.group g)

/-- GOPEN: open a group from its descriptor in cell SRAM; it takes 32 work cycles (R158, R159). -/
def execGopen (a : CellAt) (desc : AddrOp) (s : State) : Host.Outcome State Fault Refusal :=
  .next <| s.unitInstr a (cellWord a false 0x20 [(40, 26, addrCode desc)]) { unit := 2, cost := 32, port := 1, sram := true }
    (fun s =>
      let x := s.cell a.cell.val
      [(x.misaligned desc 32, illegal 0x04), (x.sealedRange (x.ea desc) 32 none, (.rights, 0))])
    (fun _ s =>
      let x := s.seenCell a
      s.openGroup a.cell.val (parseGroup (x.read (x.ea desc) 32)))

/-! ### The term-source window (R170, R172) -/

/-- The write lock of a group's term source ends where its window has closed (R172). -/
def State.unlockIfShut (s : State) (c : Nat) (before : AccGroup) (g : Nat) : State :=
  if before.windowOpen && !((s.cell c).group g).windowOpen then
    s.lockPages before.owner before.termSource before.termLength false
  else s

/-! ### Element formats of the array (R129, R131, R220) -/

/-- The operand format of one side of an array mode. -/
inductive ElemKind where
  | zq | z32 | z64 | u8 | i8 | i16
  | float (f : FloatFmt)
  deriving DecidableEq, Repr

/-- Operand formats of an MMA mode (R220). -/
def modeKinds (m : Nat) : Option (ElemKind × ElemKind) :=
  match m with
  | 0 => some (.zq, .zq) | 1 => some (.z32, .z32) | 2 => some (.z64, .z64)
  | 3 => some (.u8, .u8) | 4 => some (.u8, .i8) | 5 => some (.i8, .u8) | 6 => some (.i8, .i8)
  | 7 => some (.float e4m3, .float e4m3) | 8 => some (.float e4m3, .float e5m2)
  | 9 => some (.float e5m2, .float e4m3) | 10 => some (.float e5m2, .float e5m2)
  | 11 => some (.i16, .i16) | 12 => some (.float bf16, .float bf16) | 13 => some (.float fp16, .float fp16)
  | _ => none

/-- The mode is a packed one: four k in a 32-bit lane. -/
def packedMode (m : Nat) : Bool := decide (3 ≤ m) && decide (m ≤ 10)

/-- Bytes of one value in its lane, for the modes that are not packed (R220). -/
def modeWidth (m : Nat) : Nat := if m = 2 then 8 else if m < 11 then 4 else 2

/-- Accumulator formats that a mode adds into (R129). -/
def modeAdmits (m fmt : Nat) : Bool :=
  match m with
  | 0 => fmt == 2
  | 1 => fmt == 0
  | 2 => fmt == 1
  | 7 => fmt == 3 | 8 => fmt == 3 | 9 => fmt == 3 | 10 => fmt == 3 | 12 => fmt == 3 | 13 => fmt == 3
  | _ => fmt == 0 || fmt == 1 || fmt == 3

/-- Work cycles of an MMA: K, K/4 packed, 4K for Z64 (R218). -/
def mmaCost (m k : Nat) : Nat := if packedMode m then k / 4 else if m = 2 then 4 * k else k

/-- `w` bytes from an address on, as a number (R11). -/
def numberAt (byte : Nat → Byte) (a : Nat) : Nat → Nat
  | 0 => 0
  | w + 1 => (byte a).toNat + 256 * numberAt byte (a + 1) w

/-- The exact value of an element; none for a NaN or an infinity (R131, R132). -/
def ElemKind.value (k : ElemKind) (byte : Nat → Byte) (a : Nat) : Option Exact :=
  match k with
  | .zq => some (numberAt byte a 4, 0)
  | .z32 => some (numberAt byte a 4, 0)
  | .z64 => some (numberAt byte a 8, 0)
  | .u8 => some (numberAt byte a 1, 0)
  | .i8 => some (toSigned 8 (numberAt byte a 1), 0)
  | .i16 => some (toSigned 16 (numberAt byte a 2), 0)
  | .float f => f.value (numberAt byte a (if f.eb + f.fb < 8 then 1 else 2))

/-- Where an operand's value of index `i` for term `k` stands, from its base (R220). -/
def operandOffset (m i k : Nat) : Nat :=
  if packedMode m then k / 4 * 128 + 4 * i + k % 4 else k * 32 * modeWidth m + modeWidth m * i

/-- As operandOffset with A_CT: row-major 4 KiB blocks, read transposed (R143, R220). -/
def operandOffsetCt (i k : Nat) : Nat := k / 32 * 4096 + 128 * i + 4 * (k % 32)

/-- Where the value stands in the term source of a step: A's bytes and then B's for each work cycle (R171). -/
def sourceOffset (m : Nat) (isB : Bool) (i k : Nat) : Nat :=
  let half := if packedMode m then 128 else 32 * modeWidth m
  (if packedMode m then k / 4 * 256 + 4 * i + k % 4 else k * 64 * modeWidth m + modeWidth m * i) + (if isB then half else 0)

/-- The product of PE `p` at term `k`, exact; none where an operand is a NaN or an infinity (R128, R132). -/
def productAt (av bv : Nat → Nat → Option Exact) (p k : Nat) : Option Exact :=
  match av (p / 32) k, bv (p % 32) k with
  | some x, some y => some (x.1 * y.1, x.2 + y.2)
  | _, _ => none

/-! ### Sums in Z32, Z64 and ZQ (R154, R156) -/

/-- The group's modulus: 2^32, 2^64 or q. -/
def Cell.groupModulus (x : Cell) (g : AccGroup) : Nat :=
  match g.format with | 0 => 2 ^ 32 | 1 => 2 ^ 64 | _ => (Tab.look {} x.modulus g.modulus).q

/-- The group's modulus entry is there where its format needs one (R135). -/
def Cell.modulusOk (x : Cell) (g : AccGroup) : Bool := g.format != 2 || (Tab.look {} x.modulus g.modulus).valid

/-- A value of the group's register as a residue (R137). -/
def residue (q fmt v : Nat) : Nat := if fmt = 2 then (zqTake q v).1 else v

/-- Words of a register plane of a ZQ group that R137 replaces by 0. -/
def Cell.planeReplaced (x : Cell) (g : AccGroup) (q h : Nat) : Nat :=
  if g.format = 2 then ((List.range 1024).map (fun p => (zqTake q (x.accGet g.whole h p)).2)).sum else 0

/-- Add to a slot of a modular group, PE by PE, and count its terms (R156, R168); a register's word is a ZQ operand too (R137). -/
def Cell.addModular (x : Cell) (gi tile slot terms : Nat) (add : Nat → Int) : Cell :=
  let g := x.group gi
  let m := x.groupModulus g
  let x := x.countArith arithZqRange (x.planeReplaced g m (g.half tile slot))
  let x := x.mapPlane g.whole (g.half tile slot) (fun p v => (((residue m g.format v : Int) + add p) % (m : Int)).toNat)
  let k := 16 * tile + slot
  x.setGroup gi { g with terms := Tab.put 0 g.terms k (Tab.look 0 g.terms k + terms) }

/-! ### FX64 and top-k (R169 to R180) -/

/-- One output of a group: the half at which its register starts, its PE, and its number in the tile order. -/
structure FxOut where
  half : Nat
  pe : Nat
  idx : Nat
  deriving DecidableEq, Repr

/-- The outputs of one slot. -/
def AccGroup.outs (g : AccGroup) (tile slot : Nat) : List FxOut :=
  (List.range 1024).map (fun p => { half := g.half tile slot, pe := p, idx := (tile * g.outputs + slot) * 1024 + p })

/-- The value of an FX64 output. -/
def Cell.fxGet (x : Cell) (o : FxOut) : Int := toSigned 64 (x.accGet true o.half o.pe)
/-- Write an FX64 output. -/
def Cell.fxSet (x : Cell) (o : FxOut) (v : Int) : Cell := x.accSet true o.half o.pe (ofSigned 64 v)

/-- Half that holds position `i` of a top-k tile whose registers start at the halves given (R166). -/
def topkPosHalf (halves : List Nat) (i : Nat) : Nat := halves.getD (8 + i / 2) 0 + i % 2

/-- The kept values and positions of a PE, in rank order (R179). -/
def Cell.topkGet (x : Cell) (g : AccGroup) (p n : Nat) : List (Int × Nat) :=
  (List.range (min n g.topkK)).map (fun i =>
    (toSigned 64 (x.accGet true (g.halves.getD i 0) p), x.accGet false (topkPosHalf g.halves i) p))

/-- Rank a term among kept ones: by value, largest first, and then by position, lowest first (R179). -/
def topkInsert (v : Int) (pos : Nat) : List (Int × Nat) → List (Int × Nat)
  | [] => [(v, pos)]
  | (w, q) :: r => if w < v || (w == v && decide (pos < q)) then (v, pos) :: (w, q) :: r else (w, q) :: topkInsert v pos r

/-- Write the kept values and positions of a PE. -/
def Cell.topkSet (x : Cell) (g : AccGroup) (p : Nat) (l : List (Int × Nat)) : Cell :=
  l.zipIdx.foldl (fun x (e, i) =>
    (x.accSet true (g.halves.getD i 0) p (ofSigned 64 e.1)).accSet false (topkPosHalf g.halves i) p e.2) x

/-- Keep a term in a top-k output if it ranks among the k largest (R179). -/
def Cell.topkKeep (x : Cell) (g : AccGroup) (p pos : Nat) (v : Int) : Cell :=
  x.topkSet g p ((topkInsert v pos (x.topkGet g p pos)).take g.topkK)

/-- Place a term's result: add into the register, or keep it with its position. -/
def Cell.fxPlace (x : Cell) (g : AccGroup) (pos : Nat) (o : FxOut) (v : Int) : Cell :=
  if g.topk then x.topkKeep g o.pe pos v else x.fxSet o v

/-- The registers that hold values: the first k of a top-k tile (R166, R180). -/
def AccGroup.valueHalves (g : AccGroup) : List Nat := if g.topk then g.halves.take g.topkK else g.halves

/-- The in-place shift by 8 bits, rounding half to even (R173, R176). Values of a top-k output that become equal rank by position (R179);
`kept` is how many terms an output has kept so far. -/
def Cell.fxShift (x : Cell) (g : AccGroup) (kept : Nat → Nat) : Cell :=
  let x := g.valueHalves.foldl (fun x h => x.mapPlane true h (fun _ v => ofSigned 64 (roundHalfEven (toSigned 64 v) 8))) x
  if g.topk then
    (List.range 1024).foldl (fun x p =>
      x.topkSet g p ((x.topkGet g p (kept p)).foldl (fun l e => topkInsert e.1 e.2 l) [])) x
  else x

/-- One term position over its outputs (R169), with the overflow events it raises (R173, R175); true where a repeat begins.
`val` gives an output's exact new value at exponent e; `fuel` exceeds the events that one position can raise. -/
def Cell.fxTerm (gi pos : Nat) (val : Cell → Int → FxOut → Int) : Nat → List FxOut → Cell → Cell × Bool
  | 0, _, x => (x, false)
  | fuel + 1, outs, x =>
    let g := x.group gi
    let (x, past) := outs.foldl (fun (a : Cell × List FxOut) o =>
      let v := val a.1 g.e o
      if fxFits v then (a.1.fxPlace g pos o v, a.2)
      else if g.saturated then (a.1.fxPlace g pos o (fxClamp v), a.2)
      else (a.1, a.2 ++ [o])) (x, [])
    if past.isEmpty then (x, false)
    else if g.windowOpen && decide (g.repeats < 3) && decide (g.e + 8 ≤ 511) then
      ((x.zeroGroup g).setGroup gi { g with e := g.e + 8, repeats := g.repeats + 1, terms := [], operandBytes := 0 }, true)
    else if g.windowOpen || decide (511 < g.e + 8) then
      Cell.fxTerm gi pos val fuel past (x.setGroup gi { g with saturated := true })
    else
      Cell.fxTerm gi pos val fuel past ((x.fxShift g (fun p => if past.any (fun o => o.pe == p) then pos else pos + 1)).setGroup gi
        { g with e := g.e + 8, inplace := satAdd 8 g.inplace 1 })

/-- More events than one term position can raise: E rises by 8 at each, from -512 to 511, and one saturates. -/
def fxFuel : Nat := 160

/-- A step of an FX64 group, or the fused operation of its close. -/
structure FxJob where
  tile : Nat
  slot : Nat
  /-- term positions -/
  n : Nat
  /-- term positions in a work cycle -/
  perCycle : Nat
  /-- operand bytes that a work cycle reads -/
  cycleBytes : Nat
  /-- the step is replayed (R174) -/
  replay : Bool
  term : Nat → Nat → Option Exact

/-- Products of a term position that count in NONFINITE (R132). -/
def FxJob.nonfinite (j : FxJob) (k : Nat) : Nat := ((List.range 1024).filter (fun p => (j.term p k).isNone)).length

/-- Count a term position: the output's terms, the operand bytes of its work cycle, and the window's limits (R168, R170). -/
def Cell.fxCount (x : Cell) (gi : Nat) (j : FxJob) (k : Nat) : Cell :=
  let g := x.group gi
  let key := 16 * j.tile + j.slot
  let g := { g with
    terms := Tab.put 0 g.terms key (Tab.look 0 g.terms key + 1)
    operandBytes := g.operandBytes + (if k % j.perCycle = 0 then j.cycleBytes else 0) }
  let g := { g with windowOpen := g.windowOpen && decide (g.count ≤ 2 ^ 24) && decide (g.operandBytes ≤ g.termLength) }
  let x := x.setGroup gi g
  if j.replay && k % j.perCycle == 0 then { x with work := wrapAdd 64 x.work 1 } else x

/-- Run the term positions of a step from `k` on; true where a repeat begins. -/
def Cell.fxJob (gi : Nat) (j : FxJob) : Nat → Nat → Cell → Cell × Bool
  | 0, _, x => (x, false)
  | fuel + 1, k, x =>
    let x := (x.countArith arithNonfinite (j.nonfinite k)).fxCount gi j k
    let g := x.group gi
    let val := fun (x : Cell) (e : Int) (o : FxOut) =>
      (if g.topk then 0 else x.fxGet o) + alignTo ((j.term o.pe k).getD (0, 0)) e
    let (x, again) := Cell.fxTerm gi (Tab.look 0 g.terms (16 * j.tile + j.slot) - 1) val fxFuel (g.outs j.tile j.slot) x
    if again then (x, true) else Cell.fxJob gi j fuel (k + 1) x

/-- Run steps in order; true where a repeat begins. -/
def Cell.fxJobs (gi : Nat) : List FxJob → Cell → Cell × Bool
  | [], x => (x, false)
  | j :: r, x =>
    let (x, again) := Cell.fxJob gi j j.n 0 x
    if again then (x, true) else Cell.fxJobs gi r x

/-- Run steps, and a tail after them, starting again with the replay's steps at each repeat (R174). -/
def Cell.fxRun (gi : Nat) (replay : List FxJob) (tail : Cell → Cell × Bool) : Nat → List FxJob → Cell → Cell
  | 0, _, x => x
  | fuel + 1, jobs, x =>
    let (x, again) := Cell.fxJobs gi jobs x
    let (x, again) := if again then (x, true) else tail x
    if again then Cell.fxRun gi replay tail fuel replay x else x

/-- The first pass and the three repeats that a group may have (R174). -/
def fxPasses : Nat := 4

/-- The step of a history entry, its operands read from the term source (R171, R174). -/
def replayJob (byte : Nat → Byte) (base : Nat) (t : TermStep) : FxJob :=
  let kinds := (modeKinds t.mode).getD (.u8, .u8)
  { tile := t.tile, slot := t.slot, n := t.k, perCycle := if packedMode t.mode then 4 else 1,
    cycleBytes := if packedMode t.mode then 256 else 64 * modeWidth t.mode, replay := true,
    term := productAt (fun i k => kinds.1.value byte (base + sourceOffset t.mode false i k))
      (fun i k => kinds.2.value byte (base + sourceOffset t.mode true i k)) }

/-- Operand bytes that a step reads. -/
def TermStep.bytes (t : TermStep) : Nat := if packedMode t.mode then t.k / 4 * 256 else t.k * 64 * modeWidth t.mode

/-- The replay of a group's steps from the first. -/
def replayJobs (byte : Nat → Byte) : Nat → List TermStep → List FxJob
  | _, [] => []
  | base, t :: r => replayJob byte base t :: replayJobs byte (base + t.bytes) r

/-- Completion flags that a group's repeats and in-place rescales earn (R177). -/
def AccGroup.earned (g : AccGroup) : Nat :=
  (if g.repeats = 0 then 0 else flagVaried + flagRescaled) + (if g.inplace = 0 then 0 else flagInplace)

/-- Note what a group's sums have earned for the completion (R177). -/
def Cell.noteFlags (x : Cell) (gi : Nat) : Cell := { x with flags := Nat.lor x.flags (x.group gi).earned }

/-- What a repeat fails of when it reads a group's term source: a page is gone, or broken (R174). DEDUCED from the faults of feed reads
(notes/assumptions/45.md). -/
def State.sourceFailure (s : State) (g : AccGroup) : List (Bool × Failure) :=
  [(!s.mapped g.owner g.termSource g.termLength, (.xlateFault, 0)),
   (!s.allPages g.owner g.termSource g.termLength (fun p => !p.broken), (.memUe, 0))]

/-- The bytes of a group's term source (R171). -/
def State.sourceByte (s : State) (g : AccGroup) (i : Nat) : Byte := s.vaByte g.owner (g.termSource + i) [] 0

/-! ### Array steps: MMA, EWADD and MASK (R128, R129, R218 to R220) -/

/-- What an instruction that names a slot range of a group is checked for: the group is open, its modulus entry valid, the
tile and slots within its shape (R135, R228). -/
def Cell.groupChecks (x : Cell) (gi tile last slots : Nat) : List (Bool × Failure) :=
  let g := x.group gi
  [(!g.isOpen, illegal 0x02), (!x.modulusOk g, illegal 0x01), (decide (g.tiles ≤ tile) || decide (slots ≤ last), illegal 0x03)]

/-- The bytes of cell SRAM as a function of their address. -/
def Cell.byteAt (x : Cell) (a : Nat) : Byte := Tab.look 0 x.sram (a % sramBytes)

/-- ZQ words of a step that R137 replaces by 0. -/
def zqReplaced (q : Nat) (av bv : Nat → Nat → Option Exact) (n : Nat) : Nat :=
  ((List.range n).map (fun k => ((List.range 32).map (fun i =>
    (zqTake q ((av i k).getD (0, 0)).1.toNat).2 + (zqTake q ((bv i k).getD (0, 0)).1.toNat).2)).sum)).sum

/-- A matrix-mode step sequence on a modular group: each PE adds its products (R128, R136). -/
def Cell.mmaModular (x : Cell) (gi tile slot m k : Nat) (av bv : Nat → Nat → Option Exact) : Cell :=
  let g := x.group gi
  let e := Tab.look {} x.modulus g.modulus
  let one := fun (p j : Nat) =>
    if m = 0 then (montMul (zqTake e.q ((av (p / 32) j).getD (0, 0)).1.toNat).1 (zqTake e.q ((bv (p % 32) j).getD (0, 0)).1.toNat).1
      e.q e.qinv : Int)
    else ((productAt av bv p j).getD (0, 0)).1
  let x := if m = 0 then x.countArith arithZqRange (zqReplaced e.q av bv k) else x
  x.addModular gi tile slot k (fun p => ((List.range k).map (one p)).sum)

/-- The step of an MMA, as a job of its group. -/
def TermStep.job (t : TermStep) (av bv : Nat → Nat → Option Exact) : FxJob :=
  { tile := t.tile, slot := t.slot, n := t.k, perCycle := if packedMode t.mode then 4 else 1,
    cycleBytes := if packedMode t.mode then 256 else 64 * modeWidth t.mode, replay := false,
    term := productAt av bv }

/-- A step joins its group's history, which a repeat reads (R174). -/
def Cell.noteStep (x : Cell) (gi : Nat) (t : TermStep) : Cell :=
  let g := x.group gi
  x.setGroup gi { g with steps := if g.windowOpen then g.steps ++ [t] else [] }

/-- A matrix-mode step sequence on an FX64 group (R169 to R174). -/
def Cell.mmaFx (x : Cell) (gi : Nat) (t : TermStep) (av bv : Nat → Nat → Option Exact) (source : Nat → Byte) : Cell :=
  let g := x.group gi
  (Cell.fxRun gi (replayJobs source 0 (g.steps ++ [t])) (fun x => (x, false)) fxPasses [t.job av bv] (x.noteStep gi t)).noteFlags gi

/-- Terms of an MMA's step of 256 issue work cycles (R209, R218). -/
def mmaStepTerms (m : Nat) : Nat := if packedMode m then 4 * stepCycles else if m = 2 then stepCycles / 4 else stepCycles

/-- Latency of a step that adds into a group (R130). -/
def AccGroup.latency (g : AccGroup) (m : Nat) : Nat := if g.format = 3 then 7 else if m = 2 then 8 else 5

/-- MMA: a matrix-mode step sequence into one slot of a group's tile (R128, R129, R220). A repeat whose term source cannot be read fails it,
with the group as the repeat left it (R173, R174). -/
def execMma (at_ : CellAt) (group tile : Fin 32) (slot : Fin 16) (mode : Fin 16) (aCt : Bool) (a b : AddrOp) (k : Nat) (s : State) :
    Host.Outcome State Fault Refusal :=
  let w := cellWord at_ false 0x30 [(16, 5, group.val), (21, 5, tile.val), (26, 4, slot.val), (30, 4, mode.val), (34, 1, b2n aCt),
    (40, 26, addrCode a), (66, 26, addrCode b), (92, 12, k - 1)]
  let c := at_.cell.val
  let m := mode.val
  let op : UnitOp := { unit := 1, cost := mmaCost m k, lat := ((s.cell c).group group.val).latency m,
                       steps := ceilDiv k (mmaStepTerms m), port := 0, acc := true, sram := true }
  .next <| s.unitInstr at_ w op
    (fun s =>
      let x := s.cell c
      let g := x.group group.val
      let bytes := if packedMode m then k * 32 else k * 32 * modeWidth m
      let aBytes := if aCt then ceilDiv k 32 * 4096 else bytes
      [(x.misaligned a (if aCt then 4096 else 64) || x.misaligned b 64, illegal 0x04), (!g.isOpen, illegal 0x02),
        (!modeAdmits m g.format, illegal 0x02)] ++ x.groupChecks group.val tile.val slot.val g.outputs ++
        [(g.topk && decide (2 ^ 32 - 1 < Tab.look 0 g.terms (16 * tile.val + slot.val) + k), illegal 0x02),
         (x.sealedRange (x.ea a) aBytes none || x.sealedRange (x.ea b) bytes none, (.rights, 0))])
    (fun n s =>
      let x := s.seenCell at_
      let g := x.group group.val
      let k := min k (n * mmaStepTerms m)
      let kinds := (modeKinds m).getD (.u8, .u8)
      let av := fun i j => kinds.1.value x.byteAt (x.ea a + (if aCt then operandOffsetCt i j else operandOffset m i j))
      let bv := fun i j => kinds.2.value x.byteAt (x.ea b + operandOffset m i j)
      if g.format = 3 then
        let step : TermStep := { mode := m, tile := tile.val, slot := slot.val, k := k, aCt := aCt }
        let s' := s.updCell c fun x => x.mmaFx group.val step av bv (s.sourceByte g)
        match (if ((s'.cell c).group group.val).repeats = g.repeats then none else firstFailure (s.sourceFailure g)) with
        | some e => .error { why := e, cycles := mmaCost m k, at_ := s.updCell c fun x =>
            (Cell.fxJobs group.val [step.job av bv] (x.noteStep group.val step)).1.noteFlags group.val }
        | none => .ok (s'.unlockIfShut c g group.val)
      else .ok (s.updCell c fun x => x.mmaModular group.val tile.val slot.val m k av bv))

/-- Passes of an element-wise step into consecutive slots: each PE adds or subtracts its element (R128, R161). -/
def Cell.elementwise (x : Cell) (gi tile first : Nat) (sub : Bool) (element : Nat → Nat → Nat) (passes : Nat) : Cell :=
  let g := x.group gi
  let q := x.groupModulus g
  let take := fun i p => if g.format = 2 then (zqTake q (element i p)).1 else element i p
  let replaced := if g.format = 2 then
      ((List.range passes).map (fun i => ((List.range 1024).map (fun p => (zqTake q (element i p)).2)).sum)).sum
    else 0
  (List.range passes).foldl (fun x i => x.addModular gi tile (first + i) 1 (fun p => if sub then -(take i p : Int) else take i p))
    (x.countArith arithZqRange replaced)

/-- The checks of a step that adds elements: not FX64 (R129). -/
def Cell.elementChecks (x : Cell) (gi tile last : Nat) : List (Bool × Failure) :=
  let g := x.group gi
  [(!g.isOpen || g.format == 3, illegal 0x02)] ++ x.groupChecks gi tile last g.outputs

/-- Bytes of an element of the group's format. -/
def AccGroup.elemBytes (g : AccGroup) : Nat := if g.whole then 8 else 4

/-- Passes of an element-wise step that fit in a step of 256 work cycles (R209). -/
def AccGroup.stepPasses (g : AccGroup) : Nat := stepCycles / (4 * g.elemBytes)

/-- EWADD: element-wise add or subtract from SRAM (R128). A sealed block may be read into a sealed group of its round (R189,
R264). -/
def execEwadd (a : CellAt) (group tile : Fin 32) (firstSlot : Fin 16) (passes : Nat) (sub : Bool) (src : AddrOp) (s : State) :
    Host.Outcome State Fault Refusal :=
  let w := cellWord a false 0x31 [(16, 5, group.val), (21, 5, tile.val), (26, 4, firstSlot.val), (30, 5, passes), (35, 1, b2n sub),
    (40, 26, addrCode src)]
  let g0 := (s.cell a.cell.val).group group.val
  let op : UnitOp := { unit := 1, cost := passes * (4 * g0.elemBytes), lat := 5, steps := ceilDiv passes g0.stepPasses, port := 0,
                       acc := true, sram := true }
  .next <| s.unitInstr a w op
    (fun s =>
      let x := s.cell a.cell.val
      let g := x.group group.val
      [(x.misaligned src 256, illegal 0x04)] ++ x.elementChecks group.val tile.val (firstSlot.val + passes - 1) ++
        [(x.sealedRange (x.ea src) (passes * 1024 * g.elemBytes) (if g.sealed then some g.round else none), (.rights, 0))])
    (fun n s =>
      let x := s.seenCell a
      let eb := (x.group group.val).elemBytes
      .ok (s.updCell a.cell.val fun y => y.elementwise group.val tile.val firstSlot.val sub
        (fun i p => numberAt x.byteAt (x.ea src + (i * 1024 + p) * eb) eb) (min passes (n * g0.stepPasses))))

/-- The mask stream that a cell's binding names (R225). -/
def Cell.stream (x : Cell) (i : Nat) : Option StreamBind := Tab.look none x.streams i

/-- The checks of an instruction that names a mask stream (R225). -/
def State.streamChecks (s : State) (c i : Nat) : List (Bool × Failure) :=
  [(((s.cell c).stream i).isNone, illegal 0x05), (!s.ownsSlot .maskExpander (c / 2) (s.cellTenant c), (.budget, 0))]

/-- The current slot is one in which the expander delivers to the cell, its table gives it to the cell's tenant, and a step of so many
work cycles ends within it (R148, R209); an instruction that fails anyway does not wait for one. -/
def State.streamSlot (s : State) (c i cycles : Nat) : Bool :=
  (firstFailure (s.streamChecks c i)).isSome ||
  (s.mayIssue (s.cellTenant c) .maskExpander (c / 2) && s.slotOf s.pos % 2 == c % 2 &&
    decide (cycles ≤ ((s.pos / 2 ^ (s.spn.k - 6) + 1) * 2 ^ (s.spn.k - 6) - s.pos) * s.spn.ratio))

/-- MASK: element-wise add or subtract of a mask stream (R148, R225); stream element n meets tile element n (R161). -/
def execMask (a : CellAt) (group tile : Fin 32) (firstSlot : Fin 16) (passes : Nat) (sub : Bool) (stream : Fin 4) (s : State) :
    Host.Outcome State Fault Refusal :=
  let w := cellWord a false 0x32 [(16, 5, group.val), (21, 5, tile.val), (26, 4, firstSlot.val), (30, 5, passes), (35, 1, b2n sub),
    (36, 2, stream.val)]
  let c := a.cell.val
  let g0 := (s.cell c).group group.val
  if s.streamSlot c stream.val (32 * g0.elemBytes) then
    .next <| s.unitInstr a w { unit := 1, cost := passes * (32 * g0.elemBytes), lat := 5, steps := passes, port := 0, acc := true }
      (fun s => (s.cell c).elementChecks group.val tile.val (firstSlot.val + passes - 1) ++ s.streamChecks c stream.val)
      (fun n s =>
        let x := s.cell c
        let g := x.group group.val
        let l := match x.stream stream.val with | some b => b.elements | none => []
        .ok (s.updCell c fun x => x.elementwise group.val tile.val firstSlot.val sub
          (fun i p => l.getD ((tile.val * g.outputs + firstSlot.val + i) * 1024 + p) 0 % 2 ^ (8 * g.elemBytes)) n))
  else .next s

/-! ### Loads, stores and seals (R187 to R189) -/

/-- The plane of a slot as it is stored: byte w p holds the register of PE p (R139, R162). -/
def Cell.planeBytes (x : Cell) (g : AccGroup) (tile slot : Nat) : List Byte :=
  (List.range 1024).flatMap (fun p => leBytes g.elemBytes (x.accGet g.whole (g.half tile slot) p))

/-- An accumulator-port write of a group to a range meets a seal that forbids it (R188, R189). -/
def Cell.storeForbidden (x : Cell) (g : AccGroup) (a n : Nat) : Bool :=
  x.sealedRange a n (if g.sealed then some g.round else none)

/-- Write through the accumulator port; a sealed group seals the blocks it writes (R189). -/
def Cell.storeBytes (x : Cell) (g : AccGroup) (a : Nat) (bs : List Byte) : Cell :=
  let x := x.write a bs
  if g.sealed then x.sealRange a bs.length g.round else x

/-- Slots that the accumulator port moves in a step of 256 work cycles (R139, R209). -/
def AccGroup.stepSlots (g : AccGroup) : Nat := stepCycles / (g.slotBytes / 256)

/-- ACCLD: load tile slots from SRAM (R187); a load into an FX64 group closes its repeat window (R170). -/
def execAccld (a : CellAt) (group tile : Fin 32) (firstSlot : Fin 16) (slots : Nat) (src : AddrOp) (s : State) :
    Host.Outcome State Fault Refusal :=
  let w := cellWord a false 0x22 [(16, 5, group.val), (21, 5, tile.val), (26, 4, firstSlot.val), (30, 5, slots), (40, 26, addrCode src)]
  let g0 := (s.cell a.cell.val).group group.val
  let op : UnitOp := { unit := 2, cost := slots * (g0.slotBytes / 256), steps := ceilDiv slots g0.stepSlots, port := 1, sram := true }
  .next <| s.unitInstr a w op
    (fun s =>
      let x := s.cell a.cell.val
      let g := x.group group.val
      [(x.misaligned src 256, illegal 0x04), (!g.isOpen, illegal 0x02),
        (decide (g.tiles ≤ tile.val) || decide (g.slots < firstSlot.val + slots), illegal 0x03),
        (x.sealedRange (x.ea src) (slots * g.slotBytes) (if g.sealed then some g.round else none), (.rights, 0))])
    (fun n s =>
      let x := s.seenCell a
      let g := x.group group.val
      let put := fun (y : Cell) (i : Nat) => y.mapPlane g.whole (g.half tile.val (firstSlot.val + i)) (fun p _ =>
        numberAt x.byteAt (x.ea src + i * g.slotBytes + p * g.elemBytes) g.elemBytes)
      let s := s.updCell a.cell.val fun y =>
        ((List.range (min slots (n * g0.stepSlots))).foldl put y).setGroup group.val { g with windowOpen := false, steps := [] }
      .ok (s.unlockIfShut a.cell.val g group.val))

/-- ACCST: store tile slots to SRAM (R187); a sealed group's store seals the blocks it writes (R188, R189). -/
def execAccst (a : CellAt) (group tile : Fin 32) (firstSlot : Fin 16) (slots : Nat) (dst : AddrOp) (s : State) :
    Host.Outcome State Fault Refusal :=
  let w := cellWord a false 0x23 [(16, 5, group.val), (21, 5, tile.val), (26, 4, firstSlot.val), (30, 5, slots), (40, 26, addrCode dst)]
  let g0 := (s.cell a.cell.val).group group.val
  let op : UnitOp := { unit := 2, cost := slots * (g0.slotBytes / 256), steps := ceilDiv slots g0.stepSlots, port := 1, acc := true }
  .next <| s.unitInstr a w op
    (fun s =>
      let x := s.cell a.cell.val
      let g := x.group group.val
      [(x.misaligned dst 256, illegal 0x04), (!g.isOpen, illegal 0x02),
        (decide (g.tiles ≤ tile.val) || decide (g.slots < firstSlot.val + slots), illegal 0x03),
        (x.storeForbidden g (x.ea dst) (slots * g.slotBytes), (.rights, 0))])
    (fun n s =>
      .ok (s.updCell a.cell.val fun x => x.storeBytes (x.group group.val) (x.ea dst)
        ((List.range (min slots (n * g0.stepSlots))).flatMap (fun i =>
          x.planeBytes (x.group group.val) tile.val (firstSlot.val + i)))))

/-! ### Closing (R181 to R186) -/

/-- The fused operations that a format takes; a top-k group takes none (R180, R182). -/
def AccGroup.fusedOk (g : AccGroup) (fused : Nat) : Bool :=
  if g.topk then fused == 0 else if g.format = 3 then decide (fused ≤ 3) else decide (fused ≤ 5)

/-- Bytes of one output word of a close: the accumulator format, BF16 or FP32 (R181). -/
def AccGroup.outBytes (g : AccGroup) (out : Nat) : Nat := match out with | 0 => g.elemBytes | 1 => 2 | _ => 4

/-- Bytes that a close writes. -/
def AccGroup.closeBytes (g : AccGroup) (out : Nat) : Nat :=
  if g.topk then 8192 * (g.outBytes out + 4) else g.tiles * g.outputs * 1024 * g.outBytes out

/-- Bytes that the fused operand of a close has, in SRAM or in its stream (R182). -/
def AccGroup.operandSize (g : AccGroup) (fused : Nat) : Nat :=
  match fused with
  | 1 => g.tiles * g.outputs * 1024 * g.elemBytes
  | 2 => g.tiles * g.outputs * 1024 * (if g.format = 3 then 2 else g.elemBytes)
  | 4 => g.tiles * g.outputs * 1024 * g.elemBytes
  | 5 => g.tiles * g.outputs * 1024 * g.elemBytes
  | _ => 0

/-- Work cycles of a close (R184); those spent only waiting for a stream do not count (R210). -/
def AccGroup.closeCost (g : AccGroup) (out fused : Nat) : Nat :=
  ceilDiv (max (g.closeBytes out) (g.operandSize fused)) 256 + 8

/-- Steps of a close: 256 work cycles of its cost each, or a plane of its stream each (R209). -/
def AccGroup.closeSteps (g : AccGroup) (out fused : Nat) : Nat :=
  if 4 ≤ fused then g.tiles * g.outputs else ceilDiv (g.closeCost out fused) stepCycles

/-- The slots of a group in the order of R162: tile, slot. -/
def AccGroup.order (g : AccGroup) : List (Nat × Nat) :=
  (List.range g.tiles).flatMap (fun t => (List.range g.slots).map (fun i => (t, i)))

/-- A fused operation on a modular group (R182); `opnd` is the operand of an output. -/
def Cell.fusedModular (x : Cell) (gi fused : Nat) (opnd : Nat → Nat) : Cell :=
  let g := x.group gi
  let m := x.groupModulus g
  let e := Tab.look {} x.modulus g.modulus
  let checkedOp := g.format == 2
  let take := fun i => if checkedOp then (zqTake m (opnd i)).1 else opnd i
  let count := if checkedOp then ((List.range (g.tiles * g.outputs * 1024)).map (fun i => (zqTake m (opnd i)).2)).sum +
    (g.order.map (fun (t, sl) => x.planeReplaced g m (g.half t sl))).sum else 0
  g.order.foldl (fun x (t, sl) => x.mapPlane g.whole (g.half t sl) (fun p v =>
    let i := (t * g.outputs + sl) * 1024 + p
    let v := residue m g.format v
    match fused with
    | 1 => (v + take i) % m
    | 4 => (v + take i) % m
    | 5 => (((v : Int) - (take i : Int)) % (m : Int)).toNat
    | _ => if g.format = 2 then montMul v (take i) e.q e.qinv else v * take i % m)) (x.countArith arithZqRange count)

/-- The exact value of an FX64 output after the fused operation, at exponent e (R182, R183). DESIGN CHOICE: after an in-place rescale a
product is formed again, from the register as the shift rounded it, as the overflowing term is added again (R173;
notes/assumptions/45.md). -/
def fusedValue (fused : Nat) (opnd : Nat → Nat) (ec : Int) (x : Cell) (e : Int) (o : FxOut) : Int :=
  if fused = 1 then x.fxGet o + alignTo (toSigned 64 (opnd o.idx), ec) e
  else
    let f := (bf16.value (opnd o.idx % 2 ^ 16)).getD (0, 0)
    alignTo (x.fxGet o * f.1, f.2) 0

/-- The fused operation of an FX64 close, slot by slot; true where a repeat begins (R183). -/
def Cell.fusedSlots (gi fused : Nat) (opnd : Nat → Nat) (ec : Int) : List (Nat × Nat) → Cell → Cell × Bool
  | [], x => (x, false)
  | (t, sl) :: r, x =>
    let g := x.group gi
    let outs := g.outs t sl
    let bad := if 2 ≤ fused then (outs.filter (fun o => (bf16.value (opnd o.idx % 2 ^ 16)).isNone)).length else 0
    let (x, again) := Cell.fxTerm gi 0 (fusedValue fused opnd ec) fxFuel outs (x.countArith arithNonfinite bad)
    if again then (x, true) else Cell.fusedSlots gi fused opnd ec r x

/-- The fused operation as one further term of each output (R183). -/
def Cell.fusedFx (gi fused : Nat) (opnd : Nat → Nat) (ec : Int) (x : Cell) : Cell × Bool :=
  let g := x.group gi
  let g := { g with terms := g.order.foldl (fun m (t, sl) => Tab.put 0 m (16 * t + sl) (Tab.look 0 m (16 * t + sl) + 1)) g.terms }
  let g := { g with windowOpen := g.windowOpen && decide (g.count ≤ 2 ^ 24) }
  Cell.fusedSlots gi fused opnd ec g.order (x.setGroup gi g)

/-- The code that a close writes for a value of an output, and whether it saturated (R181). -/
def AccGroup.outCode (g : AccGroup) (out v : Nat) : Nat × Bool :=
  match out with
  | 0 => (v, false)
  | 1 => bf16.code (toSigned 64 v, g.e)
  | _ => fp32.code (toSigned 64 v, g.e)

/-- Value and position of a top-k output's place at close (R180, R181). -/
def Cell.topkPlace (x : Cell) (g : AccGroup) (p i : Nat) : Nat × Nat :=
  if g.topkK ≤ i then (0, 0)
  else if Tab.look 0 g.terms 0 ≤ i then (2 ^ 63, 0xFFFFFFFF)
  else (x.accGet true (g.halves.getD i 0) p, x.accGet false (topkPosHalf g.halves i) p)

/-- The codes that a close writes before its positions, in order, with their saturations; a ZQ word is written below q (R137). -/
def Cell.closeCodes (x : Cell) (g : AccGroup) (out : Nat) : List (Nat × Bool) :=
  if g.topk then
    (List.range 8).flatMap (fun i => (List.range 1024).map (fun p =>
      if g.topkK ≤ i then (0, false) else g.outCode out (x.topkPlace g p i).1))
  else g.order.flatMap (fun (t, sl) => (List.range 1024).map (fun p =>
    g.outCode out (residue (x.groupModulus g) g.format (x.accGet g.whole (g.half t sl) p))))

/-- The bytes that a close writes (R181). -/
def Cell.closeData (x : Cell) (g : AccGroup) (out : Nat) : List Byte :=
  (x.closeCodes g out).flatMap (fun c => leBytes (g.outBytes out) c.1) ++
  (if g.topk then (List.range 8).flatMap (fun i => (List.range 1024).flatMap (fun p => leBytes 4 (x.topkPlace g p i).2)) else [])

/-- The close record (R186). -/
def AccGroup.record (g : AccGroup) : List Byte :=
  leBytes 1 (if g.saturated then Status.accScaleExhausted.code else 0) ++ leBytes 1 (g.earned + (if g.saturated then 0x80 else 0)) ++
  leBytes 1 g.repeats ++ leBytes 1 (min 255 g.inplace) ++ leBytes 2 (if g.format = 3 then ofSigned 16 g.e else 0) ++ leBytes 2 0 ++
  leBytes 8 g.count

/-- A group after its fused operation: the sums as they are written. -/
def Cell.fuse (x : Cell) (gi fused : Nat) (opnd : Nat → Nat) (source : Nat → Byte) : Cell :=
  let g := x.group gi
  if fused = 0 then x
  else if g.format = 3 then Cell.fxRun gi (replayJobs source 0 g.steps) (Cell.fusedFx gi fused opnd g.e) fxPasses [] x
  else x.fusedModular gi fused opnd

/-- A close writes its tiles and its record, and frees the group's halves (R181, R186). -/
def Cell.closeGroup (x : Cell) (gi out dst rec : Nat) : Cell :=
  let g := x.group gi
  let sat := ((x.closeCodes g out).filter (fun c => c.2)).length
  let range := (g.order.map (fun (t, sl) => x.planeReplaced g (x.groupModulus g) (g.half t sl))).sum
  let y := (((x.countArith arithCvtSat sat).countArith arithZqRange range).storeBytes g dst (x.closeData g out)).storeBytes g rec g.record
  ({ y with satClosed := y.satClosed || g.saturated }.noteFlags gi).setGroup gi {}

/-- The operand of a fused operation for output `i`: an SRAM tile, the instruction's scalar, or the stream (R182). DESIGN CHOICE: for Z64
the 32-bit scalar, 'an integer', is taken without a sign (notes/assumptions/45.md). -/
def Cell.fusedOperand (x : Cell) (g : AccGroup) (fused a : Nat) (scalar : Word32) (l : List Nat) (i : Nat) : Nat :=
  match fused with
  | 1 => numberAt x.byteAt (a + i * g.elemBytes) g.elemBytes
  | 2 => let w := if g.format = 3 then 2 else g.elemBytes
         numberAt x.byteAt (a + i * w) w
  | 3 => scalar.toNat
  | _ => l.getD i 0 % 2 ^ (8 * g.elemBytes)

/-- What a close writes before it ends part-way: the first bytes of its tiles; how many is open (R204, R209; notes/assumptions/45.md). -/
def Cell.partClose (x : Cell) (gi out fused dst n : Nat) : Cell :=
  let g := x.group gi
  let l := x.closeData g out
  x.storeBytes g dst (l.take (Config.unstated "close" [gi, out, fused, dst, n] % (l.length + 1)))

/-- GCLOSE: close a group, with its output format and fused operation (R181 to R188). One that fails on the way leaves the group open with
its registers as they were (R185). -/
def execGclose (a : CellAt) (group : Fin 32) (out : Fin 4) (fused : Fin 8) (stream : Fin 4) (dst record operand : AddrOp)
    (scalar : Word32) (s : State) : Host.Outcome State Fault Refusal :=
  let tail := if fused.val = 1 ∨ fused.val = 2 then [(92, 26, addrCode operand)]
    else if fused.val = 3 then [(92, 32, scalar.toNat)] else []
  let w := cellWord a false 0x21 ([(16, 5, group.val), (21, 2, out.val), (23, 3, fused.val), (26, 2, stream.val), (40, 26, addrCode dst),
    (66, 26, addrCode record)] ++ tail)
  let c := a.cell.val
  let f := fused.val
  let g0 := (s.cell c).group group.val
  let tile := decide (f = 1) || decide (f = 2)
  let op : UnitOp := { unit := 2, cost := g0.closeCost out.val f, steps := g0.closeSteps out.val f, port := 1, acc := true, sram := tile }
  if decide (f < 4) || s.streamSlot c stream.val (32 * g0.elemBytes) then
    .next <| s.unitInstr a w op
      (fun s =>
        let x := s.cell c
        let g := x.group group.val
        [(x.misaligned dst 256 || x.misaligned record 16 || (tile && x.misaligned operand 256), illegal 0x04),
          (!g.isOpen, illegal 0x02), (g.sealed && out.val != 0, (.rights, 0)),
          (decide (2 < out.val) || (out.val != 0 && g.format != 3) || !g.fusedOk f, illegal 0x02),
          (!x.modulusOk g, illegal 0x01)] ++ (if 4 ≤ f then s.streamChecks c stream.val else []) ++
          [(x.storeForbidden g (x.ea dst) (g.closeBytes out.val) || x.storeForbidden g (x.ea record) 16, (.rights, 0)),
           (tile && x.sealedRange (x.ea operand) (g.operandSize f) none, (.rights, 0))])
      (fun n s =>
        let x := s.seenCell a
        let g := x.group group.val
        if n < op.steps then .ok (s.updCell c fun y => y.partClose group.val out.val f (x.ea dst) n)
        else
          let l := match x.stream stream.val with | some b => b.elements | none => []
          let fuse := fun (y : Cell) => y.fuse group.val f (x.fusedOperand g f (x.ea operand) scalar l) (s.sourceByte g)
          match (if ((fuse (s.cell c)).group group.val).repeats = g.repeats then none else firstFailure (s.sourceFailure g)) with
          | some e => .error { why := e, at_ := s, cycles := op.cost }
          | none =>
            let s := s.updCell c fun y => (fuse y).closeGroup group.val out.val (x.ea dst) (x.ea record)
            .ok (s.unlockIfShut c g group.val))
  else .next s

end Sys2Proof.Machine
end

