-- ==== Sys2Proof/Machine/Dma.lean ====
section
/-! DEFINITION. Machine/Dma.lean: DMA descriptors, chains, faults and resumption (R390 to R398). -/

namespace Sys2Proof.Machine

/-- A side of a descriptor as R390 requires it. -/
def descSideOk (cell : Bool) (a len : Nat) : Bool :=
  a % 64 == 0 &&
  (if cell then decide (a % 2 ^ 22 + len ≤ sramBytes) && bits a 22 2 == 0 && decide (a < 2 ^ 30) else decide (a + len ≤ 2 ^ 48))

/-- Read a descriptor from its 64 bytes (R390); `formOk` is check 1 of R393, with ACC_ADD to cell SRAM out of bounds (R391). -/
def parseDesc (b : List Byte) : Desc :=
  let op := field b 0 1
  let fl := field b 1 1
  let fmt := field b 2 1
  let q := field b 4 4
  let src := field b 8 8
  let dst := field b 0x10 8
  let len := field b 0x18 8
  let zq := op == 1 && fmt == 2
  { op := op, v := bitAt fl 0, srcCell := bitAt fl 1, dstCell := bitAt fl 2, format := fmt, q := q, src := src, dst := dst,
    length := len, tag := field b 0x20 2,
    formOk := decide (op ≤ 2) && decide (fl < 8) && (if op = 1 then decide (fmt ≤ 2) else fmt == 0) && field b 3 1 == 0 &&
      zeroAt b 0x22 30 && (if zq then q % 2 == 1 && decide (3 ≤ q) && decide (q < 2 ^ 31) else q == 0) &&
      len % 64 == 0 && decide (64 ≤ len) && decide (len ≤ 2 ^ 40) &&
      (if op = 2 then src == 0 else descSideOk (bitAt fl 1) src len) && descSideOk (bitAt fl 2) dst len &&
      !(op == 1 && bitAt fl 2) }

/-- The engine range (R380). -/
def engineRange : Nat := 0xC00000000000
/-- The round whose memory a virtual address of the engine range lies in (R380). -/
def roundOfVa (va : Nat) : Option Nat := if engineRange ≤ va then some ((va - engineRange) / 2 ^ 40) else none
/-- The cell of a rank in the group that engine `d` feeds (R392). -/
def State.fedCell (s : State) (d a : Nat) : Option Nat := (s.groupCells (s.dmaFeeds d))[bits a 24 6]?

/-- The accesses of a page that stop an element (R395, R397). -/
def State.pageStop (s : State) (t va : Nat) (round : Option Nat) (need : Page → Bool) : Option DmaStop :=
  let p := s.page t va
  if p.tier == 0 then some (.park (va / 65536 * 65536) false)
  else if p.broken then some (.fail .memUe)
  else if !need p then some (.fail .rights)
  else if p.sealed_ && round != roundOfVa va then some (.fail .rights)
  else none

/-- The bytes that a beat moves, or why it stops; a cell is read as the feed port sees it (R142). -/
def State.beatSource (s : State) (t d : Nat) (w : DmaWork) (x : Desc) (off : Nat) (host : List Byte) (hostErr : Option Nat) (m : Met) :
    Except DmaStop (List Byte) :=
  if x.op = 2 then .ok (List.replicate 64 0)
  else if x.srcCell then
    match s.fedCell d x.src with
    | none => .error (.fail .bounds)
    | some c =>
      let a := x.src % 2 ^ 22 + off
      let sl := (s.cell c).sealAt a
      if sl != 0 && w.round != some (sl - 1) then .error (.fail .rights) else .ok (((s.cell c).seen m).read a 64)
  else
    match s.pageStop t (x.src + off) w.round (fun p => p.r) with
    | some e => .error e
    | none =>
      if (s.page t (x.src + off)).tier == 3 && hostErr == some off then .error (.park ((x.src + off) / 65536 * 65536) true)
      else .ok (s.readVA t (x.src + off) 64 (host.drop off))

/-- Element-wise sum of two beats: elements of `n` bytes, modulo `m` (R391). -/
def addBeat (n m : Nat) (a b : List Byte) : List Byte :=
  (List.range (64 / n)).flatMap (fun i => leBytes n ((field a (n * i) n + field b (n * i) n) % m))

/-- Element size and modulus of ACC_ADD (R391). -/
def Desc.arith (x : Desc) : Nat × Nat := match x.format with | 0 => (4, 2 ^ 32) | 1 => (8, 2 ^ 64) | _ => (4, x.q)

/-- Write one beat, or say why it stops; a feed write from a sealed page seals the block it writes (R189, R391, R397). -/
def State.beatDest (s : State) (t d : Nat) (w : DmaWork) (x : Desc) (off : Nat) (bs : List Byte) (hostErr : Option Nat) :
    Except DmaStop State :=
  let from_ := if x.op = 2 || x.srcCell then none
    else if (s.page t (x.src + off)).sealed_ then roundOfVa (x.src + off) else none
  if x.dstCell then
    match s.fedCell d x.dst with
    | none => .error (.fail .bounds)
    | some c =>
      let a := x.dst % 2 ^ 22 + off
      let sl := (s.cell c).sealAt a
      if sl != 0 && from_ != some (sl - 1) then .error (.fail .rights)
      else .ok (s.updCell c fun y =>
        let y := y.write a bs
        match from_ with | some h => y.sealRange a 64 h | none => y)
  else
    let va := x.dst + off
    match s.pageStop t va w.round (fun p => if x.op = 1 then p.acc else p.w) with
    | some e => .error e
    | none =>
      let p := s.page t va
      if p.locks != 0 then .error (.fail .rights)
      else if p.tier == 3 && hostErr == some off then .error (.park (va / 65536 * 65536) true)
      else if x.op = 1 then .ok (s.writeSpan t va (addBeat x.arith.1 x.arith.2 (s.readVA t va 64 []) bs))
      else .ok (s.writeSpan t va bs)

/-- A tenant's DMA budget left in this turn (R69). -/
def State.dmaBudget (s : State) (t : Nat) : Budget := Tab.look {} s.spn.budgetDma t
/-- Replace a tenant's DMA budget. -/
def State.setDmaBudget (s : State) (t : Nat) (b : Budget) : State :=
  { s with spn := { s.spn with budgetDma := Tab.put {} s.spn.budgetDma t b } }

/-- Virtual addresses that a descriptor reaches at an offset: its source's and its destination's, where they lie in the tenant's space. -/
def Desc.vas (x : Desc) (off : Nat) : List Nat :=
  (if x.op = 2 || x.srcCell then [] else [x.src + off]) ++ (if x.dstCell then [] else [x.dst + off])

/-- Pages that the block of `n` bytes at an offset of a descriptor is the first to touch (R383). -/
def State.newPages (s : State) (t : Nat) (x : Desc) (off n : Nat) : Nat :=
  ((x.vas off).map (fun a =>
    (((pagesOf a n).map (s.pageAt t)).dedup.filter (fun k => off = 0 || k != s.pageAt t (a - 1))).length)).sum

/-- Work cycles of the block of `n` bytes at an offset: 64 bytes a cycle, and 64 cycles for the walk of each page that it is the first
to touch (R383, R394). -/
def State.blockCost (s : State) (t : Nat) (x : Desc) (off n : Nat) : Nat := ceilDiv n 64 + 64 * s.newPages t x off n

/-- A memory that a block touches is in a refresh window, so its accesses wait (R68): units 0 to 7 are the HBM stacks, 8 to 19 the DDR
channels; which unit holds an address is a constant of Config, asked only where some window is open. -/
def State.refreshing (s : State) (t : Nat) (x : Desc) (off : Nat) : Bool :=
  (List.range 20).any s.inWindowNow && (x.vas off).any (fun a =>
    let p := s.page t a
    let u := Config.memUnit p.tier (p.phys a)
    (p.tier == 1 && s.inWindowNow (u % 8)) || (p.tier == 2 && s.inWindowNow (8 + u % 12)))

/-- The stop is a wait: for budget, for the next owned run or for the end of a refresh window (R65, R68, R70). -/
def DmaStop.waits : DmaStop → Bool
  | .budget => true
  | .slot => true
  | _ => false

/-- Run a descriptor from an offset on, beat by beat, charging each 4 KiB block, or the rest of one, at its issue (R69, R70, R394); a
block starts only if it ends within the `cycles` left in the owned run, and outside a refresh window of its memories (R65, R68);
`fresh` says that the next beat begins a block. -/
def State.dmaBeats (t d : Nat) (w : DmaWork) (x : Desc) (host : List Byte) (hostErr : Option Nat) (m : Met) :
    Nat → State → Nat → Bool → Nat → State × Nat × Option DmaStop
  | 0, s, off, _, _ => (s, off, none)
  | fuel + 1, s, off, fresh, cycles =>
    if x.length ≤ off then (s, off, none)
    else
      let charge := if fresh || off % 4096 == 0 then min (4096 - off % 4096) (x.length - off) else 0
      let cost := if charge = 0 then 0 else s.blockCost t x off charge
      let b := s.dmaBudget t
      if cycles < cost || (charge != 0 && s.refreshing t x off) then (s, off, some .slot)
      else if b.remaining < charge then (s.setDmaBudget t { b with waited := true }, off, some .budget)
      else
        let s := s.setDmaBudget t { b with remaining := b.remaining - charge }
        match s.beatSource t d w x off host hostErr m with
        | .error e => (s, off, some e)
        | .ok bs =>
          match s.beatDest t d w x off bs hostErr with
          | .error e => (s, off, some e)
          | .ok s => State.dmaBeats t d w x host hostErr m fuel s (off + 64) false (cycles - cost)

/-- Bytes of a block of tenant `t` that move now through the engines that feed a group, of `left` left: whole 4 KiB blocks at 64 bytes a work
cycle, or the last one, within an owned run and the tenant's DMA budget (R65, R69, R70). -/
def State.feedMoves (s : State) (g t left : Nat) : Nat :=
  let runs := (List.range 32).map (fun d => if s.dmaFeeds d == g && s.mayIssue t .dma d then s.runCycles .dma d t else 0)
  let room := min (64 * runs.foldl max 0) (s.dmaBudget t).remaining
  if left ≤ room then left else room / 4096 * 4096

/-- Charge a tenant's DMA budget with bytes that it holds (R69). -/
def State.chargeDma (s : State) (t n : Nat) : State :=
  let b := s.dmaBudget t
  s.setDmaBudget t { b with remaining := b.remaining - n }

/-- The present pages of a descriptor's sides satisfy a condition: the source side and the destination side. -/
def State.descPages (s : State) (t : Nat) (x : Desc) (src dst : Page → Bool) : Bool :=
  (x.op == 2 || x.srcCell || s.allPages t x.src x.length (fun p => p.tier == 0 || src p)) &&
  (x.dstCell || s.allPages t x.dst x.length (fun p => p.tier == 0 || dst p))

/-- The checks before a descriptor's first block (R392, R393). -/
def State.descCheck (s : State) (t d : Nat) (x : Desc) : Option Status :=
  let plain := fun (p : Page) => p.tier != 3 && !p.exch
  firstFail [
    (!x.formOk || (x.srcCell && (s.fedCell d x.src).isNone) || (x.dstCell && (s.fedCell d x.dst).isNone) ||
      ((x.srcCell || x.dstCell) && s.groupOwner (s.dmaFeeds d) != t), .bounds),
    (!x.v && !s.descPages t x plain plain, .instrVMissing),
    (!s.descPages t x (fun p => p.r) (fun p => if x.op = 1 then p.acc else p.w), .rights)]

/-- Completion flags of a piece of work (R538). -/
def DmaWork.flags (w : DmaWork) : Nat := b2n w.varied + 16 * b2n w.preempted + 32 * b2n w.resumed

/-- A descriptor that a FEED posted to engine `d` ends: its token is raised on OK, the program halts with its status otherwise (R226). -/
def State.endFeed (s : State) (w : DmaWork) (d c idx : Nat) (token : Option Nat) (st : Status) : State :=
  let s := s.updCell c fun y => { y with
    feeds := y.feeds.eraseP (fun f => f.1 == d && f.2.1 == w.descs.getD w.idx (parseDesc []) && f.2.2 == token),
    flags := Nat.lor y.flags (w.flags % 16 + 32 * b2n w.resumed) }
  let s := if st = .ok then (match token with | some k => s.signalToken c k 1 | none => s)
    else if (s.cell c).running then s.failCell c idx st 4 0 else s
  (s.releaseFeed c).tryHalt c

/-- The head descriptor ends at an offset with a status: the chain goes on, or its completion is posted with the index and
the offset, on OK the length (R392, R533). -/
def State.endDesc (s : State) (t d : Nat) (w : DmaWork) (rest : List DmaWork) (off : Nat) (st : Status) : State :=
  let e := s.engine d
  let s := s.setEngine d { e with active := false, bytes := off % 2 ^ 40, lastStatus := st }
  let s := s.setParked t d {}
  if st = .ok && w.idx + 1 < w.descs.length then
    s.setWork t d ({ w with idx := w.idx + 1, off := 0, begun := false } :: rest)
  else
    let s := s.setWork t d rest
    match w.source with
    | .cmd c => s.complete c st (w.idx + off * 2 ^ 16) 0 w.flags
    | .feed c idx token => s.endFeed w d c idx token st
    | .batch _ _ => s

/-- The cell that a descriptor reads, and the cell that it writes. -/
def State.feedCells (s : State) (d : Nat) (x : Desc) : Option Nat × Option Nat :=
  (if x.srcCell && x.op != 2 then s.fedCell d x.src else none, if x.dstCell then s.fedCell d x.dst else none)

/-- What a feed meets at the feed port of the cells it touches: corrected errors, and its own writes that another port's stand before
(R142, R144). -/
def State.settleFeed (s before : State) (cells : Option Nat × Option Nat) (m : Met) : State :=
  let s := match cells.1 with | some c => s.updCell c fun y => y.countErr errSramCe m.sramCe | none => s
  match cells.2 with
  | some c => if m.lost.isEmpty && m.beaten = 0 then s else s.updCell c fun y => y.collide (before.cell c) 4 m
  | none => s

/-- The head descriptor of a tenant on an engine runs in an owned slot: its checks, then its beats until it ends, parks or
waits for budget, for the next owned run or for a refresh window's end (R64, R65, R68, R70, R393 to R397). -/
def State.dmaStep (s : State) (t d op : Nat) (host : List Byte) (hostErr : Option Nat) (m : Met) : State :=
  match s.work t d with
  | [] => s
  | w :: rest =>
    let x := w.descs.getD w.idx (parseDesc [])
    let pk := s.parkedAt t d
    if x.op != op || (pk.pending && !pk.resume) || !s.mayIssue t .dma d then s
    else
      match (if w.begun then none else s.descCheck t d x) with
      | some st => s.endDesc t d w rest w.off st
      | none =>
        let vary := !s.descPages t x (fun p => p.tier != 3 && !p.exch) (fun p => p.tier != 3 && !p.exch)
        let w := { w with begun := true, varied := w.varied || vary || pk.pending, resumed := w.resumed || pk.pending }
        let s := s.setParked t d {}
        let s := s.setEngine d { s.engine d with active := true, tenant := t, op := x.op, device := false }
        let cells := s.feedCells d x
        let bad := match m.ue, cells.1 with | some (n, .sram a), some c => some (n, a, c) | _, _ => none
        let before := s
        let run := fun (x : Desc) => State.dmaBeats t d w x host hostErr m (x.length / 64 + 1) s w.off
          (w.off % 4096 != 0) (s.runCycles .dma d t)
        let (s, off, stop) : State × Nat × Option DmaStop := match bad with
          | some (n, a, c) =>
            let (s, off, stop) := run { x with length := min x.length (w.off + 64 * n) }
            if stop.isNone && decide (off < x.length) then
              (s.updCell c fun y => y.sramError a 4, off, some (.fail .memUe))
            else (s, off, stop)
          | none => run x
        let s := s.settleFeed before cells m
        match stop with
        | none => s.endDesc t d w rest off .ok
        | some (.fail st) => s.endDesc t d w rest off st
        | some .budget | some .slot =>
          (s.setEngine d { s.engine d with bytes := off % 2 ^ 40 }).setWork t d ({ w with off := off } :: rest)
        | some (.park va he) =>
          let feed := match w.source with | .feed _ _ _ => true | _ => false
          let s := s.setParked t d { va := va, pending := true, hostErr := he, offset := off, chain := w.idx, feed := feed }
          let s := s.setEngine d { s.engine d with active := false, bytes := off % 2 ^ 40 }
          let s := s.setWork t d ({ w with off := off } :: rest)
          s.event (t + 1) 2 0x20 t (va + d * 2 ^ 64 + off % 2 ^ 48 * 2 ^ 72)

/-- DMA_COPY: the head descriptor of the tenant on the engine, a COPY, moves its bytes (R391). -/
def execDmaCopy (t : TenantId) (d : EngineId) (host : List Byte) (hostErr : Option Nat) (s : State) (met : Met := {}) :
    Host.Outcome State Fault Refusal := .next (s.dmaStep t.val d.val 0 host hostErr met)

/-- DMA_ACC_ADD: the head descriptor, an ACC_ADD, adds its elements in place (R391). -/
def execDmaAccAdd (t : TenantId) (d : EngineId) (host : List Byte) (hostErr : Option Nat) (s : State) (met : Met := {}) :
    Host.Outcome State Fault Refusal := .next (s.dmaStep t.val d.val 1 host hostErr met)

/-- DMA_ZERO: the head descriptor, a ZERO, writes zero bytes (R391). -/
def execDmaZero (t : TenantId) (d : EngineId) (hostErr : Option Nat) (s : State) (met : Met := {}) : Host.Outcome State Fault Refusal :=
  .next (s.dmaStep t.val d.val 2 [] hostErr met)

/-- A tenant's DMA budget in the committed jig (R69). -/
def State.dmaBudgetFull (s : State) (t : Nat) : Nat := if s.jig.loaded then Tab.look 0 s.jig.cfg.dmaBudget t else 0

/-- The descriptors of a chain. -/
def chainOf (b : List Byte) (n : Nat) : List Desc := (List.range n).map (fun i => parseDesc (slice b (64 * i) 64))

/-- DMA_SUBMIT: a chain of 1 to 4,096 descriptors goes to an engine; refused with BUDGET where the tenant owns no slot of the
engine or its DMA budget is 0 (R71, R392). -/
def execDmaSubmit (c : Cmd) (s : State) : Host.Outcome State Fault Refusal :=
  .next <| s.command 0x30 c fun s =>
    let t := cmdActs c
    match firstFail [
        (decide (31 < c.a0) || c.len % 64 != 0 || c.len == 0 || decide (262144 < c.len) || c.addr % 64 != 0, .bounds),
        (!s.ownsSlot .dma c.a0 t || s.dmaBudgetFull t == 0, .budget)], s.blockFail t c.addr c.len (fun p => p.r) with
    | some st, _ => s.fail c st
    | none, some st => s.fail c st
    | none, none =>
      let ds := chainOf (s.readVA t c.addr c.len c.host) (c.len / 64)
      s.setWork t c.a0 (s.work t c.a0 ++ [
        { source := .cmd c, descs := ds, idx := 0, off := 0, preempted := false, resumed := false, varied := s.onHost t c.addr c.len,
          begun := false, round := none }])

/-- BAR0 offset of MEM_FAULT_VA. -/
def faultOffset (t d : Nat) : Nat := 0x00A00600 + 0x10 * (32 * t + d)

/-- RESUME: the parked descriptor retranslates its page at the next owned slot and goes on from the resume offset (R396). -/
def execResume (fn : FnId) (t : TenantId) (d : EngineId) (s : State) : Host.Outcome State Fault Refusal :=
  .next <| s.ifWritable fun s =>
    if fn.val != 0 && fn != t then s.windowMiss fn.val (faultOffset t.val d.val) true
    else
      let p := s.parkedAt t.val d.val
      if p.pending then s.setParked t.val d.val { p with resume := true } else s

/-- A parked descriptor ends with XLATE_FAULT at its resume offset (R396). -/
def State.abandonParked (s : State) (t d : Nat) : State :=
  match s.work t d with
  | [] => s
  | w :: rest => if (s.parkedAt t d).pending then s.endDesc t d w rest w.off .xlateFault else s

/-- ABANDON (R396). -/
def execAbandon (fn : FnId) (t : TenantId) (d : EngineId) (s : State) : Host.Outcome State Fault Refusal :=
  .next <| s.ifWritable fun s =>
    if fn.val != 0 && fn != t then s.windowMiss fn.val (faultOffset t.val d.val) true else s.abandonParked t.val d.val

/-- FAULT_LIMIT_EXPIRE: still parked after MEM_FAULT_LIMIT.TURNS turn boundaries, 0 meaning no limit, the descriptor ends as
with ABANDON (R396). -/
def execFaultLimitExpire (t : TenantId) (d : EngineId) (s : State) : Host.Outcome State Fault Refusal :=
  if s.mem.faultLimit != 0 && decide (s.mem.faultLimit ≤ (s.parkedAt t.val d.val).turns) && !s.frozen then
    .next (s.abandonParked t.val d.val)
  else .next s

end Sys2Proof.Machine
end

