-- ==== Sys2Proof/Machine/Image.lean ====
section
/-! DEFINITION. Machine/Image.lean: program images and the checks of a load (R193 to R198, R212, R216 to R222, R227). -/

namespace Sys2Proof.Machine

/-! ### Instruction words (R216, R219) -/

/-- A field of an instruction word. -/
def fld (w : InstrWord) (lo width : Nat) : Nat := bits w.toNat lo width

/-- The bit ranges that an opcode's instruction names, as (lowest bit, width); none for an opcode that is not defined. GCLOSE
names further ranges by its FUSED code (R219). -/
def wordFields (op fused : Nat) : Option (List (Nat × Nat)) :=
  let slots := [(16, 5), (21, 5), (26, 4), (30, 5)]
  match op with
  | 0x00 => some [(16, 16)]
  | 0x01 => some []
  | 0x02 => some [(16, 12)]
  | 0x03 => some [(16, 12), (28, 4), (32, 32)]
  | 0x04 => some [(16, 12), (28, 2), (32, 6)]
  | 0x05 => some [(16, 6), (32, 16)]
  | 0x06 => some [(16, 6), (32, 16)]
  | 0x07 => some []
  | 0x10 => some [(16, 4), (64, 64)]
  | 0x11 => some [(16, 4), (20, 4), (24, 4), (28, 4), (32, 1), (64, 64)]
  | 0x12 => some [(16, 4), (20, 1)]
  | 0x20 => some [(40, 26)]
  | 0x21 => some ([(16, 5), (21, 2), (23, 3), (26, 2), (40, 26), (66, 26)] ++
      (if fused = 1 ∨ fused = 2 then [(92, 26)] else if fused = 3 then [(92, 32)] else []))
  | 0x22 => some (slots ++ [(40, 26)])
  | 0x23 => some (slots ++ [(40, 26)])
  | 0x30 => some [(16, 5), (21, 5), (26, 4), (30, 4), (34, 1), (40, 26), (66, 26), (92, 12)]
  | 0x31 => some (slots ++ [(35, 1), (40, 26)])
  | 0x32 => some (slots ++ [(35, 1), (36, 2)])
  | 0x40 => some [(16, 5), (40, 26)]
  | 0x41 => some [(16, 5), (40, 26)]
  | 0x42 => some [(16, 5), (21, 5), (26, 5), (31, 5), (36, 1), (37, 4), (41, 1), (42, 64)]
  | 0x43 => some [(16, 5), (21, 5), (26, 5)]
  | 0x44 => some [(16, 5), (21, 5), (26, 2), (28, 1)]
  | 0x45 => some [(16, 5), (21, 4)]
  | 0x46 => some [(16, 5)]
  | 0x50 => some [(40, 26), (66, 26), (92, 15), (107, 1)]
  | 0x51 => some [(16, 8), (24, 1), (25, 6), (40, 26), (66, 26), (92, 16)]
  | 0x52 => some [(16, 5), (40, 26)]
  | _ => none

/-- The opcode is defined and every reserved bit is 0 (R216). -/
def wordForm (w : InstrWord) : Bool :=
  match wordFields (fld w 0 8) (fld w 23 3) with
  | none => false
  | some l => ((((0, 16) :: l).map (fun (lo, n) => fld w lo n * 2 ^ lo)).sum == w.toNat)

/-- The instruction's fields lie within the ranges of R219 to R221, and SIG is 0 on a CTL instruction (R216). -/
def wordRanges (w : InstrWord) : Bool :=
  let op := fld w 0 8
  let slots := decide (1 ≤ fld w 30 5) && decide (fld w 30 5 ≤ 16)
  let m := fld w 30 4
  let k := fld w 92 12 + 1
  let f := fld w 31 5
  !(decide (op < 0x20) && fld w 9 1 == 1) &&
  match op with
  | 0x03 => if fld w 28 4 = 0 then decide (1 ≤ fld w 32 32) else fld w 32 32 == 0
  | 0x05 => decide (1 ≤ fld w 32 16)
  | 0x06 => decide (1 ≤ fld w 32 16)
  | 0x11 => decide (fld w 28 4 ≤ 7)
  | 0x21 => decide (fld w 21 2 ≤ 2) && decide (fld w 23 3 ≤ 5)
  | 0x22 => slots
  | 0x23 => slots
  | 0x30 => decide (m ≤ 13) && (fld w 34 1 == 0 || decide (m ≤ 1)) && (!(decide (3 ≤ m) && decide (m ≤ 10)) || k % 4 == 0)
  | 0x31 => slots
  | 0x32 => slots
  | 0x42 => decide (f ≤ 27) && f != 15 && (!(decide (18 ≤ f) && decide (f ≤ 22)) || fld w 36 1 == 1)
  | 0x44 => decide (fld w 26 2 ≤ 2)
  | 0x50 => decide (1 ≤ fld w 92 15) && decide (fld w 92 15 ≤ 16384) && (fld w 107 1 == 0 || fld w 92 15 % 16 == 0)
  | 0x51 => decide (1 ≤ fld w 92 16)
  | _ => true

/-- The instruction must carry V: a WAIT on tokens 48 to 63, VRAND (R227). -/
def wordNeedsV (w : InstrWord) : Bool := (fld w 0 8 == 0x05 && decide (48 ≤ fld w 16 6)) || fld w 0 8 == 0x46

/-- V stands where it must be 0 (R227); a FEED's is checked at issue. -/
def wordWrongV (w : InstrWord) : Bool := fld w 8 1 == 1 && fld w 0 8 != 0x52 && !wordNeedsV w

/-- A required V is missing, or a FEED with V signals a FIXED token (R212, R227). -/
def wordMissesV (w : InstrWord) : Bool :=
  (wordNeedsV w && fld w 8 1 == 0) ||
  (fld w 0 8 == 0x52 && fld w 8 1 == 1 && fld w 9 1 == 1 && decide (fld w 10 6 < 48))

/-- The loops around each instruction, innermost first, as (LOOP, END), and whether every LOOP nests as R222 requires, from
instruction `i` on. -/
def loopBodies (n : Nat) : Nat → List (Nat × Nat) → List InstrWord → List (List (Nat × Nat) × Bool)
  | _, _, [] => []
  | i, stack, w :: r =>
    let here := stack.filter (fun l => decide (i ≤ l.2))
    if fld w 0 8 = 0x03 then
      let e := fld w 16 12
      let ok := decide (i < e) && decide (e < n) && decide (here.length < 4) &&
        (match here with | l :: _ => decide (e ≤ l.2) | [] => true)
      (here, ok) :: loopBodies n (i + 1) (if ok then (i, e) :: here else here) r
    else (here, true) :: loopBodies n (i + 1) here r

/-- The target of a JUMP or BRANK lies in the same innermost loop body, or outside every loop as the instruction does (R222); one past the
last instruction lies outside every loop, and the program ends there (R203). -/
def targetOk (bodies : List (List (Nat × Nat) × Bool)) (i : Nat) (w : InstrWord) : Bool :=
  let op := fld w 0 8
  !(op == 0x02 || op == 0x04) ||
  (bodies.getD (fld w 16 12) ([], true)).1.head? == (bodies.getD i ([], true)).1.head?

/-- Check 4 of R198: the index of the first instruction that fails it. -/
def check4 (l : List InstrWord) : Option Nat :=
  let bodies := loopBodies l.length 0 [] l
  (l.zipIdx.find? (fun (w, i) => !wordForm w || !wordRanges w || wordWrongV w || !(bodies.getD i ([], true)).2 || !targetOk bodies i w)).map
    (fun e => e.2)

/-- Check 5 of R198: the index of the first instruction that fails it. -/
def check5 (l : List InstrWord) : Option Nat := (l.zipIdx.find? (fun (w, _) => wordMissesV w)).map (fun e => e.2)

/-! ### The image (R193, R194) -/

/-- A data section: ADDR, LENGTH, RANK, its reserved bytes zero, its data. -/
structure DataSection where
  addr : Nat
  length : Nat
  rank : Nat
  reserved : Bool
  data : List Byte
  deriving DecidableEq, Repr

/-- Read the data sections; none where they do not end with the image (R194). -/
def readSections : Nat → List Byte → Option (List DataSection)
  | 0, b => if b.isEmpty then some [] else none
  | n + 1, b =>
    let len := field b 4 4
    let all := 16 + ceilDiv len 16 * 16
    if b.length < all then none
    else
      (readSections n (b.drop all)).map (fun r =>
        { addr := field b 0 4, length := len, rank := field b 8 1, reserved := zeroAt b 9 7, data := slice b 16 len } :: r)

/-- A program image. -/
structure ProgImage where
  header : List Byte
  code : List InstrWord
  sections : Option (List DataSection)
  deriving DecidableEq, Repr

/-- Read a program image. -/
def readImage (b : List Byte) : ProgImage :=
  let n := field b 0x10 2
  { header := b.take 0x80, code := (List.range n).map (fun i => BitVec.ofNat 128 (field b (0x80 + 16 * i) 16)),
    sections := if b.length < 0x80 + 16 * n then none else readSections (field b 0x15 1) (b.drop (0x80 + 16 * n)) }

/-- ENTRY of the header. -/
def ProgImage.entry (p : ProgImage) : Nat := field p.header 0x12 2
/-- BUILD_ID of the header (R193). -/
def ProgImage.buildId (p : ProgImage) : Nat := field p.header 0x18 16
/-- WAIT_LIMIT of the header. -/
def ProgImage.waitLimit (p : ProgImage) : Nat := field p.header 0x16 2

/-- Check 3 of R198 for an image of `len` bytes, a firmware class and a group size. -/
def ProgImage.check3 (p : ProgImage) (len fwClass g : Nat) : Bool :=
  let h := p.header
  field h 0 4 == 0x47525058 && field h 4 2 == 1 && field h 6 2 == 0x80 && field h 8 4 == len && decide (len ≤ 2 ^ 23) &&
  decide (0x80 ≤ len) && zeroAt h 0x28 88 && field h 0x0C 2 == 0x7264 && field h 0x0E 2 == fwClass && field h 0x14 1 == g &&
  decide (1 ≤ p.code.length) && decide (p.code.length ≤ 4096) && decide (p.entry < p.code.length) && p.sections.isSome

/-- A section's own requirements in check 6 (R194, R198). -/
def DataSection.ok (d : DataSection) (g : Nat) : Bool :=
  d.reserved && d.addr % 8 == 0 && d.length % 8 == 0 && decide (8 ≤ d.length) && decide (d.length ≤ 2 ^ 22) &&
  decide (d.addr + d.length ≤ sramBytes) && (decide (d.rank < g) || d.rank == 0xFF)

/-- Two sections overlap for some rank. -/
def DataSection.clash (a b : DataSection) : Bool :=
  (a.rank == b.rank || a.rank == 0xFF || b.rank == 0xFF) && decide (a.addr < b.addr + b.length) && decide (b.addr < a.addr + a.length)

/-- Check 6 of R198. -/
def check6 (g : Nat) : List DataSection → Bool
  | [] => true
  | d :: r => d.ok g && r.all (fun e => !d.clash e) && check6 g r

end Sys2Proof.Machine
end

