-- ==== Sys2Proof/Machine/JigImage.lean ====
section
/-! DEFINITION. Machine/JigImage.lean: the bytes of a jig image and of a list of edit records: header, sections, the section values
whose layout the spec gives, and records (R97 to R100, R107, R125, R151). The values of the other sections are an operand, since the spec
gives them no layout (notes/assumptions/44.md). -/

namespace Sys2Proof.Machine

/-- The header in the first 256 bytes of an image (R97). -/
def jigHeaderOf (b : List Byte) : JigHeader :=
  { magic := field b 0x00 4, formatVersion := field b 0x04 2, headerLength := field b 0x06 2, imageLength := field b 0x08 4,
    part := field b 0x0C 2, stepping := field b 0x0E 1, flags := field b 0x0F 1, compositionHash := field b 0x10 48,
    serial := field b 0x40 8, fwClass := field b 0x48 2, sectionCount := field b 0x4A 2, sigOffset := field b 0x4C 4,
    ownerKeys := field b 0x50 48, reservedZero := zeroAt b 0x80 128 }

/-- Bytes that a section takes: 8 before its value, the value and its padding (R98). -/
def sectionSpan (length : Nat) : Nat := 8 + ceilDiv length 8 * 8

/-- The sections that stand from an offset up to an end, given the bytes from that offset on: at most `fuel` of them, the last cut
short where the area ends (R98). -/
def jigSectionsOf (stop : Nat) : Nat → Nat → List Byte → List JigSection
  | 0, _, _ => []
  | fuel + 1, off, b =>
    if off < stop then
      let n := field b 4 4
      let x : JigSection := {
        type := field b 0 2, inst := field b 2 2, offset := off, length := n, value := slice b 8 n,
        padZero := zeroAt b (8 + n) (sectionSpan n - 8 - n) }
      x :: jigSectionsOf stop fuel (off + sectionSpan n) (b.drop (sectionSpan n))
    else []

/-- Bytes of one member's PARTITION record (R125). -/
def partitionBytes : Nat := 192
/-- One member's PARTITION record (R125). -/
def partitionOf (b : List Byte) : JigPartition :=
  { cellTenant := (slice b 0 64).map (·.toNat), cellGroup := (slice b 64 64).map (·.toNat), dmaGroup := (slice b 128 32).map (·.toNat) }
/-- The bytes of a PARTITION record whose reserved ones are 0. -/
def partitionClean (b : List Byte) : Bool := zeroAt b 160 32

/-- Bytes of one member's MESH_ROUTES record (R151). -/
def meshBytes : Nat := 2056
/-- Entry `i` of a MESH_ROUTES record (R151). -/
def meshEntry (b : List Byte) (i : Nat) : JigRoute :=
  let e := slice b (8 + 8 * i) 8
  { src := field e 0 1, dst := field e 1 1, hops := field e 2 1, path := field e 4 4 }
/-- One member's routes (R151). -/
def meshOf (b : List Byte) : List JigRoute := (List.range (min 256 (field b 0 4))).map (meshEntry b)
/-- A MESH_ROUTES record names 0 to 256 routes; its reserved bytes and the entries above COUNT are 0 (R151). -/
def meshClean (b : List Byte) : Bool :=
  let n := field b 0 4
  decide (n ≤ 256) && zeroAt b 4 4 && zeroAt b (8 + 8 * n) (2048 - 8 * n) &&
  (List.range (min 256 n)).all (fun i => zeroAt b (11 + 8 * i) 1)

/-- Bytes of one member's PORTS record (R415). -/
def portsBytes : Nat := 1024
/-- A port entry in its 64 bytes (R415). -/
def portOf (b : List Byte) : JigPort :=
  { role := field b 0 1, udpPort := field b 2 2, peerMember := field b 4 2, peerPort := field b 6 1, mac := field b 8 6, ipv6 := field b 16 16,
    gatewayMac := field b 32 6 }
/-- One member's port entries, port p at offset 64 p (R415). -/
def portsOf (b : List Byte) : List JigPort := (List.range 16).map (fun p => portOf (slice b (64 * p) 64))
/-- The reserved bytes of every entry of a PORTS record are 0 (R415). -/
def portsClean (b : List Byte) : Bool :=
  (List.range 16).all (fun p =>
    let e := slice b (64 * p) 64
    zeroAt e 1 1 && zeroAt e 7 1 && zeroAt e 14 2 && zeroAt e 38 26)

/-- The records of `size` bytes that a value holds, one per member (R98). -/
def recordsOf (b : List Byte) (size members : Nat) : List (List Byte) :=
  (List.range members).map (fun i => slice b (size * i) size)

/-- The key of a section: 4 type + instance. -/
def sectionKey (t inst : Nat) : Nat := 4 * t + inst

/-- The bytes of a section's value. -/
def sectionValue (l : List JigSection) (t inst : Nat) : Option (List Byte) :=
  (l.find? (fun x => x.type == t && x.inst == inst)).map (·.value)

/-- The value of a section keeps LENGTH and its reserved bytes (check 0x01): read from the bytes of PARTITION, MESH_ROUTES and PORTS,
a fact of the operand for the rest (R98, R118, R125, R151, R415). -/
def sectionClean (x : JigSection) (members : Nat) (misshapen : List Nat) : Bool :=
  match x.type with
  | 3 => x.length == partitionBytes * members && (recordsOf x.value partitionBytes members).all partitionClean
  | 6 => x.length == meshBytes * members && (recordsOf x.value meshBytes members).all meshClean
  | 7 => x.length == portsBytes * members && (recordsOf x.value portsBytes members).all portsClean
  | _ => !misshapen.contains (sectionKey x.type x.inst)

/-- The values of an image (R99): PARTITION, MESH_ROUTES and PORTS from their bytes, the route sets and the live fields that the sections hold,
and the rest from the operand. -/
def jigValues (l : List JigSection) (given : JigConfig) : JigConfig :=
  let n := given.assembly.members.length
  let sets := (l.filter (fun x => x.type == 8)).map (fun x =>
    (x.inst, ((given.routeSets.find? (fun p => p.1 == x.inst)).map (·.2)).getD {}))
  { given with
    partition := (recordsOf ((sectionValue l 3 0).getD []) partitionBytes n).map partitionOf
    routes := (recordsOf ((sectionValue l 6 0).getD []) meshBytes n).map meshOf
    ports := (recordsOf ((sectionValue l 7 0).getD []) portsBytes n).map portsOf
    routeSets := sets
    live := if l.any (fun x => x.type == 13) then some (given.live.getD {}) else none }

/-- An image as it was read: its header, sections and values. -/
def readJig (b : List Byte) (given : JigConfig) : JigHeader × List JigSection × JigConfig :=
  let h := jigHeaderOf b
  let l := jigSectionsOf (min h.sigOffset b.length) (h.sectionCount + 1) 0x100 (b.drop 0x100)
  (h, l, jigValues l given)

/-- The edit records that a buffer holds, at most `fuel` (R107): one with RESET_SHADOW carries no data; the data of any other is padded
to 8 bytes. -/
def editRecordsOf : Nat → List Byte → List EditRecord
  | 0, _ => []
  | fuel + 1, b =>
    if b.isEmpty then []
    else
      let n := if bitAt (field b 4 2) 0 then 0 else field b 12 4
      { type := field b 0 2, inst := field b 2 2, flags := field b 4 2, rsvd := field b 6 2, offset := field b 8 4,
        length := field b 12 4, data := slice b 16 n } :: editRecordsOf fuel (b.drop (16 + ceilDiv n 8 * 8))

/-- RESET_SHADOW of a record (R107). -/
def recordResets (r : EditRecord) : Bool := bitAt r.flags 0

/-- Bytes laid into a value at an offset. -/
def patchBytes (b : List Byte) (off : Nat) (d : List Byte) : List Byte := b.take off ++ d ++ b.drop (off + d.length)

/-- The bytes of a PARTITION record. -/
def partitionRecord (p : JigPartition) : List Byte :=
  let col := fun (l : List Nat) (n d : Nat) => (List.range n).map (fun i => (BitVec.ofNat 8 (l.getD i d) : Byte))
  col p.cellTenant 64 8 ++ col p.cellGroup 64 0xFF ++ col p.dmaGroup 32 0xFF ++ List.replicate 32 0
/-- The bytes of a MESH_ROUTES record. -/
def meshRecord (l : List JigRoute) : List Byte :=
  leBytes 4 l.length ++ leBytes 4 0 ++
  l.flatMap (fun r => leBytes 1 r.src ++ leBytes 1 r.dst ++ leBytes 1 r.hops ++ leBytes 1 0 ++ leBytes 4 r.path) ++
  List.replicate (2048 - 8 * l.length) 0
/-- The bytes of a PORTS record (R415). -/
def portsRecord (l : List JigPort) : List Byte :=
  (List.range 16).flatMap (fun p =>
    let x := l.getD p {}
    leBytes 1 x.role ++ leBytes 1 0 ++ leBytes 2 x.udpPort ++ leBytes 2 x.peerMember ++ leBytes 1 x.peerPort ++ leBytes 1 0 ++
    leBytes 6 x.mac ++ leBytes 2 0 ++ leBytes 16 x.ipv6 ++ leBytes 6 x.gatewayMac ++ leBytes 26 0)

end Sys2Proof.Machine
end

