-- ==== Sys2Proof/Machine/EtkaiOps.lean ====
section
/-! DEFINITION. Machine/EtkaiOps.lean: the fabric's counters and budgets, routes, flows and the sending of Etkai packets (R418, R420,
R424 to R434, R444). -/

namespace Sys2Proof.Machine

/-- Change port `p`. -/
def State.updPort (s : State) (p : Nat) (f : Port → Port) : State := s.setPort p (f (s.port p))
/-- Change endpoint `e`. -/
def State.updEp (s : State) (e : Nat) (f : Endpoint → Endpoint) : State := s.setEp e (f (s.ep e))
/-- Change the FAB block's state. -/
def State.updFab (s : State) (f : Fab → Fab) : State := { s with fab := f s.fab }
/-- Count charged bytes sent on a port: FAB_PORT_TX (R424). -/
def State.countTx (s : State) (p n : Nat) : State := s.updPort p fun x => { x with tx := wrapAdd 48 x.tx n }
/-- Count frame bytes received on a port: FAB_PORT_RX. -/
def State.countRx (s : State) (p n : Nat) : State := s.updPort p fun x => { x with rx := wrapAdd 48 x.rx n }
/-- A frame of `n` bytes has come in on a port, on a fabric port under the next SEQ (R418, R420). -/
def State.rxFrame (s : State) (p n : Nat) : State :=
  s.updPort p fun x => { x with rx := wrapAdd 48 x.rx n, rxSeq := if x.role = 1 then wrapAdd 32 x.rxSeq 1 else x.rxSeq }
/-- The bytes of a DEVICE, TIMING or FENCE frame, whose payload the spec does not lay out. -/
def State.otherBytes (s : State) (p : Nat) : Nat := 32 + Config.unstated "payload of a frame" [p, (s.port p).rx]
/-- A tenant's link budget left on a port (R69). -/
def State.linkBudget (s : State) (t p : Nat) : Budget := Tab.look {} s.spn.budgetLink (16 * t + p)
/-- A tenant's link budget on a port in the committed jig (R69). -/
def State.linkBudgetFull (s : State) (t p : Nat) : Nat := if s.jig.loaded then Tab.look 0 s.jig.cfg.linkBudget (16 * t + p) else 0
/-- Charge bytes to a tenant's link budget on a port (R69). -/
def State.chargeLink (s : State) (t p n : Nat) : State :=
  let b := s.linkBudget t p
  { s with spn := { s.spn with budgetLink := Tab.put {} s.spn.budgetLink (16 * t + p) { b with remaining := b.remaining - n } } }
/-- Traffic of a tenant waits for link budget on a port (R69). -/
def State.waitLink (s : State) (t p : Nat) : State :=
  { s with spn := { s.spn with budgetLink := Tab.put {} s.spn.budgetLink (16 * t + p) { s.linkBudget t p with waited := true } } }

/-- The port entry of member `m` in the committed jig (R415). -/
def State.jigPort (s : State) (m p : Nat) : JigPort := (s.jig.cfg.ports.getD m []).getD p {}
/-- The slot table of a port of member `m`. -/
def State.portTable (s : State) (m p : Nat) : SlotTable :=
  if s.jig.loaded then Tab.look (List.replicate 64 8) (s.jig.cfg.slots.getD m []) (slotKey .port p) else List.replicate 64 8
/-- A tenant owns TRANSPORT slots of a port of member `m`; with `sched`, SCHEDULED ones (R63). -/
def State.ownsPort (s : State) (sched : Bool) (m p t : Nat) : Bool :=
  (s.portTable m p).any (fun e => e % 16 == t && e / 16 % 2 == b2n (!sched))
/-- The member that a list of hops leads to from a member. -/
def memberAfter (c : JigConfig) : Nat → List Nat → Nat
  | m, [] => m
  | m, p :: r => memberAfter c ((c.ports.getD m []).getD p {}).peerMember r
/-- The route to a member in the active route set. -/
def State.routeTo (s : State) (m : Nat) : Option FabRoute := s.routeSet.routes.find? (fun r => r.src == s.jig.me && r.dst == m)
/-- The tenant owns slots of the class on every port of a route from member `m` on. -/
def State.ownsRoute (s : State) (sched : Bool) (t : Nat) : Nat → List Nat → Bool
  | _, [] => true
  | m, p :: r => s.ownsPort sched m p t && s.ownsRoute sched t (s.jigPort m p).peerMember r
/-- Charged bytes of an Etkai packet (R424). -/
def etkaiCharge (eth : Bool) (payload : Nat) : Nat := if eth then 134 + payload else 88 + payload

/-- Charged bytes of a SCHEDULED frame that carries data (R418, R424). -/
def scheduledCharge (n : Nat) : Nat := 40 + n

/-- A request goes over Ethernet. -/
def WorkReq.eth (w : WorkReq) : Bool := bitAt w.flags 1
/-- The port by which a request's packets leave: the lowest Ethernet-role port with TRANSPORT slots of the tenant, or the first of the
route (R424, R445; DESIGN CHOICE 20). -/
def State.egress (s : State) (t : Nat) (w : WorkReq) : Option Nat :=
  if w.eth then (List.range 16).find? (fun p => (s.port p).role == 2 && s.ownsPort false s.jig.me p t)
  else
    match s.routeTo w.dstMember with
    | some r => if s.ownsRoute false t s.jig.me r.ports then r.ports.head? else none
    | none => none

/-- The number of a flow: source endpoint, destination endpoint, and member or address and UDP port (R427). -/
def flowKey (e : Nat) (w : WorkReq) : Nat :=
  e + 2 ^ 13 * (w.dstEp + 2 ^ 16 * (if w.eth then 1 + 2 * (w.dstUdp + 2 ^ 16 * w.dstIpv6) else 2 * w.dstMember))
/-- A flow as R430 starts it. -/
def newFlow (key turn : Nat) : Flow := { key := key, window := 16, lastTurn := turn, acks := 0, sent := 0, halved := 0, rtt := none }
/-- The flow of a number, or a new one. -/
def State.flow (s : State) (key : Nat) : Flow := (s.fab.flows.find? (fun f => f.key == key)).getD (newFlow key s.turn)
/-- Flows in the table at most (R434). -/
def maxFlows : Nat := 16384
/-- Replace a flow, which becomes the one used last; a new flow evicts the one idle longest where the table is full (R434). -/
def State.setFlow (s : State) (f : Flow) : State :=
  let others := s.fab.flows.filter (fun x => x.key != f.key)
  if others.length < maxFlows then s.updFab fun x => { x with flows := others ++ [f] }
  else s.updFab fun x => { x with flows := others.drop 1 ++ [f], evicted := satAdd 16 x.evicted 1 }

/-- A packet is in flight: sent, and not held back by a NAK. -/
def SendPkt.inFlight (k : SendPkt) : Bool := decide (0 < k.tries) && k.waitUntil.isNone
/-- Packets of a flow in flight (R430). -/
def State.inFlight (s : State) (e key : Nat) : Nat :=
  (((s.ep e).sends.filter (fun m => flowKey e m.req == key)).map (fun m => (m.left.filter SendPkt.inFlight).length)).sum

/-- Bytes of packet `i` of a message. -/
def SendMsg.bytes (m : SendMsg) (i : Nat) : List Byte := (m.data.drop (4096 * i)).take 4096
/-- Packets of a message (R426). -/
def SendMsg.count (m : SendMsg) : Nat := ceilDiv m.data.length 4096
/-- Packet `i` of a message of endpoint `e` (R426). -/
def SendMsg.packet (m : SendMsg) (me e : Nat) (k : SendPkt) : Packet :=
  let w := m.req
  let op := w.kind - 1
  { op := op, retx := decide (0 < k.sends), tenant := w.dstTenant, code := if op = 3 then w.format else 0, srcEp := e, dstEp := w.dstEp,
    pktIndex := k.idx, pktCount := m.count, regionKey := if op = 0 then 0 else w.regionKey, msgId := m.msgId,
    offset := 4096 * k.idx + (if op = 0 then 0 else w.remoteOffset), opId := if op = 3 then w.opId else 0, srcMember := me,
    dstMember := if w.eth then 0xFFFF else w.dstMember, payload := m.bytes k.idx }

/-- Change a packet of a message of endpoint `e`. -/
def State.updPkt (s : State) (e msgId idx : Nat) (f : SendPkt → SendPkt) : State :=
  s.updEp e fun x => { x with sends := x.sends.map (fun m =>
    if m.msgId == msgId then { m with left := m.left.map (fun k => if k.idx == idx then f k else k) } else m) }

/-- The 16 bytes of a fabric frame's header: KIND 0 SCHEDULED, 1 TRANSPORT, 2 TIMING, 3 DEVICE, 4 FENCE; OWNER, ROUTE, LENGTH,
DST_MEMBER, SEQ and ACK_SEQ (R418). -/
def fabHeader (kind owner route length dst seq ack : Nat) : List Byte :=
  leBytes 1 kind ++ leBytes 1 owner ++ leBytes 2 route ++ leBytes 2 length ++ leBytes 2 dst ++ leBytes 4 seq ++ leBytes 4 ack

/-- The index in the active route set of the route from this member to another; 0xFFFF where there is none (R418). -/
def State.routeIndex (s : State) (m : Nat) : Nat :=
  (s.routeSet.routes.findIdx? (fun r => r.src == s.jig.me && r.dst == m)).getD 0xFFFF

/-- Number a frame of `len` charged bytes on a fabric port with the next SEQ, put it in the replay buffer and send it (R418, R420);
an Ethernet port numbers nothing. -/
def State.numberFrame (s : State) (p kind owner route dst len : Nat) : State :=
  let x := s.port p
  if x.role = 1 then
    let seq := x.txSeq + 1
    let head := fabHeader kind owner route (len - 40) dst seq x.rxSeq
    (s.setPort p { x with
      txSeq := wrapAdd 32 x.txSeq 1, keySeq := max x.keySeq seq, replay := x.replay ++ [{ seq := seq, head := head, at_ := s.pos }] }).emit
      (.frame p head)
  else s

/-- The 48 bytes of an Etkai header (R426): `type` 1 DATA, 2 ACK, 3 NAK, with the CODE given. -/
def packetHeader (p : Packet) (type code : Nat) : List Byte :=
  leBytes 4 0x4B544558 ++ leBytes 1 1 ++ leBytes 1 type ++ leBytes 1 p.op ++
  leBytes 1 (b2n p.retx + 2 * b2n p.ece + 4 * b2n p.dup) ++ leBytes 1 p.tenant ++ leBytes 1 code ++ leBytes 2 p.srcEp ++
  leBytes 2 p.dstEp ++ leBytes 2 p.pktIndex ++ leBytes 2 p.pktCount ++ leBytes 2 p.payload.length ++ leBytes 4 p.regionKey ++
  leBytes 8 p.msgId ++ leBytes 8 p.offset ++ leBytes 4 p.opId ++ leBytes 2 p.srcMember ++ leBytes 2 p.dstMember

/-- An ACK or NAK to a packet: the fields of R426 that it copies, the others 0, and no payload. -/
def packetAnswer (p : Packet) (ece dup : Bool) : Packet :=
  { op := p.op, tenant := p.tenant, srcEp := p.srcEp, dstEp := p.dstEp, pktIndex := p.pktIndex, pktCount := p.pktCount, msgId := p.msgId,
    srcMember := p.srcMember, dstMember := p.dstMember, ece := ece, dup := dup }

/-- The frame that carries a packet over an Ethernet port: to GATEWAY_MAC, from the port's own addresses, with ECT(0) on DATA (R416, R417,
R433); none on a fabric port. -/
def State.ethHead (s : State) (p dst udp : Nat) (data : Bool) : Option EthHead :=
  let x := s.jigPort s.jig.me p
  let own := if x.udpPort = 0 then 48620 else x.udpPort
  if (s.port p).role = 2 then
    some { dstMac := x.gatewayMac, srcMac := x.mac, ecn := if data then 2 else 0, srcIpv6 := x.ipv6, dstIpv6 := dst, srcUdp := own,
           dstUdp := udp }
  else none
/-- Frames that a replay buffer holds (R420). -/
def replayDepth : Nat := 256

/-! ### What a port may send now (R64, R67, R69, R70, R89, R420, R422, R424) -/

/-- The current slot of a port is its owner's, in the class (R64, R424). -/
def State.portSlot (s : State) (sched : Bool) (p owner : Nat) : Bool :=
  let e := s.slotEntry .port p (s.slotOf s.pos)
  e % 16 == owner && e / 16 % 2 == b2n (!sched)

/-- The port's transmitter works for a consumer: nothing is frozen, stopped or realigning, and a tenant's turn is not withheld from the
port class (R46, R83, R89, R90). -/
def State.portWorks (s : State) (owner : Nat) : Bool :=
  !s.frozen && !s.spn.stopped && !s.realigning && (decide (8 ≤ owner) || s.granted owner .port)

/-- Room in the replay buffer of a fabric port, and a SEQ below 2^31, by which its keys must have been refreshed (R419, R420). -/
def State.replayRoom (s : State) (p : Nat) : Bool :=
  (s.port p).role != 1 || (decide ((s.port p).replay.length < replayDepth) && decide ((s.port p).txSeq + 1 < 2 ^ 31))

/-- Budget for a frame (R69); DEVICE is not budgeted. -/
def State.hasBudget (s : State) (owner p n : Nat) : Bool := decide (8 ≤ owner) || decide (n ≤ (s.linkBudget owner p).remaining)

/-- The frame may be issued now but for its budget. -/
def State.mayLaunch (s : State) (f : PortFrame) : Bool :=
  s.portWorks f.owner && s.portSlot f.sched f.port f.owner && (s.port f.port).state == 1 && s.replayRoom f.port

/-- A frame is issued: charged, counted, numbered on a fabric port, and sent (R69, R418, R420, R424). -/
def State.launch (s : State) (f : PortFrame) : State :=
  let s := if f.owner < 8 then s.chargeLink f.owner f.port f.len else s
  let route := match f.dest with | some m => s.routeIndex m | none => 0xFFFF
  ((s.countTx f.port f.len).numberFrame f.port (if f.sched then 0 else 1) f.owner route (f.dest.getD (s.port f.port).peer) f.len).emit f.out

/-- An earlier frame of the same port, owner and class waits. -/
def State.behind (s : State) (f : PortFrame) : Bool :=
  s.waiting.any (fun w => w.port == f.port && w.owner == f.owner && w.sched == f.sched)

/-- Issue a frame, or let it wait for its slot, its budget or its port behind those that wait; a TRANSPORT packet to a port out of
service is lost, and a SCHEDULED frame is held (R64, R70, R422, R424). -/
def State.sendFrame (s : State) (f : PortFrame) : State :=
  if !f.sched && (s.port f.port).state != 1 then s
  else if s.behind f || !s.mayLaunch f then { s with waiting := s.waiting ++ [f] }
  else if s.hasBudget f.owner f.port f.len then s.launch f
  else { s.waitLink f.owner f.port with waiting := s.waiting ++ [f] }

/-- Frames that wait go out as far as slots, budgets and ports allow, oldest first (R64, R70, R424). -/
def State.drainFrames (s : State) : State :=
  ({ s with waiting := [] } : State).each s.waiting State.sendFrame

/-- The hop by which a frame on a fabric route leaves member `m`. -/
def hopOf (c : JigConfig) (r : FabRoute) (m : Nat) : Option Nat :=
  (r.ports.zipIdx.find? (fun x => memberAfter c r.src (r.ports.take x.2) == m)).map (·.1)

/-- Send a SCHEDULED frame of a tenant to a member by the first port of its route (R424). -/
def State.sendTo (s : State) (owner member n : Nat) (o : Nat → Out) : State :=
  match (s.routeTo member).bind (fun r => r.ports.head?) with
  | some p => s.sendFrame { port := p, owner := owner, sched := true, len := n, dest := some member, out := o p }
  | none => s

/-- Send bytes of a tenant to a member in SCHEDULED frames of up to 4,096 bytes of data (R418, R449; DESIGN CHOICE for exchanges other than
PUSH and BCAST: notes/assumptions/44.md); `o` says what a frame is, from its port, its data and whether it is the last. -/
def State.sendData (s : State) (owner member : Nat) (bs : List Byte) (o : Nat → List Byte → Bool → Out) : State :=
  let n := max 1 (ceilDiv bs.length 4096)
  s.each (List.range n) (fun s i =>
    let x := (bs.drop (4096 * i)).take 4096
    s.sendTo owner member (scheduledCharge x.length) (fun p => o p x (i + 1 == n)))

/-- Frames held for a port out of service take the port that the committed route set now gives them (R121, R422). -/
def State.reroute (s : State) : State :=
  { s with waiting := s.waiting.map (fun f =>
      if f.sched && (s.port f.port).state != 1 then
        match (f.dest.bind s.routeTo).bind (fun r => r.ports.head?) with | some p => { f with port := p } | none => f
      else f) }

/-- Send a packet where the tenant's work, slot, budget and the port allow; a packet to a port out of service is lost (R64, R422, R424,
R430). -/
def State.sendPkt (s : State) (e : Nat) (m : SendMsg) (k : SendPkt) : State :=
  let x := s.ep e
  match s.egress x.tenant m.req with
  | none => s
  | some p =>
    let n := etkaiCharge m.req.eth (m.bytes k.idx).length
    let up := (s.port p).state == 1
    if !s.issuing x.tenant || !s.granted x.tenant .port ||
       (up && (!s.portSlot false p x.tenant || !s.replayRoom p)) then s
    else if up && decide ((s.linkBudget x.tenant p).remaining < n) then s.waitLink x.tenant p
    else
      let key := flowKey e m.req
      let f := s.flow key
      let s := s.setFlow { f with sent := f.sent + 1, lastTurn := s.turn }
      let s := s.updPkt e m.msgId k.idx fun y => { y with
        sends := y.sends + 1, tries := y.tries + 1, sentAt := s.pos, number := f.sent + 1, waitUntil := none }
      let s := if 0 < k.sends then
        s.updEp e fun x => { x with sends := x.sends.map (fun y => if y.msgId == m.msgId then { y with retransmitted := true } else y) }
        else s
      if up then 
        let y := m.packet s.jig.me e k
        (((s.chargeLink x.tenant p n).countTx p n).numberFrame p 1 x.tenant (s.routeIndex m.req.dstMember) m.req.dstMember n).emit
          (.packet (s.ethHead p m.req.dstIpv6 m.req.dstUdp true) (packetHeader y 1 y.code ++ y.payload))
      else s

/-- Send the packets of endpoint `e` that have not been sent, as far as the windows allow (R430). -/
def State.pump (s : State) (e : Nat) : State :=
  s.each ((s.ep e).sends.flatMap (fun m => (m.left.filter (fun k => k.sends == 0)).map (fun k => (m, k)))) (fun s x =>
    let key := flowKey e x.1.req
    if s.inFlight e key < (s.flow key).window then s.sendPkt e x.1 x.2 else s)

/-- A packet of a message that has not been sent. -/
def SendMsg.unsent (m : SendMsg) : List SendPkt := m.left.filter (fun k => k.sends == 0)

/-- Send the first unsent packet of each flow of endpoint `e`, as far as the windows allow (R425, R430). -/
def State.pumpOne (s : State) (e : Nat) : State :=
  let keys := ((s.ep e).sends.map (fun m => flowKey e m.req)).eraseDups
  s.each keys (fun s key =>
    match (s.ep e).sends.find? (fun m => flowKey e m.req == key && !m.unsent.isEmpty) with
    | none => s
    | some m =>
      match m.unsent with
      | k :: _ => if s.inFlight e key < (s.flow key).window then s.sendPkt e m k else s
      | [] => s)

/-- Send what every endpoint has waiting: the flows in rotation, one packet at a time, in ascending source endpoint (R425). -/
def State.pumpAll (s : State) : State :=
  let es := s.fab.eps.filter (fun x => !x.2.sends.isEmpty)
  let most := (es.map (fun x => (x.2.sends.map (fun m => m.unsent.length)).sum)).foldl max 0
  s.each (List.range most) (fun s _ => s.each es (fun s x => s.pumpOne x.1))

/-- The 32 bytes of an endpoint's completion (R444). -/
def epEntry (st : Status) (flags tag kind srcEp length regionKey msgId srcMember : Nat) (phase : Bool) : List Byte :=
  leBytes 1 st.code ++ leBytes 1 flags ++ leBytes 2 tag ++ leBytes 1 kind ++ leBytes 1 0 ++ leBytes 2 srcEp ++ leBytes 4 length ++
  leBytes 4 regionKey ++ leBytes 8 msgId ++ leBytes 2 srcMember ++ leBytes 5 0 ++ leBytes 1 (b2n phase)

/-- The phase bit of an endpoint's first pass, which the spec leaves open. -/
def firstPhase (e : Nat) : Bool := Config.unstated "first phase of an endpoint's completion queue" [e] % 2 == 1

/-- Post a completion to the completion queue of endpoint `e` (R444). -/
def State.epPost (s : State) (e : Nat) (st : Status) (flags tag kind srcEp length regionKey msgId srcMember : Nat) : State :=
  let x := s.ep e
  let next := (x.cqTail + 1) % x.cqSize
  let s := s.writeVA x.tenant (x.cqBase + 32 * x.cqTail)
    (epEntry st flags tag kind srcEp length regionKey msgId srcMember (x.cqPass != firstPhase e)) 2
  (s.updEp e fun x => { x with cqTail := next, cqPass := if next = 0 then !x.cqPass else x.cqPass }).emit (.epDone e st flags tag kind)

/-- Completion flag RETRANSMITTED (R429, R538). -/
def flagRetransmitted : Nat := 2

/-- A park that waits completes once every message already sent has completed (R447). -/
def State.tryPark (s : State) (e : Nat) : State :=
  let x := s.ep e
  match x.parkCmd with
  | some c => if x.sends.isEmpty && x.pushes.isEmpty then (s.setEp e { x with state := 2, parkCmd := none }).ok c else s
  | none => s

/-- The completion of a request of endpoint `e` (R445). -/
def State.reqDone (s : State) (e : Nat) (w : WorkReq) (st : Status) (flags msgId : Nat) : State :=
  s.epPost e st flags w.tag w.kind e w.length w.regionKey msgId s.jig.me

/-- A message ends with a status: it leaves the endpoint and completes (R428, R429, R431, R432). -/
def State.endMsg (s : State) (e : Nat) (m : SendMsg) (st : Status) : State :=
  let s := s.updEp e fun x => { x with sends := x.sends.filter (fun y => y.msgId != m.msgId) }
  (s.reqDone e m.req st (flagVaried + (if m.retransmitted then flagRetransmitted else 0)) m.msgId).tryPark e

end Sys2Proof.Machine
end

