-- ==== Sys2Proof/Machine/Firmware.lean ====
section
/-! DEFINITION. Machine/Firmware.lean: loading, readiness and stop of the firmware, the host heartbeat, ATTACH and the
Shavings queues' commands (R497 to R517). -/

namespace Sys2Proof.Machine

/-- Change the firmware's record. -/
def State.updFw (s : State) (f : Fw → Fw) : State := { s with dbg := { s.dbg with fw := f s.dbg.fw } }
/-- Change the supervision record. -/
def State.updHost (s : State) (f : HostSup → HostSup) : State := { s with dbg := { s.dbg with host := f s.dbg.host } }
/-- A FIRMWARE event (class 10) in the device queue. -/
def State.fwEvent (s : State) : State := s.event 0 10 0 0xA (s.dbg.fw.state.code + s.dbg.fw.stopCause * 256)

/-- Check 2 of R499 on the image's header, with IMAGE_LENGTH as R498 fixes it. -/
def fwHeaderOk (s : State) (b : List Byte) (len : Nat) : Bool :=
  field b 0 4 == 0x49574658 && field b 4 2 == 1 && field b 6 2 == 0x80 && field b 8 4 == len &&
  decide (len ≤ 1572864) && field b 0x18 4 + 8240 == len && field b 0xC 2 == 0x7264 &&
  bitAt (field b 0xE 1) (if s.sec.stepping = 0xA2 then 0 else 1) && decide (field b 0xE 1 < 4) &&
  decide (field b 0xF 1 < 2) && zeroAt b 0x12 2 && zeroAt b 0x50 48 && decide (field b 0x14 4 ≤ 255)

/-- The first failing check of R499: its number and status. -/
def fwCheck (s : State) (b : List Byte) (len : Nat) (hostError : Bool) (sig : SigPair) : Option (Nat × Status) :=
  if len < 8368 || 1572864 < len then some (2, .cfgMismatch)
  else if hostError then some (1, .xlateFault)
  else if !fwHeaderOk s b len then some (2, .cfgMismatch)
  else if field b 0x20 48 != Config.vendorKeys s.sec.partB || !sig.ok then some (3, .cfgSignature)
  else if field b 0x14 4 < s.sec.otpSvn then some (4, .cfgSignature)
  else none

/-- FW_LOAD: accepted in LOAD_WAIT only, from a 64-byte aligned bus address; an image that passes R499 boots (R497 to R500). -/
def execFwLoad (c : Cmd) (hostError : Bool) (sig : SigPair) (s : State) : Host.Outcome State Fault Refusal :=
  .next <| s.command 0x08 c fun s =>
    let s := s.updFw fun f => { f with attempts := satAdd 8 f.attempts 1 }
    if s.dbg.fw.state != .loadWait then s.fail c .cfgLocked
    else if c.addr % 64 != 0 then s.fail c .bounds
    else
      match fwCheck s c.host c.len hostError sig with
      | some (r, st) => (s.updFw fun f => { f with reason := r, lastStatus := st }).fail c st
      | none =>
        s.updFw fun f => { f with
          state := .booting, reason := 0, measurement := Config.digest "fw" (c.host.take c.len),
          fwClass := field c.host 0x10 2,
          loading := some (some c, field c.host 0x14 4, bitAt (field c.host 0xF 1) 0, s.pos) }

/-- Ticks in 2 s. -/
def bootTicks : Nat := 200000000

/-- FW_READY: firmware ready within 2 s runs; ADVANCE raises the OTP counter before FW_LOAD completes with OK, and heartbeat
supervision begins; its completion carries VARIED, for the image was read over CXL (R73, R76, R500, R511). -/
def execFwReady (s : State) : Host.Outcome State Fault Refusal :=
  match s.dbg.fw.loading with
  | none => .next s
  | some (c, svn, adv, at_) =>
    if s.dbg.fw.state == .booting && s.pos ≤ at_ + bootTicks then
      let s := s.updFw fun f => { f with state := .running, svn := svn, lastStatus := .ok, loading := none }
      let s := { s with
        sec := { s.sec with otpSvn := if adv && s.sec.otpSvn < svn then svn else s.sec.otpSvn },
        pwr := { s.pwr with lastLoop := s.turn / 8 + 1, lastThermal := s.pos } }
      let s := s.updHost fun h => { h with supervised := true, lastBeat := s.pos }
      .next (s.fwEvent.each c.toList (fun s c => s.complete c .ok 0 0 flagVaried))
    else .next s

/-- FW_BOOT_TIMEOUT: not ready within 2 s, the engine returns to LOAD_WAIT and FW_LOAD completes with INTERNAL, REASON 5
(R500). -/
def execFwBootTimeout (s : State) : Host.Outcome State Fault Refusal :=
  match s.dbg.fw.loading with
  | none => .next s
  | some (c, _, _, at_) =>
    if s.dbg.fw.state == .booting && at_ + bootTicks ≤ s.pos then
      let s := s.updFw fun f => { f with state := .loadWait, reason := 5, lastStatus := .internal, loading := none }
      .next (s.fwEvent.each c.toList (fun s c => s.fail c .internal))
    else .next s

/-- FIRMWARE_STOP: no power-loop decision for three frames, or an unrecoverable fault. Fallback grants apply from the next
turn boundary, telemetry stops, and a waiting POWER_LIMIT_SET completes with INTERNAL (R501). -/
def execFirmwareStop (fault : Bool) (s : State) : Host.Outcome State Fault Refusal :=
  if s.dbg.fw.state == .running && (fault || decide (s.pwr.lastLoop + 3 ≤ s.turn / 8)) then
    let s := s.updFw fun f => { f with state := .stopped, stopCause := if fault then 2 else 1 }
    let rails := (List.range 8).foldl
      (fun m n => Tab.put {} m n { Tab.look ({} : Rail) m n with valid := false }) s.pwr.rails
    let cmds := s.pwr.limitCmds
    let s := { s with pwr := { s.pwr with fallbackDue := true, rails := rails, limitCmds := [] } }
    .next (s.fwEvent.each cmds (fun s c => s.fail c .internal))
  else .next s

/-- The 16 records that ATTACH writes: SQ head, SQ tail, CQ tail, phase and a zero byte of each PF0 queue pair (R533). -/
def State.attachRecords (s : State) : List Byte :=
  (List.range 16).flatMap (fun n =>
    let q := s.queue 0 n
    leBytes 2 q.sqHead ++ leBytes 2 q.sqTail ++ leBytes 2 q.cqTail ++ leBytes 1 (b2n q.phase) ++ [0])

/-- The 48-byte measurement that ATTACH names: ARG0 to ARG4 and 8 bytes at ADDR (R533). -/
def State.attachNames (s : State) (c : Cmd) : Nat :=
  leNat (leBytes 8 c.a0 ++ leBytes 8 c.a1 ++ leBytes 8 c.a2 ++ leBytes 8 c.a3 ++ leBytes 8 c.a4 ++
    s.readVA 0 c.addr 8 c.host)

/-- ATTACH: a match writes the queue state, is counted, and ends HOST_LOST at the next turn boundary; a mismatch is refused
and HOST_LOST continues (R514, R533). -/
def execAttach (c : Cmd) (s : State) : Host.Outcome State Fault Refusal :=
  .next <| s.command 0x83 c fun s =>
    match firstFail [(s.dbg.fw.state == .booting, .bounds), (decide (c.len < 128), .bounds)] with
    | some st => s.fail c st
    | none =>
      match s.blockFail 0 c.addr 128 (fun p => p.r && p.w) with
      | some st => s.fail c st
      | none =>
        if s.attachNames c != s.dbg.fw.measurement then s.fail c .cfgMismatch
        else
          let s := s.writeVA 0 c.addr s.attachRecords 4
          let s := s.updHost fun h => { h with attaches := wrapAdd 16 h.attaches 1, ending := h.lost }
          (s.hostEvent 2).ok c

/-- HOST_LOST ends: completions and interrupts held are posted in their order (R512, R514). -/
def State.endHostLost (s : State) : State :=
  let ks := s.hif.held
  let is := s.hif.heldIrqs
  let s := s.updHost fun h => { h with lost := false, limitPassed := false, linkDown := false, ending := false }
  let s := { s with hif := { s.hif with held := [], heldIrqs := [] } }
  (s.each ks State.post).each is (fun s i => s.interrupt i.1 i.2)

/-- The boundary at which HOST_LOST is entered, where one is due: the first after the heartbeat limit has passed, or after
the link went down (R511). -/
def State.hostLostAt (s : State) : Option Nat :=
  if !s.dbg.host.supervised || s.dbg.host.lost then none
  else
    match s.dbg.host.downAt with
    | some p => some (s.boundaryAfter p)
    | none => some (s.boundaryAfter (s.dbg.host.lastBeat + s.jig.live.heartbeatMs * 100000))

/-- HOST_LOST_ENTRY (R511, R512). -/
def execHostLostEntry (s : State) : Host.Outcome State Fault Refusal :=
  match s.hostLostAt with
  | none => .next s
  | some b =>
    if s.due b then
      let down := s.dbg.host.downAt.isSome
      let s := s.updHost fun h => { h with
        lost := true, limitPassed := false, linkDown := down, downAt := none, lostAt := b,
        lostCount := satAdd 16 h.lostCount 1, ending := false }
      .next (s.hostEvent 0)
    else .next s

/-- SHAVINGS_CONFIG: mask, vector and threshold of a queue; a VF may name only its own (R517). -/
def execShavingsConfig (c : Cmd) (s : State) : Host.Outcome State Fault Refusal :=
  .next <| s.command 0xA0 c fun s =>
    match firstFail [(c.fn.val != 0 && c.a0 != c.fn.val + 1, .rights),
      (decide (8 < c.a0) || decide (2 ^ 32 ≤ c.a1) || decide (63 < c.a2) || c.a3 == 0 || decide (4096 < c.a3), .bounds)] with
    | some st => s.fail c st
    | none =>
      let q := s.shv c.a0
      (s.setShv c.a0 { q with mask := if c.a0 = 0 then q.mask else c.a1, vector := c.a2, threshold := c.a3 }).ok c

/-- A pop: the oldest entry moves into the latch; a pop of an empty queue marks the latch and EMPTY_READ (R516). -/
def ShvQueue.pop (q : ShvQueue) : ShvQueue :=
  match q.entries with
  | e :: r => { q with entries := r, latch := some e }
  | [] => { q with emptyRead := true, latch := q.latch.map (fun e => { e with underrun := true }) }

/-- DBG_SHV_POP: a write with POP 1 pops queue `q`; a VF reaches its own queue only (R516, R521). -/
def execDbgShvPop (fn : FnId) (q : Fin 9) (pop : Bool) (s : State) : Host.Outcome State Fault Refusal :=
  .next <| s.ifWritable fun s =>
    if fn.val != 0 && q.val != fn.val + 1 then s.windowMiss fn.val (0x01200200 + 8 * q.val) true
    else if pop then s.setShv q.val (s.shv q.val).pop else s

end Sys2Proof.Machine
end

