-- ==== Sys2Proof/Machine/Power.lean ====
section
/-! DEFINITION. Machine/Power.lean: the power and thermal loops, trips, limits and the SMBus sideband (R502 to R510, R551,
R558). -/

namespace Sys2Proof.Machine

/-- Change the PWR block. -/
def State.updPwr (s : State) (f : Pwr → Pwr) : State := { s with pwr := f s.pwr }

/-- Core ratio of a rung (R503). -/
def rungRatio (r : Nat) : Nat := match r with | 0 => 33 | 1 => 30 | 2 => 27 | _ => 24

/-- Duty of band `b` at rung `r` (R503). -/
def rungDuty (r b : Nat) : Nat :=
  if r ≤ 3 then 8
  else if r ≤ 11 then (if b + 4 ≤ r then 4 else 8)
  else if r ≤ 19 then (if b + 12 ≤ r then 2 else 4)
  else (if b + 20 ≤ r then 1 else 2)

/-- The band that rung `r`, from 4 on, cuts beyond the rung above it (R503). -/
def rungBand (r : Nat) : Nat := if r ≤ 11 then r - 4 else if r ≤ 19 then r - 12 else r - 20

/-- Band of a tenant's class (R520). -/
def State.band (s : State) (t c : Nat) : Nat := Tab.look 0 s.pwr.bands (8 * t + c)

/-- Rung `r` changes nothing that issued: its band had no issuing consumer (R504). -/
def passedOver (bands : List Nat) (r : Nat) : Bool := decide (4 ≤ r) && !bands.contains (rungBand r)

/-- Move `n` rungs towards 27, passing over rungs that cut nothing that issued (R504); `fuel` bounds the ladder. -/
def deeper (bands : List Nat) : Nat → Nat → Nat → Nat
  | 0, r, _ => r
  | _, r, 0 => r
  | fuel + 1, r, n + 1 =>
    if 27 ≤ r then 27
    else if passedOver bands (r + 1) then deeper bands fuel (r + 1) (n + 1) else deeper bands fuel (r + 1) n

/-- Move `n` rungs towards 0, passing over rungs that restore nothing that issued (R504). -/
def shallower (bands : List Nat) : Nat → Nat → Nat → Nat
  | 0, r, _ => r
  | _, r, 0 => r
  | fuel + 1, r, n + 1 =>
    if r = 0 then 0
    else if passedOver bands r then shallower bands fuel (r - 1) (n + 1) else shallower bands fuel (r - 1) n

/-- The limit the loop uses: the host value, or the sideband cap where that is lower (R506). -/
def effectiveLimit (host sideband : Nat) : Nat := if sideband != 0 && sideband < host then sideband else host

/-- What a run of the loop decides: rung, settling, calm (R504); power in 0.1 W, limit in W. -/
def loopDecide (bands : List Nat) (rung : Nat) (settling : Bool) (calm p limit : Nat) : Nat × Bool × Nat :=
  if settling then (rung, false, calm)
  else if 11 * limit < p then (deeper bands 27 rung 3, true, 0)
  else if 10 * limit < p then (deeper bands 27 rung 1, true, 0)
  else if 2 * p ≤ 19 * limit then
    (if calm + 1 = 4 then (shallower bands 27 rung 1, true, 0) else (rung, false, calm + 1))
  else (rung, false, 0)

/-- A POWER event (class 9) in the device queue. -/
def State.powerEvent (s : State) (cause word : Nat) : State :=
  s.event 0 9 0 0xA (s.pwr.loopRung + cause * 256 + word % 2 ^ 16 * 2 ^ 16)

/-- The factory VDD_CORE setpoint of a ratio with the calibration delta in effect, in mV (R490, R551). -/
def State.setpoint (s : State) (ratio : Nat) : Int :=
  let id := match ratio with | 33 => 1 | 30 => 2 | 27 => 3 | _ => 4
  Config.factoryCal id + Tab.look 0 s.sec.calEffect id

/-- POWER_LOOP: in turn 0 of a frame the firmware measures the last frame, decides the rung of the next, completes a waiting
POWER_LIMIT_SET and, for a ratio rise, writes the higher setpoint with VOUT_COMMAND (R504, R506, R551). -/
def execPowerLoop (deciWatts : Nat) (issued : List (Nat × Nat)) (s : State) : Host.Outcome State Fault Refusal :=
  let frame := s.turn / 8
  if s.dbg.fw.state == .running && !s.frozen && s.turn % 8 == 0 && s.pwr.lastLoop != frame + 1 then
    let p := (deciWatts * (1024 + Tab.look 0 s.sec.calEffect 0x20).toNat) / 1024
    let bands := issued.map (fun x => s.band x.1 x.2)
    let w := s.pwr
    let cmds := w.limitCmds
    let hostW := match cmds.getLast? with | some c => c.a0 | none => w.hostW
    let limit := effectiveLimit hostW w.sidebandW
    let (r1, set1, calm1) := loopDecide bands w.loopRung w.settling w.calm p limit
    let tripped := w.tripFrame == frame
    let rung := if tripped then deeper bands 27 r1 3 else r1
    let settling := if tripped then true else set1
    let calm := if tripped then 0 else calm1
    let next := max rung w.nextFloor
    let rise := rungRatio w.rung < rungRatio next
    let wait := if rise then some (s.setpoint (rungRatio next)).toNat else none
    let vdd := wait.getD w.vddSet
    let moved := rung != w.loopRung
    let s := s.updPwr fun w => { w with
      loopRung := rung, settling := settling, calm := calm, nextRung := some next, lastDw := p % 2 ^ 16,
      peakDw := max w.peakDw (p % 2 ^ 16), loops := wrapAdd 32 w.loops 1, lastLoop := frame + 1, hostW := hostW,
      effectiveW := limit, limitCmds := [], vddWait := wait, vddSet := vdd }
    let s := if moved then s.powerEvent 0 0 else s
    .next (s.each cmds (fun s c => s.ok c))
  else .next s

/-- VDD_CORE_CHECK: in turn 6 of a frame the firmware reads VDD_CORE; more than 1.5 % below a pending higher setpoint, the
ratio rise waits one more frame and a POWER event is raised (R551). -/
def execVddCoreCheck (millivolts : Nat) (s : State) : Host.Outcome State Fault Refusal :=
  if s.dbg.fw.state == .running && !s.frozen && s.turn % 8 == 6 then
    let r := Tab.look ({} : Rail) s.pwr.rails 0
    let s := s.updPwr fun w => { w with
      vddMv := millivolts, rails := Tab.put {} w.rails 0 { r with mv := millivolts % 2 ^ 16, valid := true } }
    match s.pwr.vddWait with
    | some v =>
      if 1000 * millivolts < 985 * v then
        .next (State.powerEvent (s.updPwr fun w => { w with nextRung := some (max w.rung (w.nextRung.getD w.rung)) }) 0 0)
      else .next (s.updPwr fun w => { w with vddWait := none })
    | none => .next s
  else .next s

/-- A THERMAL event (class 8): highest temperature, floor, hot. -/
def State.thermalEvent (s : State) (t : Int) : State :=
  s.event 0 8 0 0xA (ofSigned 16 t + s.pwr.nextFloor * 2 ^ 16 + b2n s.pwr.hot * 2 ^ 24)

/-- The greatest of a list of temperatures. -/
def hottest : List Int → Int
  | [] => 0
  | [t] => t
  | t :: r => max t (hottest r)

/-- THERMAL_LOOP, every 1,000,000 ticks: the floor rises at 100 °C and falls at 95 °C, from the next frame boundary on, and
a warning is raised at TEMP_WARN_C (R508). Readings are in 1/16 °C. -/
def execThermalLoop (temps : List Int) (s : State) : Host.Outcome State Fault Refusal :=
  if s.dbg.fw.state == .running && !s.frozen && s.pwr.lastThermal + 1000000 ≤ s.pos then
    let ts := (List.range 16).map (fun i => temps.getD i 0 + Tab.look 0 s.sec.calEffect (0x10 + i))
    let t := hottest ts
    let w := s.pwr
    let floor := if 1600 ≤ t then min 27 (w.nextFloor + 1) else if t ≤ 1520 then w.nextFloor - 1 else w.nextFloor
    let warn : Int := 16 * s.jig.live.tempWarnC
    let fire := !w.warned && decide (warn ≤ t)
    let s := s.updPwr fun w => { w with
      nextFloor := floor, lastThermal := s.pos, warned := decide (warn ≤ t) || (w.warned && decide (warn - 32 < t)),
      temp := (List.range 16).foldl (fun m i => Tab.put 0 m i (ts.getD i 0)) w.temp,
      tempMax := (List.range 16).foldl (fun m i => Tab.put 0 m i (max (Tab.look 0 m i) (ts.getD i 0))) w.tempMax }
    .next (if fire then s.thermalEvent t else s)
  else .next s

/-- HOT_TRIP: a sensor at 106 °C or more: every tenant consumer is withheld from the next turn boundary (R509). A reading
beyond +125 °C is a tamper trip instead (R481). -/
def execHotTrip (sensor : Fin 16) (temp : Int) (s : State) : Host.Outcome State Fault Refusal :=
  if 1696 ≤ temp && temp ≤ 2000 && !s.pwr.hot && !s.pwr.hotDue then
    let s := s.updPwr fun w => { w with
      hotDue := true, tripHot := satAdd 16 w.tripHot 1, lastCause := 3, temp := Tab.put 0 w.temp sensor.val temp }
    .next (s.thermalEvent temp)
  else .next s

/-- HOT_RELEASE: at a turn boundary with every sensor at 103 °C or less, the withholding ends, in the turn that begins there (R89, R509). -/
def execHotRelease (temps : List Int) (s : State) : Host.Outcome State Fault Refusal :=
  if s.pwr.hot && s.pos % s.turnTicks == 0 && temps.all (fun t => decide (t ≤ 1648)) then
    let s := s.updPwr fun w => { w with hot := false }
    .next (s.updPwr fun w => { w with withheld := s.withheldIn s.turn })
  else .next s

/-- The engine's reset has been released (R81): trips act from edge A onward (R554). -/
def State.released (s : State) : Bool := match s.spn.align with | .released _ => true | .checked _ => true | .done => true | _ => false

/-- A trip stands: the freeze begins within 10 ticks of the first, and lasts until the last has cleared (R90). -/
def State.trip (s : State) : State :=
  { s with spn := { s.spn with tripAt := some (if s.frozen then s.pos else s.spn.tripAt.getD s.pos) } }

/-- FAST_CURRENT_TRIP: counted, recorded, and the engine freezes within 10 ticks (R90, R510). -/
def execFastCurrentTrip (s : State) : Host.Outcome State Fault Refusal :=
  if s.released then
    let s := s.updPwr fun w => { w with tripCurrent := satAdd 16 w.tripCurrent 1, lastCause := 1 }
    .next (s.trip.powerEvent 1 0)
  else .next s

/-- VR_ALERT: ignored before the release edge A; from then on counted, recorded, and the engine freezes. Running firmware
puts the STATUS_WORD in the POWER event (R510, R554). -/
def execVrAlert (statusWord : Nat) (rails : List (Fin 8)) (s : State) : Host.Outcome State Fault Refusal :=
  if s.released then
    let s := s.updPwr fun w => { w with
      tripAlert := satAdd 16 w.tripAlert 1, lastCause := 2,
      rails := rails.foldl (fun m n => Tab.put {} m n.val
        { Tab.look ({} : Rail) m n.val with alerts := satAdd 8 (Tab.look ({} : Rail) m n.val).alerts 1 }) w.rails }
    .next (s.trip.powerEvent 2 (if s.dbg.fw.state == .running then statusWord else 0))
  else .next s

/-- POWER_LIMIT_SET: 450 W to 1,050 W; it completes when the next power loop runs (R501, R506). -/
def execPowerLimitSet (c : Cmd) (s : State) : Host.Outcome State Fault Refusal :=
  .next <| s.command 0x90 c fun s =>
    match firstFail [(decide (c.a0 < 450) || decide (1050 < c.a0), .bounds), (s.dbg.fw.state == .stopped, .internal)] with
    | some st => s.fail c st
    | none => s.updPwr fun w => { w with limitCmds := w.limitCmds ++ [c] }

/-- The sideband answers from the release of POWER-ON reset, always here (R558). MFR_POWER_CAP: 0 removes the cap, other
values are clamped to 450 to 1,050 (R506). -/
def execMfrPowerCap (watts : Nat) (s : State) : Host.Outcome State Fault Refusal :=
  .next (s.updPwr fun w => { w with sidebandW := if watts = 0 then 0 else min 1050 (max 450 watts) })

/-- MFR_POWER_CAP read: the cap in W (R558). -/
def execMfrPowerCapRead (s : State) : Host.Outcome State Fault Refusal := .next (s.emit (.smbus s.pwr.sidebandW))

/-- LINEAR11 of a value in units of 2^−`e`: an 11-bit mantissa and the least exponent that holds it (R558; PMBus). -/
def linear11 (fuel : Nat) (v : Int) (e : Int) : Nat :=
  match fuel with
  | 0 => 0
  | n + 1 => if -1024 ≤ v ∧ v ≤ 1023 then ofSigned 5 e * 2048 + ofSigned 11 v else linear11 n (v / 2) (e + 1)

/-- READ_TEMPERATURE_1: the highest die temperature in °C, LINEAR11 (R558). -/
def execReadTemperature1 (s : State) : Host.Outcome State Fault Refusal :=
  .next (s.emit (.smbus (linear11 16 (hottest ((List.range 16).map (fun i => Tab.look 0 s.pwr.temp i)) / 16) 0)))

/-- READ_PIN: the mean package power of the last frame in W, LINEAR11 (R558). -/
def execReadPin (s : State) : Host.Outcome State Fault Refusal :=
  .next (s.emit (.smbus (linear11 16 (s.pwr.lastDw / 10 : Nat) 0)))

end Sys2Proof.Machine
end

