-- ==== Sys2Proof/Machine/RingOps.lean ====
section
/-! DEFINITION. Machine/RingOps.lean: the ring sequencer's tables and the locks on the pages of its operands (R307, R329, R334,
R341, R350). -/

namespace Sys2Proof.Machine

/-- Parameter set `p` (R307). -/
def State.params (s : State) (p : Nat) : ParamSet := Tab.look {} s.ring.params p
/-- Descriptor `d` (R334). -/
def State.desc (s : State) (d : Nat) : RingDesc := Tab.look {} s.ring.descs d
/-- Evaluation key `k` (R329). -/
def State.evk (s : State) (k : Nat) : Evk := Tab.look {} s.ring.evks k
/-- Plan `p` (R350). -/
def State.plan (s : State) (p : Nat) : Plan := Tab.look {} s.ring.plans p
/-- Exit binding `i` of tenant `t` (R363). -/
def State.exitBind (s : State) (t i : Nat) : ExitBind := Tab.look {} s.ring.exits (4 * t + i)
/-- RING_MACRO commands of tenant `t`, oldest first (R341). -/
def State.macros (s : State) (t : Nat) : List RingMacro := Tab.look [] s.ring.macros t
/-- Change the ring sequencer's state. -/
def State.updRing (s : State) (f : Ring → Ring) : State := { s with ring := f s.ring }
/-- Replace parameter set `p`. -/
def State.setParams (s : State) (p : Nat) (v : ParamSet) : State := s.updRing fun r => { r with params := Tab.put {} r.params p v }
/-- Replace descriptor `d`. -/
def State.setDesc (s : State) (d : Nat) (v : RingDesc) : State := s.updRing fun r => { r with descs := Tab.put {} r.descs d v }
/-- Replace evaluation key `k`. -/
def State.setEvk (s : State) (k : Nat) (v : Evk) : State := s.updRing fun r => { r with evks := Tab.put {} r.evks k v }
/-- Replace plan `p`. -/
def State.setPlan (s : State) (p : Nat) (v : Plan) : State := s.updRing fun r => { r with plans := Tab.put {} r.plans p v }
/-- Replace the RING_MACRO commands of tenant `t`. -/
def State.setMacros (s : State) (t : Nat) (l : List RingMacro) : State :=
  s.updRing fun r => { r with macros := Tab.put [] r.macros t l }
/-- Parameter set `p` is registered and the tenant's (R454). -/
def State.ownsParams (s : State) (t p : Nat) : Bool := (s.params p).valid && (s.params p).owner == t
/-- Descriptor `d` is registered and the tenant's. -/
def State.ownsDesc (s : State) (t d : Nat) : Bool := (s.desc d).valid && (s.desc d).owner == t
/-- Evaluation key `k` is registered and the tenant's. -/
def State.ownsEvk (s : State) (t k : Nat) : Bool := (s.evk k).valid && (s.evk k).owner == t
/-- Plan `p` is registered and the tenant's. -/
def State.ownsPlan (s : State) (t p : Nat) : Bool := (s.plan p).valid && (s.plan p).owner == t

/-- A group belongs to the ring sequencer: some parameter set names it (R311). -/
def State.ringGroup (s : State) (g : Nat) : Bool := s.ring.params.any (fun e => e.2.valid && e.2.group == g)

/-- Bytes of one limb polynomial (R313). -/
def ParamSet.limbBytes (p : ParamSet) : Nat := 4 * 2 ^ p.logN
/-- Components of a descriptor's data (R314). -/
def RingDesc.comps (d : RingDesc) : Nat := if d.type = 0 then 2 else 1
/-- The address and length of every limb polynomial, or LWE ciphertext, that a descriptor lays out (R314, R357). -/
def State.extents (s : State) (d : RingDesc) : List (Nat × Nat) :=
  if d.type = 2 then (List.range d.cap).map (fun i => (d.base + i * d.limbStride, 4 * (d.dim + 1)))
  else (List.range d.comps).flatMap (fun c => (List.range d.cap).map (fun i =>
    (d.base + c * d.compStride + i * d.limbStride, (s.params d.psid).limbBytes)))
/-- Write-lock, or unlock, the pages of a descriptor (R341, R400). -/
def State.lockDesc (s : State) (t : Nat) (d : RingDesc) (lock : Bool) : State :=
  s.each (((s.extents d).flatMap (fun x => pagesOf x.1 x.2)).dedup) (fun s a => s.lockPages t a 1 lock)

/-- An entry that a list does not hold. -/
def noEntry : RingEntry := { op := 0, rsvd1 := 0, dst := 0, a := 0, b := 0, evk := 0, rsvd2 := 0, arg := 0, imm := 0, rsvd3 := 0 }

/-- The entry at the head of a command. -/
def RingMacro.head (m : RingMacro) : RingEntry := m.entries.getD m.pos noEntry

/-- The operation reads B (R338, R359). -/
def usesB (op : Nat) : Bool := [0x01, 0x02, 0x03, 0x04, 0x06].contains op

/-- Destinations of a BLIND_ROTATE: one for each input (R359). -/
def State.blindDests (s : State) (e : RingEntry) : List Nat := (List.range (s.desc e.a).cap).map (· + e.dst)

/-- The descriptors that an entry names (R341). -/
def State.entryDescs (s : State) (e : RingEntry) : List Nat :=
  (if e.op = 0x43 then s.blindDests e else [e.dst]) ++ [e.a] ++ (if usesB e.op || e.op == 0x43 then [e.b] else [])

/-- Write-lock, or unlock, the pages of the descriptors that an entry names (R341). -/
def State.lockEntry (s : State) (t : Nat) (e : RingEntry) (lock : Bool) : State :=
  s.each (s.entryDescs e) (fun s d => s.lockDesc t (s.desc d) lock)

/-- The head entry of a tenant no longer runs, or waits for its committee reply: its request counts as ended and its locks go (R341,
R365). -/
def State.endWait (s : State) (t : Nat) : State :=
  let s := match s.macros t with
    | m :: r => if m.run.isSome then (s.lockEntry t m.head false).setMacros t ({ m with run := none } :: r) else s
    | [] => s
  match s.ring.reqs.find? (fun q => q.tenant == t && q.check.isNone) with
  | none => s
  | some q =>
    let s := s.updRing fun r => { r with
      reqs := r.reqs.filter (fun x => !(x.tenant == t && x.id == q.id))
      settled := r.settled ++ [(t, q.id)] }
    (s.lockDesc t (s.desc q.dst) false).lockDesc t (s.desc q.src) false

/-- Operation codes that have a meaning in a RING_MACRO list (R338, R374). -/
def ringOpKnown (op : Nat) : Bool := (decide (1 ≤ op) && decide (op ≤ 0x0D)) || (decide (0x40 ≤ op) && decide (op ≤ 0x44))

/-- RING_ERR's field for a status: LEVEL, NOISE, EVK, PARAMS (R349). -/
def ringErrField : Status → Option Nat
  | .ctLevelExhausted => some 0 | .ctNoiseExhausted => some 1 | .evkMismatch => some 2 | .evkChunkDigest => some 2
  | .ctParams => some 3 | _ => none

/-- Note how an entry of tenant `t` ended: RING_STATUS, RING_ERR and RING_MACRO_POS (R349). -/
def State.noteEntry (s : State) (t idx op chunks : Nat) (st : Status) : State :=
  s.updRing fun r => { r with
    tenant := t, lastStatus := st, macroPos := Tab.put (0, 0, 0) r.macroPos t (idx, op, chunks % 2 ^ 32)
    err := match ringErrField st with | some f => Tab.put 0 r.err f (satAdd 16 (Tab.look 0 r.err f) 1) | none => r.err }

/-- A RING_MACRO completes with the status and the index of its halting entry (R342). -/
def State.endMacro (s : State) (t : Nat) (m : RingMacro) (st : Status) : State :=
  (s.updRing fun r => { r with tenantStatus := Tab.put .ok r.tenantStatus t st }).complete m.cmd st
    (if st = .ok then Config.unstated "RING_MACRO RESULT0" [m.pos] else m.pos) 0 m.flags

/-- A command whose head entry has no such operation halts there with CT_PARAMS, and the next command is at the head (R337). -/
def State.advanceMacros (s : State) (t : Nat) : List RingMacro → State
  | [] => s.setMacros t []
  | m :: r =>
    if ringOpKnown m.head.op then s.setMacros t (m :: r)
    else ((s.noteEntry t m.pos m.head.op 0 .ctParams).endMacro t m .ctParams).advanceMacros t r

/-- The entry at the head of tenant `t` ends: on OK the list goes on, otherwise the command halts at it (R337, R339). -/
def State.endEntry (s : State) (t : Nat) (st : Status) (flags chunks : Nat) : State :=
  match s.macros t with
  | [] => s
  | m :: r =>
    let m := { m with flags := Nat.lor m.flags flags, waiting := false, run := none }
    let s := s.noteEntry t m.pos m.head.op chunks st
    if st = .ok && m.pos + 1 < m.entries.length then s.advanceMacros t ({ m with pos := m.pos + 1 } :: r)
    else (s.endMacro t m st).advanceMacros t r

end Sys2Proof.Machine
end

