-- ==== Sys2Proof/Machine/Keys.lean ====
section
/-! DEFINITION. Machine/Keys.lean: key commands, attestation, life cycle, calibration, TRNG and identity (R465 to R496). -/

namespace Sys2Proof.Machine

/-- Change the SEC block. -/
def State.updSec (s : State) (f : Sec → Sec) : State := { s with sec := f s.sec }

/-- The order of the P-256 group. -/
def p256Order : Nat := 0xFFFFFFFF00000000FFFFFFFFFFFFFFFFBCE6FAADA7179E84F3B9CAC2FC632551

/-- A number of bytes, most significant first. -/
def beNat (b : List Byte) : Nat := leNat b.reverse

/-- The owner that KEY_GENERATE and KEY_IMPORT name (R472, R568). -/
def keyOwner (c : Cmd) : Nat := if c.fn.val = 0 then bits c.a0 24 4 else c.fn.val

/-- The refusals that KEY_GENERATE and KEY_IMPORT share (R472, R568). -/
def State.keyRefusal (s : State) (c : Cmd) : Option Status :=
  let o := keyOwner c
  let ty := bits c.a0 0 4
  let uses := bits c.a0 4 16
  firstFail [
    (c.fn.val == 0 && (c.tenant != o), .bounds),
    (c.fn.val != 0 && bits c.a0 24 4 != 0, .bounds),
    (decide (7 < o) || ty == 0 || decide (8 < ty) || bitAt uses 15, .bounds),
    (!s.present o, .tenantGone),
    (bitAt uses 9 || bitAt uses 10 || bitAt uses 14, .keyUse),
    (decide (s.keyLimit o ≤ s.keysHeld o) || s.freeTenantKeys.isEmpty, .quotaExceeded)]

/-- The 256-bit value of a generated key; a P-256 scalar is drawn again until it lies from 1 to n − 1 (R466, R467, R472). -/
def drawnKey (ty v : Nat) : Nat := if ty = 3 then v % (p256Order - 1) + 1 else v % 2 ^ 256

/-- KEY_GENERATE: a new GENERATED entry with a value from the owner's DRBG; the completion returns the entry (R472, R495). -/
def execKeyGenerate (c : Cmd) (s : State) : Host.Outcome State Fault Refusal :=
  .next <| s.command 0x60 c fun s =>
    match s.keyRefusal c, s.freeTenantKeys with
    | some st, _ => s.fail c st
    | none, [] => s.fail c .quotaExceeded
    | none, i :: _ =>
      if s.sec.healthFail then s.fail c .internal
      else
        let (v, s) := s.drbg (keyOwner c)
        let k : Key := { type := bits c.a0 0 4, owner := keyOwner c, uses := bits c.a0 4 16, expire := bitAt c.a0 20,
                         value := drawnKey (bits c.a0 0 4) v }
        (s.setKey i k).complete c .ok i 0 flagVaried

/-- KEY_IMPORT: as KEY_GENERATE with a value from tenant memory, IMPORTED; refused with LIFECYCLE while ENFORCE is set
(R472, R494). -/
def execKeyImport (c : Cmd) (s : State) : Host.Outcome State Fault Refusal :=
  .next <| s.command 0x61 c fun s =>
    match s.keyRefusal c, s.freeTenantKeys with
    | some st, _ => s.fail c st
    | none, [] => s.fail c .quotaExceeded
    | none, i :: _ =>
      let t := cmdActs c
      let v := beNat (s.readVA t c.addr 32 c.host)
      match firstFail [(s.sec.enforce, .lifecycle), (c.len != 32, .bounds)], s.blockFail t c.addr 32 (fun p => p.r) with
      | some st, _ => s.fail c st
      | none, some st => s.fail c st
      | none, none =>
        if bits c.a0 0 4 == 3 && (v == 0 || decide (p256Order ≤ v)) then s.fail c .bounds
        else
          let k : Key := { type := bits c.a0 0 4, owner := keyOwner c, uses := bits c.a0 4 16, expire := bitAt c.a0 20,
                           imported := true, value := v }
          (s.setKey i k).complete c .ok i 0 0

/-- A registered object uses the entry: a memory key, a round key, a digest key, an exit binding or a noise seed (R472). -/
def State.keyInUse (s : State) (i : Nat) : Bool :=
  s.mem.keys.any (fun e => e.2.cur.contains i || e.2.prev.contains i || e.2.fresh.contains i) ||
  s.agg.rounds.any (fun e => (e.2.state != .free || e.2.bOpen.isSome) && (e.2.keyEntries.contains i || e.2.release.noiseKey == i)) ||
  s.ring.evks.any (fun e => e.2.valid && e.2.digestKey == i) ||
  s.ring.exits.any (fun e => e.2.valid && e.2.macKey == i)

/-- KEY_DESTROY: zeroes an entry of the caller, or of any tenant for the host driver (R472). -/
def execKeyDestroy (c : Cmd) (s : State) : Host.Outcome State Fault Refusal :=
  .next <| s.command 0x62 c fun s =>
    let k := s.key c.a0
    match firstFail [(decide (1023 < c.a0), .bounds), (k.type == 0, .keyAbsent),
        (if c.fn.val = 0 then decide (7 < k.owner) else k.owner != c.fn.val, .rights), (s.keyInUse c.a0, .cfgLocked)] with
    | some st => s.fail c st
    | none => (s.zeroKey c.a0).ok c

/-- Write a signed answer to a command's buffer: the body, the signature block of both identity keys, which counts one use of
each, and what follows it; the completion returns the bytes written (R471, R473, R477, R533). -/
def State.answer (s : State) (c : Cmd) (t : Nat) (body rest : List Byte) : State :=
  let total := body.length + 8240 + rest.length
  match firstFail [(!s.sec.identityReady, .keyAbsent), (decide (c.len < total), .bounds)] with
  | some st => s.fail c st
  | none =>
    match s.blockFail t c.addr total (fun p => p.w), s.keyUse 1022 deviceOwner 14, s.keyUse 1023 deviceOwner 14 with
    | some st, _, _ => s.fail c st
    | none, some st, _ => s.fail c st
    | none, none, some st => s.fail c st
    | none, none, none =>
      let (v, s) := (s.countKey 1022 |>.countKey 1023).draw
      let sig := (List.range 8240).map (Config.signByte v)
      let s := s.writeVA t c.addr (body ++ sig ++ rest) (total / 64 + 2)
      s.complete c .ok total 0 0

/-- The certificates appended to an answer (R476). -/
def certBytes (partB : Bool) : List Byte := (List.range (Config.certLength partB)).map (Config.certByte partB)

/-- Bytes of a key type's public key (R473). -/
def publicBytes (ty : Nat) : Nat :=
  match ty with | 3 => 65 | 4 => 97 | 5 => 1184 | 6 => 388 | 7 => 32 | _ => 0

/-- The nonce in ARG1 to ARG4. -/
def nonceBytes (c : Cmd) : List Byte := leBytes 8 c.a1 ++ leBytes 8 c.a2 ++ leBytes 8 c.a3 ++ leBytes 8 c.a4

/-- The key statement (R473). -/
def State.keyStatement (s : State) (c : Cmd) (k : Key) : List Byte :=
  leBytes 4 0x4B544158 ++ leBytes 1 1 ++ leBytes 1 k.type ++ leBytes 1 k.owner ++
  leBytes 1 (b2n (!k.imported) + 2 + 4 * b2n k.expire) ++ leBytes 2 c.a0 ++ leBytes 2 k.uses ++ leBytes 4 k.count ++
  nonceBytes c ++ leBytes 48 s.sec.fingerprint ++
  leBytes 48 (if publicBytes k.type = 0 then 0 else Config.digest "public" (Config.publicKey k.type k.value)) ++
  leBytes 8 s.pos ++ leBytes 8 0

/-- KEY_ATTEST: a signed statement of an entry of the caller's tenant and its public key (R473). -/
def execKeyAttest (c : Cmd) (s : State) : Host.Outcome State Fault Refusal :=
  .next <| s.command 0x63 c fun s =>
    let k := s.key c.a0
    let t := cmdActs c
    match firstFail [(decide (1023 < c.a0), .bounds), (k.type == 0, .keyAbsent), (k.owner != t, .rights)] with
    | some st => s.fail c st
    | none => s.answer c t (s.keyStatement c k) (leBytes (publicBytes k.type) (Config.publicKey k.type k.value))

/-- The conditions of R493 that fail, as bits 8 to 14 of SEC_APPROVED. -/
def State.approvedFailing (s : State) : Nat :=
  let bad := [!s.sec.partB, s.sec.lifecycle != .owned, !s.jig.loaded || s.jig.unsigned,
    s.sec.keys.any (fun e => e.2.type != 0 && e.2.imported), !(s.hif.ideIo && s.hif.ideCm), s.sec.healthFail,
    s.mem.pages.any (fun e => e.2.tier == 3) && s.scrubMode == 0]
  (bad.zipIdx.map (fun (b, i) => b2n b * 2 ^ i)).sum

/-- The engine is in approved mode (R493). -/
def State.approved (s : State) : Bool := s.approvedFailing == 0

/-- The attestation of a life-cycle state: its scope, none, device only or all (R484). -/
def attestScope (l : Lifecycle) : Nat := match l with | .provisioned => 1 | .owned => 2 | .open_ => 2 | _ => 0

/-- Groups of a tenant's cells. -/
def State.groupsOf (s : State) (t : Nat) : List Nat := (List.range 64).filter (fun g => s.groupOwner g == t)

/-- The program measurement of a group: that of its first cell's image, 0 where none is loaded (R478). -/
def State.groupMeasurement (s : State) (g : Nat) : Digest :=
  match s.groupCells g with | c :: _ => (if (s.cell c).loaded then (s.cell c).measurement else 0) | [] => 0

/-- The device statement (R478). -/
def State.deviceStatement (s : State) (c : Cmd) (scope t : Nat) : List Byte :=
  let groups := if scope = 1 then s.groupsOf t else []
  leBytes 4 0x44544158 ++ leBytes 1 1 ++ leBytes 1 scope ++ leBytes 1 (if scope = 1 then t else 0) ++
  leBytes 1 s.sec.lifecycle.code ++ leBytes 1 s.sec.stepping ++
  leBytes 1 (b2n s.approved + 2 * b2n (s.jig.loaded && s.jig.unsigned) + 4 * b2n (!s.sec.calLoaded.isEmpty) +
    8 * b2n s.dbg.host.lost) ++
  leBytes 2 s.dbg.fw.fwClass ++ leBytes 4 s.sec.otpSvn ++ nonceBytes c ++ leBytes 48 s.sec.fingerprint ++
  leBytes 48 s.dbg.fw.measurement ++ leBytes 48 s.jig.measurement ++ leBytes 8 s.pos ++ leBytes 8 s.jig.serial ++
  leBytes 48 s.sec.ownerKeys ++ leBytes 16 0 ++
  ((List.range 8).flatMap (fun t => leBytes 1 (s.tenant t).state.code)) ++
  leBytes 1 groups.length ++ leBytes 7 0 ++
  groups.flatMap (fun g => leBytes 1 g ++ leBytes 7 0 ++ leBytes 48 (s.groupMeasurement g))

/-- ATTEST_DEVICE: a signed device- or tenant-scope statement with the four certificates; through a VF always of its tenant
(R476 to R478, R484). -/
def execAttestDevice (c : Cmd) (s : State) : Host.Outcome State Fault Refusal :=
  .next <| s.command 0x81 c fun s =>
    let t := cmdActs c
    let scope := if c.fn.val = 0 then c.a0 else 1
    match firstFail [(decide (1 < scope), .bounds), (!s.sec.identityReady, .keyAbsent),
        (decide (attestScope s.sec.lifecycle < scope + 1), .lifecycle)] with
    | some st => s.fail c st
    | none => s.answer c t (s.deviceStatement c scope t) (certBytes s.sec.partB)

/-- The assembly descriptor's length before padding (R479): the ASSEMBLY section value, the replica pairs and the shard
map. -/
def State.descLength (s : State) : Nat := Tab.look 0 s.jig.sectionLen 4 + 2 * (s.routeSet.shards.map List.length).sum

/-- The current assembly attestation as this member holds it (R479); what it says of other members reached the coordinator
in their statements and is free here. -/
def State.assemblyStatement (s : State) (v : Nat) : List Byte :=
  let e := s.bigE
  let d := s.descLength
  leBytes 4 0x41544158 ++ leBytes 4 1 ++ leBytes 8 s.sec.attSerial ++ leBytes 8 s.sec.attPos ++ leBytes 8 s.jig.serial ++
  leBytes 2 e ++ leBytes 2 s.coordinator ++ leBytes 4 d ++ leBytes 8 0 ++
  leBytes ((d + 7) / 8 * 8) (Config.digest "descriptor" s.jig.cfg.assembly) ++
  ((s.jig.cfg.assembly.members.zipIdx).flatMap (fun (m, i) =>
    leBytes 2 m.index ++ leBytes 1 m.domain ++
    (if m.index = s.jig.me then
      leBytes 1 s.sec.lifecycle.code ++ leBytes 1 (b2n s.approved) ++ leBytes 3 0 ++ leBytes 48 m.fingerprint ++
        leBytes 48 s.dbg.fw.measurement ++ leBytes 48 s.jig.measurement
    else
      [Config.signByte (v + 1 + i) 0] ++ leBytes 1 ((Config.signByte (v + 1 + i) 1).toNat % 2 + 2 * b2n (s.spn.lost.contains m.index)) ++ leBytes 3 0 ++ leBytes 48 m.fingerprint ++
        (List.range 96).map (fun j => Config.signByte (v + 1 + i) (j + 2))) ++ leBytes 8 0))

/-- Sign a new assembly attestation, with the next serial, and give it to every member (R479). -/
def State.signAssembly (s : State) : State :=
  let s := s.updSec fun x => { x with attSerial := x.attSerial + 1, attPos := s.pos }
  let s := (s.countKey 1022 |>.countKey 1023).emit (.statement 0x41544158 s.sec.attSerial [])
  if 2 ≤ s.bigE then s.sendDevice (.attested s.sec.attSerial s.sec.attPos) else s

/-- ATTEST_ASSEMBLY: the current assembly attestation, from any member (R479); none signed yet is refused with BOUNDS. -/
def execAttestAssembly (c : Cmd) (s : State) : Host.Outcome State Fault Refusal :=
  .next <| s.command 0x82 c fun s =>
    match firstFail [(!s.sec.identityReady, .keyAbsent), (decide (attestScope s.sec.lifecycle < 2), .lifecycle),
        (s.sec.attSerial == 0, .bounds)] with
    | some st => s.fail c st
    | none =>
      let (v, s) := s.draw
      s.answer c (cmdActs c) (s.assemblyStatement v) (certBytes s.sec.partB)

/-- SEC_CHALLENGE_CTL.NEW: a fresh 256-bit challenge, valid until it is used, drawn anew or a reset occurs (R487); a failed
TRNG draws none (R495). -/
def execSecChallengeNew (s : State) : Host.Outcome State Fault Refusal :=
  .next <| s.ifWritable fun s =>
    if s.sec.healthFail then s
    else
      let (v, s) := s.draw
      s.updSec fun x => { x with challenge := v % 2 ^ 256, chalValid := true }

/-- SEC_APPROVED.ENFORCE: set until a COLD reset (R494). -/
def execSecApprovedEnforce (s : State) : Host.Outcome State Fault Refusal :=
  .next <| s.ifWritable fun s => s.updSec fun x => { x with enforce := true }

/-- SEC_KEY_QUOTA.LIMIT: a write above 960 is discarded with an event in the device queue (R496). -/
def execSecKeyQuotaWrite (t : TenantId) (value : Word64) (s : State) : Host.Outcome State Fault Refusal :=
  .next <| s.ifWritable fun s =>
    let n := bits value.toNat 0 10
    if 960 < n then s.discarded 0 (0x00E00140 + 8 * t.val) value.toNat
    else s.updSec fun x => { x with keyQuota := Tab.put 120 x.keyQuota t.val n }

/-- TRNG_HEALTH_FAIL: counted; HEALTH_FAIL stays set until a COLD reset (R495). -/
def execTrngHealthFail (adaptive : Bool) (s : State) : Host.Outcome State Fault Refusal :=
  .next (s.updSec fun x => { x with
    healthFail := true,
    rctFails := if adaptive then x.rctFails else satAdd 8 x.rctFails 1,
    aptFails := if adaptive then satAdd 8 x.aptFails 1 else x.aptFails })

/-- The states in which a root secret, sensors and identity are in force (R475, R481). -/
def Lifecycle.live (l : Lifecycle) : Bool := match l with | .provisioned => true | .owned => true | .open_ => true | _ => false

/-- IDENTITY_DERIVATION: after alignment, in PROVISIONED, OWNED and OPEN, both identity seeds go to entries 1,022 and 1,023
and IDENTITY_READY sets (R475). -/
def execIdentityDerivation (s : State) : Host.Outcome State Fault Refusal :=
  if s.sec.lifecycle.live && !s.sec.identityReady &&
     (match s.spn.align with | .checked _ => true | .done => true | _ => false) then
    let rsa := Config.digest "XNL7264-ID-RSA" s.sec.rootSecret % 2 ^ 256
    let slh := Config.digest "XNL7264-ID-SLH" s.sec.rootSecret % 2 ^ 256
    let s := s.setKey 1022 { type := 6, owner := deviceOwner, uses := 2 ^ 2 + 2 ^ 14, value := rsa }
    let s := s.setKey 1023 { type := 7, owner := deviceOwner, uses := 2 ^ 2 + 2 ^ 14, value := slh }
    .next (s.updSec fun x => { x with
      identityReady := true, fingerprint := Config.digest "identity" (Config.publicKey 6 rsa, Config.publicKey 7 slh) })
  else .next s

/-- The limit of a calibration ID's delta, where the ID exists (R490). -/
def calLimit (id : Nat) : Option Nat :=
  if 1 ≤ id ∧ id ≤ 4 then some 15
  else if 0x10 ≤ id ∧ id ≤ 0x1F then some 32
  else if id = 0x20 then some 20
  else if 0x100 ≤ id ∧ id ≤ 0x13F then some 80
  else if 0x200 ≤ id ∧ id ≤ 0x23F then some 50
  else none

/-- A delta clamped to its limit (R492). -/
def calClamp (id delta : Nat) : Int :=
  let l : Int := (calLimit id).getD 0
  max (-l) (min l (toSigned 32 delta))

/-- The entries of a calibration image: ID, two bytes of 0, delta (R491). -/
def calEntries (b : List Byte) (n : Nat) : List (Nat × Nat × Nat) :=
  (List.range n).map (fun i => (field b (8 + 8 * i) 2, field b (10 + 8 * i) 2, field b (12 + 8 * i) 4))

/-- CAL_USER_LOAD: the deltas of a signed image, or of an unsigned one in OPEN, replace the earlier ones at the next turn
boundary (R490 to R492, R501). -/
def execCalUserLoad (c : Cmd) (sig : SigPair) (s : State) : Host.Outcome State Fault Refusal :=
  .next <| s.command 0x91 c fun s =>
    match s.blockFail 0 c.addr c.len (fun p => p.r) with
    | some st => s.fail c st
    | none =>
      let b := s.readVA 0 c.addr c.len c.host
      let n := field b 6 2
      let es := calEntries b n
      let signed := c.len == 8 + 8 * n + 8240
      let ids := es.map (fun e => e.1)
      match firstFail [
          (s.dbg.fw.state == .stopped, .internal),
          (s.sec.lifecycle != .owned && s.sec.lifecycle != .open_, .lifecycle),
          (field b 0 4 != 0x4C414358 || field b 4 1 != 1 || field b 5 1 != 0 || n == 0 || decide (512 < n) ||
            !(signed || c.len == 8 + 8 * n), .bounds),
          (if signed then !sig.ok else s.sec.lifecycle != .open_, .cfgSignature),
          (ids.any (fun i => (calLimit i).isNone) || ids.dedup.length != ids.length || es.any (fun e => e.2.1 != 0), .bounds)]
        with
      | some st => s.fail c st
      | none =>
        let loaded := es.foldl (fun m e => Tab.put 0 m e.1 e.2.2) []
        (s.updSec fun x => { x with calLoaded := loaded, calPending := true }).ok c

/-- The deltas in effect after a load's boundary (R492). -/
def State.takeCal (s : State) : State :=
  if s.sec.calPending then
    s.updSec fun x => { x with
      calPending := false, calEffect := x.calLoaded.foldl (fun m e => Tab.put 0 m e.1 (calClamp e.1 e.2)) [] }
  else s

end Sys2Proof.Machine
end

