-- ==== Sys2Proof/Machine/Memory.lean ====
section
/-! DEFINITION. Machine/Memory.lean: mapping, quotas, key rotation, retirement and the exchange window's size (R376 to R414). -/

namespace Sys2Proof.Machine

/-- 64 KiB units of a page. -/
def pageUnits (large : Bool) : Nat := if large then 32 else 1

/-- The tier index of MEM_QUOTA for a tier code: 0 HBM, 1 DDR, 2 HOST. -/
def tierIndex (tier : Nat) : Nat := tier - 1

/-- The leaf entry as a word (R382). -/
def Page.word (p : Page) : Nat :=
  packFields [(0, 2, p.tier), (2, 1, b2n p.large), (3, 1, b2n p.r), (4, 1, b2n p.w), (5, 1, b2n p.acc), (6, 1, b2n p.x),
    (7, 2, p.epoch), (9, 1, b2n p.sealed_), (10, 1, b2n p.exch), (11, 1, b2n (p.locks != 0)), (12, 1, b2n p.broken),
    (16, 48, p.frame)]

/-- A registered region of the tenant holds a page of the range (R437). -/
def State.pinned (s : State) (t va n : Nat) : Bool :=
  s.fab.regions.any (fun r => r.2.tenant == t && decide (r.2.va / 65536 * 65536 < va + n) && decide (va < r.2.va + r.2.length))

/-- The previous key set is destroyed and a KEYS event raised once no page of the old epoch is left (R408). -/
def State.endSweep (s : State) (t i : Nat) : State :=
  let k := s.tierKey t i
  if k.prevValid && k.oldPages == 0 then
    let s := s.each k.prev State.zeroKey
    let s := s.setTierKey t i { k with prev := [], prevValid := false, sweeping := false, skipped := [] }
    s.event (t + 1) 14 0 t ((i + 1) + k.rotations * 256)
  else s

/-- The checks of R385, in order. -/
def State.mapCheck (s : State) (fn t op : Nat) (m : MapRegs) : Option Status :=
  let size := if m.large then 2 ^ 21 else 65536
  let units := pageUnits m.large * m.count
  let all := (List.range units).map (fun i => m.va + 65536 * i)
  let bases := (List.range m.count).map (fun i => m.va + size * i)
  firstFail [
    (!s.present t, .tenantGone),
    (decide (2 < op) || (op == 0 && (m.tier == 0)) || m.va % size != 0 || m.arg % size != 0 || m.count == 0 ||
      decide (2 ^ 20 < m.count) || decide (engineRange < m.va + size * m.count), .bounds),
    (op == 0 && ((m.exch && (fn != 0 || m.tier != 2 || decide (s.mem.exch * 2 ^ 21 < m.arg + size * m.count))) ||
      (s.sec.enforce && ((m.tier == 3 && s.scrubMode == 0) || (m.exch && !(s.hif.ideIo && s.hif.ideCm))))), .rights),
    (if op = 0 then all.any (fun a => (s.page t a).tier != 0)
      else bases.any (fun a => let p := Tab.look ({} : Page) s.mem.pages (pageKey t a); p.tier == 0 || p.large != m.large),
      .xlateFault),
    (bases.any (fun a => let p := Tab.look ({} : Page) s.mem.pages (pageKey t a); p.locks != 0 || p.sealed_) ||
      s.pinned t m.va (size * m.count), .cfgLocked),
    (op == 0 && decide (s.limitUnits t (tierIndex m.tier) < s.usedUnits t (tierIndex m.tier) + units), .quotaExceeded)]

/-- The leaf entries that a map operation makes (R382, R384, R406). -/
def State.mapEntries (s : State) (t : Nat) (m : MapJob) (frames : List Nat) : State :=
  let size := if m.large then 2 ^ 21 else 65536
  let pages := (frames.zipIdx).foldl (fun tab (f, i) =>
    Tab.put {} tab (pageKey t (m.va + size * i))
      { tier := m.tier, large := m.large, r := bitAt m.rights 0, w := bitAt m.rights 1, acc := bitAt m.rights 2,
        x := bitAt m.rights 3, epoch := if m.tier = 3 then 0 else (s.tierKey t (m.tier - 1)).epoch, exch := m.exch,
        frame := f }) s.mem.pages
  { s with mem := { s.mem with pages := pages } }

/-- Unmap one page and return its frames under the scrub mode (R387, R406, R412). -/
def State.unmapPage (s : State) (t key : Nat) : State :=
  let p := Tab.look ({} : Page) s.mem.pages key
  let units := pageUnits p.large
  let s := { s with mem := { s.mem with pages := Tab.put {} s.mem.pages key {} } }
  if p.tier = 0 then s
  else if p.tier = 3 then s.setUsed t 2 (s.usedUnits t 2 - units)
  else
    let s := s.returnFrames t p.tier p.frame units (p.exch || p.tier = 2 || s.scrubMode = 1) none
    let k := s.tierKey t (p.tier - 1)
    if k.prevValid && p.epoch != k.epoch && !p.broken then
      (s.setTierKey t (p.tier - 1) { k with oldPages := k.oldPages - units }).endSweep t (p.tier - 1)
    else s

/-- What the registers name as an operation's range and entries. -/
def MapRegs.named (m : MapRegs) : MapJob :=
  { va := m.va, tier := m.tier, large := m.large, rights := m.rights, exch := m.exch, count := m.count }

/-- The effect of a map operation that has passed its checks (R384, R386, R387). -/
def State.mapEffect (s : State) (t op : Nat) (m : MapRegs) : State :=
  let size := if m.large then 2 ^ 21 else 65536
  let n := pageUnits m.large
  let done := { m with status := .ok, done := m.count, busy := false }
  if op = 0 then
    if m.tier = 3 || m.exch then
      let base := (if m.tier = 3 then m.arg else s.exchBase + m.arg) / 65536
      let s := s.setUsed t (tierIndex m.tier) (s.usedUnits t (tierIndex m.tier) + n * m.count)
      (s.mapEntries t m.named ((List.range m.count).map (fun i => base + n * i))).setMapRegs t done
    else
      match s.takeFrames t m.tier n m.count (s.firstFrame m.tier) with
      | none => s.setMapRegs t { m with status := .quotaExceeded, done := 0 }
      | some (fs, s) =>
        (s.setUsed t (tierIndex m.tier) (s.usedUnits t (tierIndex m.tier) + n * m.count)).setMapRegs t
          { m with busy := true, done := 0, frames := fs, job := m.named }
  else if op = 1 then
    (s.each ((List.range m.count).map (fun i => pageKey t (m.va + size * i))) (fun s k => s.unmapPage t k)).setMapRegs t done
  else
    (s.each ((List.range m.count).map (fun i => pageKey t (m.va + size * i))) (fun s k =>
      s.updPage k (fun p => { p with
        r := bitAt m.rights 0, w := bitAt m.rights 1, acc := bitAt m.rights 2, x := bitAt m.rights 3 }))).setMapRegs t done

/-- A write to MEM_MAP_CTL with GO set: discarded while BUSY reads 1; a VF reaches its own tenant only (R384, R385). -/
def State.mapGo (s : State) (fn t value op : Nat) : State :=
  if fn != 0 && fn != t then s.windowMiss fn (0x00A00410 + 0x20 * t) true
  else
    let m := s.mapRegs t
    if m.busy then s
    else
      let m := { m with
        op := op, tier := bits value 2 2, large := bitAt value 4, rights := bits value 5 4, exch := bitAt value 9,
        count := bits value 32 21, byHost := fn == 0, frames := [] }
      match s.mapCheck fn t op m with
      | some st => s.setMapRegs t { m with status := st, done := 0 }
      | none => s.mapEffect t op m

/-- MEM_MAP (R384, R385). -/
def execMemMap (fn : FnId) (t : TenantId) (value : Word64) (s : State) : Host.Outcome State Fault Refusal :=
  .next <| s.ifWritable fun s => s.mapGo fn.val t.val value.toNat 0

/-- MEM_UNMAP (R384, R387). -/
def execMemUnmap (fn : FnId) (t : TenantId) (value : Word64) (s : State) : Host.Outcome State Fault Refusal :=
  .next <| s.ifWritable fun s => s.mapGo fn.val t.val value.toNat 1

/-- MEM_PROTECT (R384). -/
def execMemProtect (fn : FnId) (t : TenantId) (value : Word64) (s : State) : Host.Outcome State Fault Refusal :=
  .next <| s.ifWritable fun s => s.mapGo fn.val t.val value.toNat 2

/-- Zero a tenant's returned frames that wait for it, round memory or the rest: they leave the hold and USED (R399, R412). -/
def State.zeroHeld (s : State) (t : Nat) (round : Bool) : State :=
  let mine := fun (h : HeldFrame) => h.tenant == t && h.round.isSome == round && !h.stuck
  let s := s.each (s.mem.held.filter mine) (fun s h =>
    { s.setUsed t (h.tier - 1) (s.usedUnits t (h.tier - 1) - h.units) with ram := ramZero s.ram h.tier h.frame h.units })
  { s with mem := { s.mem with held := s.mem.held.filter (fun h => !mine h) } }

/-- ZERO_FILL: in slots of DEVICE the frames of a waiting MAP are zeroed and its entries become valid, and the tenant's
returned frames are zeroed and leave the hold; without such slots all of it waits (R386, R412). -/
def execZeroFill (t : TenantId) (s : State) : Host.Outcome State Fault Refusal :=
  if s.deviceEngines.isEmpty || s.frozen then .next s
  else
    let m := s.mapRegs t.val
    let s := if m.busy then
      let n := pageUnits m.job.large
      let s := { s with ram := m.frames.foldl (fun r f => ramZero r m.job.tier f n) s.ram }
      (s.mapEntries t.val m.job m.frames).setMapRegs t.val { m with busy := false, status := .ok, done := m.job.count, frames := [] }
    else s
    if (s.tenant t.val).removal.isSome then .next s else .next (s.zeroHeld t.val false)

/-- QUOTA_SET: the HOST limit of a tenant, at once (R388, R389). -/
def execQuotaSet (c : Cmd) (s : State) : Host.Outcome State Fault Refusal :=
  .next <| s.command 0x12 c fun s =>
    match firstFail [(!s.present c.tenant, .tenantGone), (decide (2 ^ 31 ≤ c.a0), .bounds)] with
    | some st => s.fail c st
    | none => (s.setLimit c.tenant 2 c.a0).ok c

/-- MEM_WALK_VA: the leaf entry of an address goes to MEM_WALK_PTE; 0 where it is not mapped (R414). -/
def execMemWalkLookup (fn : FnId) (t : TenantId) (va : Word64) (s : State) : Host.Outcome State Fault Refusal :=
  .next <| s.ifWritable fun s =>
    if fn.val != 0 && fn != t then s.windowMiss fn.val (0x00A00500 + 0x10 * t.val) true
    else
      let a := bits va.toNat 0 48
      { s with mem := { s.mem with
          walkVa := Tab.put 0 s.mem.walkVa t.val a, walkPte := Tab.put 0 s.mem.walkPte t.val (s.page t.val a).word } }

/-- MEM_EXCH.SIZE: written only while no jig is loaded, up to 32,768; otherwise discarded with an event (R379). -/
def execMemExchWrite (value : Word64) (s : State) : Host.Outcome State Fault Refusal :=
  .next <| s.ifWritable fun s =>
    let n := bits value.toNat 0 16
    if s.jig.loaded || 32768 < n then s.discarded 0 0x00A00010 value.toNat else { s with mem := { s.mem with exch := n } }

/-- Most retired frames of a tier (R411). -/
def maxRetired : Nat := 4096

/-- Retire frames of a tier: they leave the pool for good (R411). -/
def State.retire (s : State) (tier f units : Nat) : State :=
  let fs := (List.range units).map (fun i => (tier, f + i))
  { s with mem := { s.mem with
      retired := s.mem.retired ++ fs, inUse := fs.foldl (fun m x => Tab.put 0 m (frameKey tier x.2) 0) s.mem.inUse } }

/-- The key and leaf entry of the page that holds a frame of a tier. -/
def State.pageOfFrame (s : State) (tier f : Nat) : Option (Nat × Page) :=
  s.mem.pages.find? (fun e => e.2.tier == tier && !e.2.exch && decide (e.2.frame ≤ f) && decide (f < e.2.frame + pageUnits e.2.large))

/-- A spare frame, or 32 of them for a 2 MiB page (R407, R411): from the pool while it holds one, and else from the reservation, so that
neither a sweep nor a retirement waits for the pool (DESIGN CHOICE 10). -/
def State.takeSpare (s : State) (t tier units : Nat) : Option (List Nat × State) :=
  match s.takeFrames t tier units 1 (s.firstFrame tier) with
  | some x => some x
  | none => s.takeFrames t tier units 1 0

/-- MEM_RETIRE: a free frame leaves the pool, a mapped one is copied to a spare and swapped first; a copy that meets an
uncorrectable error leaves the page BROKEN; a frame of the reservation is refused with RIGHTS (R411). -/
def execMemRetire (value : Word64) (ue : Bool) (s : State) : Host.Outcome State Fault Refusal :=
  .next <| s.ifWritable fun s =>
    let f := bits value.toNat 16 31
    let tier := bits value.toNat 47 2
    let set := fun (s : State) (st : Status) => { s with mem := { s.mem with retireStatus := st } }
    match firstFail [(tier == 0 || tier == 3 || decide (s.frameCount tier ≤ f), .bounds),
        (decide (f < s.firstFrame tier), .rights),
        (decide (maxRetired ≤ (s.mem.retired.filter (fun x => x.1 == tier)).length), .quotaExceeded)] with
    | some st => set s st
    | none =>
      if s.mem.retired.contains (tier, f) then set s .ok
      else
        match s.pageOfFrame tier f with
        | none => set (s.retire tier f 1) .ok
        | some (key, p) =>
          let n := pageUnits p.large
          let t := key / 2 ^ 33
          if ue then
            let s := s.memUe tier (f * 65536) t false 0
            set ((s.updPage key fun p => { p with broken := true }).retire tier f 1) .memUe
          else
            match s.takeSpare t tier n with
            | some ([g], s) =>
              let s := { s with ram := ramZero (ramCopy s.ram tier p.frame g n) tier p.frame n }
              let s := s.updPage key fun p => { p with frame := g }
              let s := { s with mem := { s.mem with
                          inUse := (List.range n).foldl (fun m i => Tab.put 0 m (frameKey tier (p.frame + i)) 0) s.mem.inUse } }
              set (s.retire tier f 1) .ok
            | _ => set s .quotaExceeded

/-- KEY_ROTATE_MEM: a new key set of a tenant's tier, from the host driver or the tenant's VF; it takes effect, and the
command completes, at the next turn boundary (R405). -/
def execKeyRotateMem (c : Cmd) (s : State) : Host.Outcome State Fault Refusal :=
  .next <| s.command 0x64 c fun s =>
    let t := cmdActs c
    let i := c.a0 - 1
    let k := s.tierKey t i
    let need := memoryKeys (i == 1)
    match firstFail [(c.a0 != 1 && c.a0 != 2, .bounds), (k.prevValid || k.cmd.isSome, .rotationBusy),
        (decide (s.freeTenantKeys.length < need.length), .quotaExceeded), (!s.present t, .tenantGone),
        (s.sec.healthFail, .internal)] with
    | some st => s.fail c st
    | none =>
      let (l, s) := s.newKeys t 0 960 need
      s.setTierKey t i { s.tierKey t i with fresh := l, cmd := some (c, s.boundaryAfter s.pos) }

/-- KEY_ROTATION_SWITCH: at the boundary the current set becomes the previous, the new one current, the epoch moves on, and
OLD_PAGES takes the tier's mapped units; the command completes with the sweep still running, with VARIED, since its keys were drawn (R73,
R76, R405). -/
def execKeyRotationSwitch (t : TenantId) (ddr : Bool) (s : State) : Host.Outcome State Fault Refusal :=
  let i := b2n ddr
  let k := s.tierKey t.val i
  match k.cmd with
  | none => .next s
  | some (c, b) =>
    if s.due b then
      let old := ((s.mem.pages.filter (fun e => e.1 / 2 ^ 33 == t.val && e.2.tier == i + 1 && !e.2.exch)).map
        (fun e => pageUnits e.2.large)).sum
      let s := s.setTierKey t.val i { k with
        prev := k.cur, cur := k.fresh, fresh := [], epoch := (k.epoch + 1) % 4, prevValid := true, sweeping := true,
        oldPages := old, rotations := wrapAdd 16 k.rotations 1, cmd := none, skipped := [] }
      .next ((s.endSweep t.val i).complete c .ok 0 0 flagVaried)
    else .next s

/-- The next page that the sweep visits: the old-epoch pages in ascending address, those with a discarded copy after the rest
of the tier (R407). -/
def State.sweepNext (s : State) (t i : Nat) : Option (Nat × Page) :=
  let k := s.tierKey t i
  let old := s.mem.pages.filter (fun e =>
    e.1 / 2 ^ 33 == t && e.2.tier == i + 1 && !e.2.exch && e.2.epoch != k.epoch && !e.2.broken)
  match old.find? (fun e => !k.skipped.contains e.1) with
  | some e => some e
  | none => old.head?

/-- KEY_SWEEP_UNIT: in DEVICE slots the sweep copies the next old-epoch page to a spare frame under the new key and swaps the
entry; a write that landed meanwhile discards the copy; an uncorrectable error leaves the page BROKEN and counts it out; at
OLD_PAGES 0 the previous key set is destroyed (R407 to R409). -/
def execKeySweepUnit (t : TenantId) (ddr : Bool) (written ue : Bool) (s : State) : Host.Outcome State Fault Refusal :=
  let i := b2n ddr
  let tier := i + 1
  if !(s.tierKey t.val i).sweeping || s.deviceEngines.isEmpty || s.frozen then .next s
  else
    match s.sweepNext t.val i with
    | none => .next (s.endSweep t.val i)
    | some (key, p) =>
      let n := pageUnits p.large
      let k := s.tierKey t.val i
      if written then
        .next (s.setTierKey t.val i { k with retries := satAdd 8 k.retries 1, skipped := (k.skipped.erase key) ++ [key] })
      else if ue then
        let s := s.memUe tier (p.frame * 65536) t.val false 0
        let s := s.updPage key fun p => { p with broken := true }
        .next ((s.setTierKey t.val i { k with oldPages := k.oldPages - n }).endSweep t.val i)
      else
        match s.takeSpare t.val tier n with
        | some ([g], s) =>
          let s := { s with ram := ramCopy s.ram tier p.frame g n }
          let s := s.updPage key fun p => { p with frame := g, epoch := k.epoch }
          let s := s.setUsed t.val i (s.usedUnits t.val i + n)
          let s := s.returnFrames t.val tier p.frame n (tier == 2 || s.scrubMode == 1) none
          .next ((s.setTierKey t.val i { k with oldPages := k.oldPages - n, skipped := k.skipped.erase key }).endSweep t.val i)
        | _ => .next s

end Sys2Proof.Machine
end

