-- ==== Sys2Proof/Machine/Tenants.lean ====
section
/-! DEFINITION. Machine/Tenants.lean: creating, suspending, removing and resetting a tenant, scrubbing, and the host-lost
limit (R455 to R463, R512, R513). -/

namespace Sys2Proof.Machine

/-- The boundary at which an accepted creation, removal or open takes effect: the next one where E = 1, otherwise the first at
least 150,000 + 2^(k+1) ticks after acceptance (R234, R459). -/
def State.agreedBoundary (s : State) : Nat :=
  if s.bigE ≤ 1 then s.boundaryAfter s.pos else s.boundaryFrom (s.pos + 150000 + 2 ^ (s.spn.k + 1))

/-- Members that are not lost. -/
def State.liveMembers (s : State) : List Nat := (List.range (max s.bigE 1)).filter (fun m => !s.spn.lost.contains m)

/-- Checks 5 and 6 of R458 on this member: room for the five memory-key entries, and a healthy TRNG. -/
def State.admitsTenant (s : State) (t : Nat) : Status :=
  (firstFail [(decide (s.keyLimit t < s.keysHeld t + 5) || decide (s.freeTenantKeys.length < 5), .quotaExceeded),
    (s.sec.healthFail, .internal)]).getD .ok

/-- TENANT_CREATE: the checks of R458 on this member; then the creation waits for its boundary, in an assembly with the verdicts of the
other members (R234, R459). `busyElsewhere` says that the tenant is not ABSENT on some other member, where its removal goes on. -/
def execTenantCreate (c : Cmd) (busyElsewhere : Bool) (s : State) : Host.Outcome State Fault Refusal :=
  .next <| s.command 0x10 c fun s =>
    let t := c.tenant
    match firstFail [
        (t == 0 || decide (7 < t), .bounds),
        (s.sec.lifecycle != .owned && s.sec.lifecycle != .open_, .lifecycle),
        (!s.jig.loaded || (s.tenant t).state != .absent || (decide (2 ≤ s.bigE) && busyElsewhere) || (s.tenant t).creating.isSome ||
          s.jig.commit.isSome ||
          (decide (2 ≤ s.bigE) && !s.isCoord), .cfgLocked),
        (s.admitsTenant t != .ok, s.admitsTenant t)] with
    | some st => s.fail c st
    | none =>
      if s.bigE ≤ 1 then
        s.updTenant t fun x => { x with creating := some { boundary := s.agreedBoundary, cmd := some c, decision := some .ok } }
      else
        (s.updTenant t fun x => { x with creating := some { boundary := s.agreedBoundary, cmd := some c } }).sendDevice
          (.tenantNotice (Fin.ofNat 8 t) s.agreedBoundary)

/-- Change a creation that waits. -/
def State.updCreating (s : State) (t : Nat) (f : Creating → Creating) : State :=
  s.updTenant t fun x => { x with creating := x.creating.map f }

/-- The notice of a creation reaches a member, which runs checks 5 and 6 (R234, R458). -/
def State.takeTenantNotice (s : State) (t b : Nat) : State :=
  if (s.tenant t).state == .absent && (s.tenant t).creating.isNone then
    s.updTenant t fun x => { x with creating := some { boundary := b, cmd := none, own := s.admitsTenant t } }
  else s

/-- A verdict on a creation reaches the coordinator, before it decides (R113, R234). -/
def State.takeTenantVerdict (s : State) (t m : Nat) (st : Status) : State :=
  match (s.tenant t).creating with
  | some x =>
    if s.decides && x.decision.isNone && decide (s.pos ≤ x.boundary - 2 ^ s.spn.k) && !x.verdicts.any (fun v => v.1 == m) then
      s.updCreating t fun x => { x with verdicts := x.verdicts ++ [(m, st)] }
    else s
  | none => s

/-- The status of a creation: the first failing verdict in order of assembly index, lost members left out, a missing one counting as
BARRIER_TIMEOUT (R114, R234). -/
def State.createStatus (s : State) (x : Creating) : Status :=
  ((s.liveMembers.map (fun m => match x.verdicts.find? (fun v => v.1 == m) with | some v => v.2 | none => .barrierTimeout)).find?
    (fun st => st != .ok)).getD .ok

/-- What a pending creation does at turn boundary `b`: verdicts go out at B_c - 2^(k+1), and at B_c - 2^k the coordinator decides (R113,
R234, R459). -/
def State.createTurn (s : State) (b : Nat) : State :=
  s.each (List.range 8) (fun s t =>
    match (s.tenant t).creating with
    | none => s
    | some x =>
      let s := if !x.sent && decide (x.boundary - 2 ^ (s.spn.k + 1) ≤ b) then
          let s := s.updCreating t fun x => { x with sent := true }
          if s.isCoord then s.takeTenantVerdict t s.jig.me x.own else s.sendDevice (.tenantVerdict s.jig.me (Fin.ofNat 8 t) x.own)
        else s
      match (s.tenant t).creating with
      | none => s
      | some x =>
        if s.decides && x.decision.isNone && decide (x.boundary - 2 ^ s.spn.k ≤ b) then
          let st := s.createStatus x
          let s := s.updCreating t fun x => { x with decision := some st }
          if 2 ≤ s.bigE then s.sendDevice (.tenantDecision (Fin.ofNat 8 t) st) else s
        else s)

/-- A committed quota in 64 KiB units (R388). -/
def State.jigQuota (s : State) (t i : Nat) : Nat := Tab.look 0 s.jig.cfg.quotas (3 * t + i) / 65536

/-- The effect of a creation at its boundary (R459): a new life of the tenant, whose round numbers start afresh (R230); its memory keys are
drawn, so that its completion carries VARIED (R73, R76). -/
def State.createTenant (s : State) (t : Nat) (c : Option Cmd) : State :=
  let s := s.makeMemoryKeys t
  let s := (s.setLimit t 0 (s.jigQuota t 0)).setLimit t 1 (s.jigQuota t 1)
  let s := s.setLimit t 2 0
  let s := s.updTenant t fun x => { x with drbg := true, drawn := 0, creating := none, creations := wrapAdd 16 x.creations 1 }
  let s := { s with
    fab := { s.fab with tenants := Tab.put {} s.fab.tenants t {} }, agg := { s.agg with lastRound := Tab.put 0 s.agg.lastRound t 0 } }
  (s.setTenantState t .created).each c.toList (fun s c => s.complete c .ok 0 0 flagVaried)

/-- TENANT_CREATE_BOUNDARY: every creation whose boundary has come: the tenant is created where the decision is OK, and else nothing is and
the command ends with its status, or with BARRIER_TIMEOUT where none has come (R114, R234, R459; DESIGN CHOICE for no decision:
notes/assumptions/44.md). -/
def execTenantCreateBoundary (s : State) : Host.Outcome State Fault Refusal :=
  .next (s.each (List.range 8) (fun s t =>
    match (s.tenant t).creating with
    | some x =>
      if !s.due x.boundary then s
      else if x.decision = some .ok then s.createTenant t x.cmd
      else (s.updTenant t fun x => { x with creating := none }).each x.cmd.toList (fun s c => s.fail c (x.decision.getD .barrierTimeout))
    | none => s))

/-- Start a removal or a TENANT reset of `t`, with its boundary (R460, R463). -/
def State.startRemovalAt (s : State) (t : Nat) (reset : Bool) (c : Option Cmd) (b : Nat) : State :=
  let ran := (s.tenant t).state == .running
  let s := s.updTenant t fun x => { x with removal := some {
    boundary := b, reset := reset, cmd := c, begun := false, ran := ran, descsEnded := 0, keysDestroyed := 0,
    pStart := 0, hbmBytes := 0, ddrBytes := 0, hostBytes := 0 } }
  s.setTenantState t .removing

/-- Start a removal or a TENANT reset on this member, and in an assembly on every other at the same boundary (R460, R463). -/
def State.startRemoval (s : State) (t : Nat) (reset : Bool) (c : Option Cmd) : State :=
  let s1 := s.startRemovalAt t reset c s.agreedBoundary
  if 2 ≤ s.bigE then s1.sendDevice (.tenantRemove (Fin.ofNat 8 t) s.agreedBoundary reset) else s1

/-- A removal or TENANT reset that the coordinator announces (R460, R463). -/
def State.takeTenantRemove (s : State) (t b : Nat) (reset : Bool) : State :=
  if (s.tenant t).state == .absent || (s.tenant t).removal.isSome then s else s.startRemovalAt t reset none b

/-- The FLR of a tenant's VF, on the member that took it or carried to the coordinator: a TENANT reset, unless the tenant is ABSENT or a
removal or reset of it is in progress (R463, R464). -/
def State.flrTenant (s : State) (t : Nat) : State :=
  let x := s.tenant t
  if x.state == .absent || x.removal.isSome || x.state == .removing then s
  else if 2 ≤ s.bigE ∧ !s.isCoord then (s.updTenant t fun x => { x with flr := true }).sendDevice (.tenantFlr (Fin.ofNat 8 t))
  else s.startRemoval t true none

/-- TENANT_REMOVE (R460). -/
def execTenantRemove (c : Cmd) (s : State) : Host.Outcome State Fault Refusal :=
  .next <| s.command 0x11 c fun s =>
    let t := c.tenant
    match firstFail [
        (t == 0, .bounds),
        ((s.tenant t).state == .absent || (s.tenant t).state == .removing, .tenantGone),
        (s.jig.commit.isSome || (decide (2 ≤ s.bigE) && !s.isCoord), .cfgLocked)] with
    | some st => s.fail c st
    | none => s.startRemoval t false (some c)

/-- Every descriptor of tenant `t` in flight ends with a status; the state and how many ended (R461). -/
def State.endDma (s : State) (t : Nat) (st : Status) : State × Nat :=
  let n := ((List.range 32).map (fun d => (s.work t d).length)).sum
  let s := s.each (List.range 32) (fun s d =>
    let ws := s.work t d
    let s := (s.setWork t d []).setParked t d {}
    s.each ws (fun s w =>
      match w.source with
      | .cmd c => s.complete c st (w.idx + w.off * 2 ^ 16) 0 w.flags
      | .feed c idx token => s.endFeed w d c idx token st
      | .batch _ _ => s))
  (s, n)

/-- Programs of tenant `t` end with a status, those not yet begun and the loads with them (R461). -/
def State.endPrograms (s : State) (t : Nat) (st : Status) : State :=
  let s := s.each (s.groupsOf t) (fun s g => s.haltGroup g st)
  let mine := s.loads.filter (fun l => l.tenant == t)
  let s := s.each mine (fun s l => (({ s with loads := s.loads.erase l } : State).lockPages t l.cmd.addr l.cmd.len false).fail l.cmd st)
  let waiting := s.progs.filter (fun r => s.groupOwner r.group == t && !r.begun)
  let s := { s with progs := s.progs.filter (fun r => !(s.groupOwner r.group == t && !r.begun)) }
  s.each waiting (fun s r => s.fail r.cmd st)

/-- Ring entries of tenant `t` end; its RING_MACRO commands complete with a status (R343). -/
def State.endRing (s : State) (t : Nat) (st : Status) : State :=
  let s := s.endWait t
  let s := s.each (s.ring.evkJobs.filter (fun j => j.tenant == t)) (fun s j =>
    ((s.zeroKey j.evk.digestKey).updRing fun r => { r with evkJobs := r.evkJobs.erase j }).fail j.cmd st)
  let ms := Tab.look [] s.ring.macros t
  let mine := fun (q : ExitReq) => q.tenant == t
  let s := { s with ring := { s.ring with
    macros := Tab.put [] s.ring.macros t [], reqs := s.ring.reqs.filter (fun q => !mine q),
    settled := s.ring.settled ++ (s.ring.reqs.filter mine).map (fun (q : ExitReq) => (q.tenant, q.id)) } }
  s.each ms (fun s m => s.complete m.cmd st m.pos 0 m.flags)

/-- A MAP that is still zero-filling ends with TENANT_GONE, and its frames go back (R386). -/
def State.endMap (s : State) (t : Nat) : State :=
  let m := s.mapRegs t
  if m.busy then
    let n := pageUnits m.job.large
    let s := s.each m.frames (fun s f => s.returnFrames t m.job.tier f n (m.job.tier == 2 || s.scrubMode == 1) none)
    s.setMapRegs t { m with busy := false, status := .tenantGone, done := 0, frames := [] }
  else s

/-- The endpoints of tenant `t` are parked, and an ENDPOINT_PARK that waits ends with TENANT_GONE (R448, R460, R461). -/
def State.parkAll (s : State) (t : Nat) : State :=
  s.each (s.fab.eps.filter (fun e => (e.2.state == 1 || e.2.state == 3) && e.2.tenant == t)) (fun s e =>
    (s.setEp e.1 { e.2 with state := 2, parkCmd := none }).each e.2.parkCmd.toList (fun s c => s.fail c .tenantGone))

/-- Position B of a removal: everything of the tenant stops (R461, R463). -/
def State.removalBegins (s : State) (t : Nat) (r : Removal) : State :=
  let s := s.endPrograms t .tenantGone
  let s := s.endRing t .tenantGone
  let s := s.each (s.pendingOpens (some t)) (fun s h => s.cancelOpen h .tenantGone)
  let s := s.each (s.openRounds t (fun _ => true)) (fun s h => s.abortRound h .tenantGone true)
  let s := s.parkAll t
  let (s, n) := s.endDma t .tenantGone
  let s := s.endMap t
  s.updTenant t fun x => { x with removal := some { r with begun := true, descsEnded := n } }

/-- TENANT_REMOVE_BOUNDARY: every removal or TENANT reset whose boundary has come (R461). -/
def execTenantRemoveBoundary (s : State) : Host.Outcome State Fault Refusal :=
  .next (s.each (List.range 8) (fun s t =>
    match (s.tenant t).removal with
    | some r => if !r.begun && s.due r.boundary then s.removalBegins t r else s
    | none => s))

/-- The tenant's objects are released: regions, endpoints, ring descriptors, keys, plans, parameter sets, exit bindings
(R461). -/
def State.releaseObjects (s : State) (t : Nat) : State :=
  let rg := s.ring
  let ring := { rg with
    params := rg.params.filter (fun e => e.2.owner != t), descs := rg.descs.filter (fun e => e.2.owner != t),
    evks := rg.evks.filter (fun e => e.2.owner != t), plans := rg.plans.filter (fun e => e.2.owner != t),
    exits := rg.exits.filter (fun e => e.1 / 4 != t) }
  { s with
    ring := ring,
    fab := { s.fab with
      regions := s.fab.regions.filter (fun r => r.2.tenant != t), eps := s.fab.eps.filter (fun e => e.2.tenant != t) } }

/-- The end of fence round 16: later packets are refused, the tenant's entries are destroyed, its cells' clear starts and its
objects are released. A TENANT reset keeps entries without EXPIRE, but for the memory keys (R461, R463). -/
def State.fenceEnd (s : State) (t : Nat) (r : Removal) : State :=
  let mem := fun i => s.mem.keys.any (fun e => e.1 / 2 == t && (e.2.cur.contains i || e.2.prev.contains i || e.2.fresh.contains i))
  let dead := fun i (k : Key) => k.owner == t && k.type != 0 && (!r.reset || k.expire || mem i)
  let n := (s.sec.keys.filter (fun e => dead e.1 e.2 && mem e.1)).length
  let s := s.zeroKeys dead
  let cmds := ((s.tierKey t 0).cmd.toList ++ (s.tierKey t 1).cmd.toList).map (fun x => x.1)
  let s := s.each cmds (fun s c => s.fail c .tenantGone)
  let s := (s.setTierKey t 0 {}).setTierKey t 1 {}
  let cells := (List.range 64).filter (fun c => s.cellTenant c == t)
  let s := s.each cells State.startClear
  let s := s.releaseObjects t
  let s := s.setFabTenant t { s.fabTenant t with fenceRound := 17 }
  s.updTenant t fun x => { x with phase := 17, removal := some { r with keysDestroyed := n } }

/-- The fabric-role ports that are UP. -/
def State.fabricUp (s : State) : List Nat := (List.range 16).filter (fun p => (s.port p).role == 1 && (s.port p).state == 1)

/-- FENCE_ROUND: in slot 0 of turn B + i the member sends the tenant's FENCE frames on every fabric port, behind the tenant's frames that are
queued there; the round ends once every port's has returned; after round 16 the fence ends (R451, R461). -/
def execFenceRound (t : TenantId) (returned : List PortId) (s : State) : Host.Outcome State Fault Refusal :=
  match (s.tenant t.val).removal with
  | none => .next s
  | some r =>
    let i := (s.tenant t.val).phase + 1
    let ports := s.fabricUp
    let queued := s.waiting.any (fun f => f.owner == t.val && ports.contains f.port)
    if r.begun && i ≤ 16 && s.due (r.boundary + i * s.turnTicks) && s.slotOf s.pos == 0 && !queued && ports.all (fun p => returned.any (fun q => q.val == p)) then
      let s := s.each ports (fun s p => s.emit (.fence p t.val i))
      let s := s.updTenant t.val fun x => { x with phase := i }
      let s := s.setFabTenant t.val { s.fabTenant t.val with fenceRound := i }
      .next (if i = 16 then s.fenceEnd t.val r else s)
    else .next s

/-- Unmap every page of a tenant (R412). -/
def State.unmapAll (s : State) (t : Nat) : State :=
  s.each ((s.mem.pages.filter (fun e => e.1 / 2 ^ 33 == t)).map (fun e => e.1)) (fun s k => s.unmapPage t k)

/-- Bytes of a tenant's held frames of a tier. -/
def State.heldBytes (s : State) (t tier : Nat) : Nat :=
  ((s.mem.held.filter (fun h => h.tenant == t && h.tier == tier && !h.stuck)).map (fun h => h.units * 65536)).sum

/-- Frames that an uncorrectable error kept from being zeroed: each is retired, or held while the list is full, and reported
(R410, R411). -/
def State.stuckFrames (s : State) (t : Nat) (frames : List Nat) : State :=
  s.each (s.mem.held.filter (fun h => h.tenant == t && frames.contains h.frame && !h.stuck)) (fun s h =>
    let full := decide (maxRetired < (s.mem.retired.filter (fun x => x.1 == h.tier)).length + h.units)
    let s := s.memUe h.tier (h.frame * 65536) t false (if full then 2 else 1)
    let others := s.mem.held.filter (fun x => !(x.tier == h.tier && x.frame == h.frame))
    let s := s.setUsed t (h.tier - 1) (s.usedUnits t (h.tier - 1) - h.units)
    if full then { s with mem := { s.mem with held := others ++ [{ h with stuck := true }] } }
    else State.retire { s with mem := { s.mem with held := others } } h.tier h.frame h.units)

/-- A signed scrub receipt, kept with the last 16, and its SCRUB event (R413). -/
def State.giveReceipt (s : State) (x : Receipt) : State :=
  let s := { s with mem := { s.mem with receipts := (x :: s.mem.receipts).take 16, lastSerial := x.serial } }
  (s.emit (.statement 0x52435358 x.serial [])).event 0 12 0 0xA x.serial

/-- The completion of a TENANT_REMOVE is posted once every member has ended it: the first status that is not OK in order of assembly
index, with the descriptors ended and the packets and frames refused on all of them (R461, R462). -/
def State.tryRemoved (s : State) (t : Nat) : State :=
  match (s.tenant t).removed with
  | none => s
  | some x =>
    if s.liveMembers.all (fun m => x.reports.any (fun y => y.1 == m)) then
      let ordered := (List.range (max s.bigE 1)).filterMap (fun m => (x.reports.find? (fun y => y.1 == m)).map (fun y => y.2.1))
      let descs := (x.reports.map (fun y => y.2.2.1)).sum
      let gone := (x.reports.map (fun y => y.2.2.2)).sum
      (s.updTenant t fun y => { y with removed := none }).complete x.cmd ((ordered.find? (fun st => st != .ok)).getD .ok)
        (descs % 2 ^ 32 + gone % 2 ^ 32 * 2 ^ 32) 0 0
    else s

/-- A member's report of the end of a removal reaches the coordinator (R462). -/
def State.noteRemoved (s : State) (t m : Nat) (st : Status) (descs gone : Nat) : State :=
  (s.updTenant t fun x =>
    match x.removed with
    | some y => if y.reports.any (fun z => z.1 == m) then x else { x with removed := some { y with reports := y.reports ++ [(m, st, descs, gone)] } }
    | none => { x with early := x.early.filter (fun z => z.1 != m) ++ [(m, st, descs, gone)] }).tryRemoved t

/-- The end of a removal: quotas go and the tenant is ABSENT; of a TENANT reset: new memory keys and CREATED. The counts go to the
completion, on another member by a report to the coordinator (R461 to R463, R401). -/
def State.removalEnds (s : State) (t : Nat) (r : Removal) (st : Status) : State :=
  let gone := (s.fabTenant t).gone
  let s := s.updTenant t fun x => { x with removal := none, phase := 0, flr := false }
  let s := if r.reset then (s.makeMemoryKeys t).setTenantState t .created
    else
      let s := ((s.setLimit t 0 0).setLimit t 1 0).setLimit t 2 0
      (s.updTenant t fun x => { x with drbg := false, suspendCause := 0 }).setTenantState t .absent
  match r.cmd with
  | some c =>
    (s.updTenant t fun x => { x with removed := some { cmd := c, reports := (s.jig.me, st, r.descsEnded, gone) :: x.early }, early := [] }).tryRemoved t
  | none =>
    if !r.reset && decide (2 ≤ s.bigE) && !s.isCoord then s.sendDevice (.tenantGone s.jig.me (Fin.ofNat 8 t) st r.descsEnded gone) else s

/-- SCRUB: after the cell clear the tenant's pages are unmapped and its frames zeroed in DEVICE slots under the scrub mode,
with a receipt in FIRMWARE mode; then the removal or TENANT reset ends. With the firmware stopped in FIRMWARE mode nothing is
scrubbed and it ends with INTERNAL, the frames out of the pool (R412, R413, R461, R501). -/
def execScrub (t : TenantId) (hostRefused : Nat) (ueFrames : List Nat) (s : State) : Host.Outcome State Fault Refusal :=
  match (s.tenant t.val).removal with
  | none => .next s
  | some r =>
    let cleared := (List.range 64).all (fun c => s.cellTenant c != t.val || !(s.cell c).clearing)
    if (s.tenant t.val).phase < 17 || !cleared || s.frozen then .next s
    else
      let host := ((s.mem.pages.filter (fun e => e.1 / 2 ^ 33 == t.val && e.2.tier == 3)).map
        (fun e => pageUnits e.2.large * 65536)).sum
      let r := if (s.tenant t.val).phase = 17 then { r with pStart := s.pos, hostBytes := host } else r
      let s := s.unmapAll t.val
      let r := { r with hbmBytes := s.heldBytes t.val 1, ddrBytes := s.heldBytes t.val 2 }
      let s := s.updTenant t.val fun x => { x with phase := 18, removal := some r }
      let anyHeld := s.mem.held.any (fun h => h.tenant == t.val && !h.stuck)
      if s.scrubMode == 1 && s.dbg.fw.state == .stopped then
        let stuckAll := s.mem.held.map (fun (h : HeldFrame) => if h.tenant = t.val then { h with stuck := true } else h)
        let s := { s with mem := { s.mem with held := stuckAll } }
        .next (s.removalEnds t.val r .internal)
      else if anyHeld && s.deviceEngines.isEmpty then .next s
      else
        let s := s.stuckFrames t.val ueFrames
        let s := (s.zeroHeld t.val false).zeroHeld t.val true
        let s := if s.scrubMode == 1 then
          s.giveReceipt {
            tenant := t.val, reset := r.reset, serial := s.mem.lastSerial + 1, pStart := r.pStart, pEnd := s.pos,
            hbmBytes := r.hbmBytes, ddrBytes := r.ddrBytes, hostBytes := r.hostBytes - hostRefused,
            hostRefused := hostRefused, keysDestroyed := r.keysDestroyed, ueFrames := ueFrames.length,
            jig := s.jig.measurement }
        else s
        .next (s.removalEnds t.val r .ok)

/-- Entry to SUSPENDED: descriptors go to the save area, open rounds not yet COMMITTED are aborted, and nothing issues; keys,
memory and objects stay (R456). -/
def State.suspend (s : State) (t cause : Nat) : State :=
  let s := s.each (List.range 32) (fun s d =>
    s.setWork t d ((s.work t d).map (fun w => if w.begun then { w with preempted := true } else w)))
  let s := s.each (s.pendingOpens (some t)) (fun s h => s.cancelOpen h .tenantGone)
  let s := s.each (s.openRounds t (fun st => st != .committed)) (fun s h => s.abortRound h .tenantGone true)
  let s := s.updTenant t fun x => { x with suspendCause := cause, suspendDue := 0 }
  s.setTenantState t .suspended

/-- VF_ENABLE_CHANGE: Memory Space Enable and Bus Master Enable of a VF; clearing Bus Master Enable suspends a RUNNING tenant
at the next turn boundary (R455, R456). -/
def execVfEnableChange (t : TenantId) (mse bme : Bool) (s : State) : Host.Outcome State Fault Refusal :=
  let s := { s with hif := { s.hif with mse := Tab.put false s.hif.mse t.val mse, bme := Tab.put false s.hif.bme t.val bme } }
  if t.val != 0 && (s.tenant t.val).state == .running then
    .next (s.updTenant t.val fun x => { x with suspendDue := if bme then 0 else 2 })
  else .next s

/-- The boundary at which the host-lost limit acts: the first at least HOST_LOST_S seconds after HOST_LOST was entered
(R513). -/
def State.limitAt (s : State) : Nat := s.boundaryFrom (s.dbg.host.lostAt + s.jig.live.hostLostS * 10 ^ 8)

/-- HOST_LOST_LIMIT: every tenant, tenant 0 included, becomes SUSPENDED with cause 1 (R513). -/
def execHostLostLimit (s : State) : Host.Outcome State Fault Refusal :=
  if s.dbg.host.lost && !s.dbg.host.limitPassed && s.due s.limitAt then
    let s := s.updHost fun h => { h with limitPassed := true }
    let ts := (List.range 8).filter (fun t =>
      match (s.tenant t).state with | .created => true | .running => true | _ => false)
    .next ((s.each ts (fun s t => s.suspend t 1)).hostEvent 1)
  else .next s

/-- The conditions under which a tenant becomes RUNNING at a turn boundary (R455, R457). -/
def State.mayRun (s : State) (t : Nat) : Bool :=
  !s.dbg.host.lost &&
  (if t = 0 then (s.tenant 0).state == .suspended && s.jig.loaded
   else ((s.tenant t).state == .created || (s.tenant t).state == .suspended) && (s.tenant t).removal.isNone &&
     Tab.look false s.hif.mse t && Tab.look false s.hif.bme t)

end Sys2Proof.Machine
end

