-- ==== Sys2Proof/Machine/Resets.lean ====
section
/-! DEFINITION. Machine/Resets.lean: the four kinds of reset, function-level resets, tampering and the life cycle (R24 to R26,
R463, R481 to R489, R540, R541, R552 to R554, R566, R567). -/

namespace Sys2Proof.Machine

/-- What a COLD or POWER-ON reset keeps of the SEC block: BBRAM, OTP, the life-cycle state, the part and what is measured
(R24). In BLANK the cause bits count trips since the last reset (R496). -/
def Sec.kept (x : Sec) : Sec :=
  { ({} : Sec) with
    lifecycle := x.lifecycle, stepping := x.stepping, partB := x.partB, pwFails := x.pwFails, pwLocked := x.pwLocked,
    ownerKeys := x.ownerKeys, password := x.password, rootSecret := x.rootSecret, otpSvn := x.otpSvn,
    tamperCause := if x.lifecycle = .blank then 0 else x.tamperCause, vbatMv := x.vbatMv, meshOk := x.meshOk, dark := x.dark }

/-- A COLD reset (R24): everything is lost but BBRAM, OTP, the life-cycle state and what the world outside holds; the alignment
sequence runs again once PERST# is high (R81, R566). -/
def State.coldStart (s : State) : State :=
  { ({} : State) with
    sec := s.sec.kept
    mem := { ({} : Mem) with hbmMib := s.mem.hbmMib, ddrMib := s.mem.ddrMib, keyGen := s.mem.keyGen + 1 }
    pwr := { ({} : Pwr) with temp := s.pwr.temp, tempMax := s.pwr.temp }
    spn := { ({} : Spn) with clk := s.spn.clk, align := if s.perst then .inReset else .qualifying }
    hif := { ({} : Hif) with posted := s.hif.posted, irqs := s.hif.irqs }
    perst := s.perst
    out := s.out
    freeCtr := s.freeCtr
    pending := s.pending }

/-- A life-cycle change that leaves OPEN discards a committed unsigned jig (R102). -/
def State.dropUnsigned (s : State) : State :=
  if s.sec.lifecycle == .open_ && s.jig.unsigned then { s with jig := { ({} : Jig) with live := s.jig.live } } else s

/-- The tamper response (R482): BBRAM and the key register are zeroed, issue stops on every unit, TAMPERED is entered with the
cause bit, an unsigned jig goes (R102), and every cell's clear starts. -/
def State.tamper (s : State) (cause : Nat) : State :=
  let s := s.dropUnsigned
  let s := s.updSec fun x => { x with
    rootSecret := 0, ownerKeys := 0, password := none, pwFails := 0, pwLocked := false, keys := [], lifecycle := .tampered,
    tamperCause := Nat.lor x.tamperCause (2 ^ (cause - 1)) }
  let s := { s with spn := { s.spn with stopped := true } }
  s.each (List.range 64) State.startClear

/-- The conditions under which a sensor works (R481): the voltage sensor from the end of alignment until PERST#, the clock
sensor once SPIN_CLK is qualified. -/
def State.sensing (s : State) (x : Sensor) : Bool :=
  match x with
  | .voltageGlitch => !s.perst && (match s.spn.align with | .checked _ => true | .done => true | _ => false)
  | .clockGlitch => s.counting
  | _ => true

/-- TAMPER_TRIP: armed in PROVISIONED, OWNED and OPEN; in BLANK a trip only sets the cause; otherwise the sensors are disarmed
(R481, R482). -/
def execTamperTrip (sensor : Sensor) (s : State) : Host.Outcome State Fault Refusal :=
  if !s.sensing sensor then .next s
  else if s.sec.lifecycle.live then .next (s.tamper sensor.bit)
  else if s.sec.lifecycle == .blank then
    .next (s.updSec fun x => { x with tamperCause := Nat.lor x.tamperCause (2 ^ (sensor.bit - 1)) })
  else .next s

/-- POWER_ON_RESET: as a COLD reset with PERST# asserted; a BBRAM check that fails in PROVISIONED, OWNED or OPEN enters TAMPERED
with cause VBAT (R24, R474, R552). -/
def execPowerOnReset (bbramOk : Bool) (s : State) : Host.Outcome State Fault Refusal :=
  let s := State.coldStart { s with perst := true }
  .next (if !bbramOk && s.sec.lifecycle.live then s.tamper Sensor.vbatLoss.bit else s)

/-- BROWN_OUT: the engine holds itself in POWER-ON reset until the rails return; BBRAM is kept and nothing is tampered (R481,
R554). -/
def execBrownOut (s : State) : Host.Outcome State Fault Refusal := .next (State.coldStart { s with perst := true })

/-- PERST_ASSERT: a pulse of at least 100 µs is a COLD reset; a shorter one is ignored (R540, R554). -/
def execPerstAssert (microseconds : Nat) (s : State) : Host.Outcome State Fault Refusal :=
  if 100 ≤ microseconds then .next (State.coldStart { s with perst := true }) else .next s

/-- PERST_DEASSERT: SPIN_CLK qualification begins (R81, R552). -/
def execPerstDeassert (s : State) : Host.Outcome State Fault Refusal :=
  if s.perst then
    let align := match s.spn.align with | .inReset => .qualifying | a => a
    .next { s with perst := false, spn := { s.spn with align := align } }
  else .next s

/-- COLD_RESET: the reset that a confirmed HIF_RESET.COLD asked for (R24, R540). -/
def execColdReset (s : State) : Host.Outcome State Fault Refusal := if s.coldDue then .next s.coldStart else .next s

/-- A cell after the running work of tenant 0 is abandoned: its program, stores and SRAM stay (R567). -/
def Cell.abandoned (x : Cell) : Cell :=
  { x with running := false, waiting := .none, halting := false, loops := [], feeds := [] }

/-- An endpoint whose messages are abandoned (R567). -/
def Endpoint.abandoned (e : Endpoint) : Endpoint :=
  { e with
    sends := [], pushes := [], reasm := [], spare := [], parkCmd := none, state := if e.state = 3 then 1 else e.state }

/-- Tenants 1 to 7 of a WARM reset: their tenancy, keys, memory, objects and rounds are lost and their cells clear (R24). -/
def State.loseTenant (s : State) (t : Nat) : State :=
  let was := (s.tenant t).state
  let s := s.updTenant t fun x => { ({} : Tenant) with state := x.state, creations := x.creations }
  let s := s.zeroKeys (fun _ k => k.type != 0 && k.owner == t)
  let s := (s.setTierKey t 0 {}).setTierKey t 1 {}
  let s := ((s.setLimit t 0 0).setLimit t 1 0).setLimit t 2 0
  let s := ((s.setUsed t 0 0).setUsed t 1 0).setUsed t 2 0
  let s := s.setMapRegs t {}
  let s := { s with mem := { s.mem with
    pages := s.mem.pages.filter (fun e => e.1 / 2 ^ 33 != t)
    inUse := s.mem.inUse.filter (fun e => e.2 != t + 1)
    held := s.mem.held.filter (fun h => h.stuck || h.tenant != t) } }
  let s := s.releaseObjects t
  let s := s.setFabTenant t {}
  let s := { s with agg := { s.agg with
    rounds := s.agg.rounds.filter (fun e => e.2.tenant != t)
    binds := s.agg.binds.filter (fun e => e.1 / 32 != t)
    lastRound := s.agg.lastRound.filter (fun e => e.1 != t) } }
  let s := s.each ((List.range 64).filter (fun c => s.cellTenant c == t)) (fun s c => (s.updCell c Cell.abandoned).startClear c)
  if was == .absent then s else s.setTenantState t .absent

/-- Every command in flight goes without a completion, and the queue pairs return to their cold-reset values (R567). A firmware image
that boots goes on booting, and a key set drawn for a rotation stays in the key register (R24, R500); the shadow takes the committed
values (R115). -/
def State.dropCommands (s : State) : State :=
  let rounds := s.agg.rounds.map (fun e => (e.1, { e.2 with
    openCmd := none, unmaskCmd := none, releaseCmd := none, newDeadlines := [], changeCmds := [] }))
  let keys := s.mem.keys.map (fun e => (e.1, { e.2 with cmd := none, fresh := [] }))
  let jig := { s.jig with loading := none, commit := none, shadow := s.jig.cfg, activeShadow := s.jig.active, shadowBad := [] }
  { s with
    hif := { s.hif with queues := [], fetched := [], nextFn := 0, nextQueue := [], held := [], discard := [] }
    agg := { s.agg with rounds := rounds }
    mem := { s.mem with keys := keys }
    pwr := { s.pwr with limitCmds := [] }
    jig := { jig with shadowDigest := jigMeasurement jig.header 0 jig.shadow }
    dbg := { s.dbg with fw := { s.dbg.fw with loading := s.dbg.fw.loading.map (fun x => (none, x.2)) } } }

/-- The running work of every tenant is abandoned: an entry that waits for a committee reply gives up its locks (R341), and frames and
packets that wait for a port go with their messages (R567). -/
def State.dropWork (s : State) : State :=
  let s := s.each (List.range 8) State.endWait
  let s := s.each s.ring.evkJobs (fun s j => s.zeroKey j.evk.digestKey)
  let s := s.each s.loads (fun s l => s.lockPages l.tenant l.cmd.addr l.cmd.len false)
  { s with
    progs := []
    loads := []
    waiting := []
    cells := s.cells.map (fun e => (e.1, e.2.abandoned))
    ring := { s.ring with evkJobs := [], macros := [], macroPos := [], paused := [], reqs := [],
                          settled := s.ring.settled ++ s.ring.reqs.map (fun (q : ExitReq) => (q.tenant, q.id)) }
    mem := { s.mem with work := [], parked := [], engines := s.mem.engines.map (fun e => (e.1, { e.2 with active := false })) }
    fab := { s.fab with eps := s.fab.eps.map (fun e => (e.1, e.2.abandoned)), inbound := [] }
    spn := { s.spn with barriers := [] } }

/-- WARM_RESET, at its turn boundary (R24, R566, R567): running work and commands are abandoned, tenants 1 to 7 are lost, and
open rounds of tenant 0 end on this member as for a lost member. A COLD reset that is due takes precedence (R25). -/
def execWarmReset (s : State) : Host.Outcome State Fault Refusal :=
  match s.warmAt with
  | none => .next s
  | some b =>
    if s.due b && !s.coldDue then
      let s := { s with warmAt := none }
      let s := s.dropCommands.dropWork
      let s := s.each (s.pendingOpens (some 0)) (fun s h => s.cancelOpen h .peerUnreachable)
      let s := s.each (s.openRounds 0 (fun _ => true)) (fun s h =>
        if s.bigE ≤ 1 then s.abortRound h .peerUnreachable true else (s.endBindings h).shardFail h .peerUnreachable)
      let s := s.zeroKeys (fun _ k => k.type != 0 && k.expire && (k.owner == 0 || k.owner == deviceOwner))
      let s := s.each [1, 2, 3, 4, 5, 6, 7] State.loseTenant
      let s := { s with
        dbg := { s.dbg with shv := s.dbg.shv.filter (fun e => decide (e.1 < 2)) }
        sec := { s.sec with chalValid := false } }
      .next s
    else .next s

/-- Clear a function's queue pairs and discard the completions of its commands that run on (R541). -/
def State.clearQueues (s : State) (f : Nat) : State :=
  let run := (s.hif.fetched.filter (fun x => x.1 == f)).map (fun x => (16 * f + x.2.1, x.2.2.1))
  { s with hif := { s.hif with
    queues := s.hif.queues.filter (fun e => e.1 / 16 != f)
    held := s.hif.held.filter (fun k => k.fn != f)
    discard := s.hif.discard ++ run } }

/-- VF_FLR: a TENANT reset of the VF's tenant, unless it is ABSENT or a removal or reset of it is in progress (R463, R464); in an assembly the
coordinator is told and applies it everywhere. The function's queue pairs and enables go with it (DEDUCED: PCI Express). -/
def execVfFlr (t : TenantId) (s : State) : Host.Outcome State Fault Refusal :=
  if t.val = 0 then .next s
  else
    let x := s.tenant t.val
    if x.removal.isSome || x.state == .removing then .next s
    else
      let s := s.clearQueues t.val
      let s := { s with hif := { s.hif with mse := Tab.put false s.hif.mse t.val false, bme := Tab.put false s.hif.bme t.val false } }
      .next (s.flrTenant t.val)

/-- PF0_FLR: PF0's 16 queue pairs and its MSI-X table are cleared, and completions of its commands that still run are discarded
(R541). -/
def execPf0Flr (s : State) : Host.Outcome State Fault Refusal :=
  let s := s.clearQueues 0
  .next { s with hif := { s.hif with
    unmasked := s.hif.unmasked.filter (fun e => e.1 / 64 != 0), pba := s.hif.pba.filter (fun e => e.1 / 64 != 0) } }

/-! ### LIFECYCLE_ADVANCE (R485 to R489) -/

/-- The life-cycle state of a code (R484). -/
def lifecycleOf (n : Nat) : Option Lifecycle :=
  match n with
  | 0 => some .blank | 1 => some .provisioned | 2 => some .owned | 3 => some .open_ | 4 => some .retired | 5 => some .tampered
  | _ => none

/-- What a transition needs (R485): 0 nothing, 1 an owner record, 2 owner signatures, 3 signatures or the password. -/
def advanceNeeds (a b : Lifecycle) : Option Nat :=
  match a, b with
  | .provisioned, .owned => some 1
  | .owned, .open_ => some 3
  | .open_, .owned => some 0
  | .owned, .provisioned => some 2
  | .open_, .provisioned => some 2
  | .provisioned, .retired => some 0
  | .owned, .retired => some 2
  | .open_, .retired => some 2
  | _, _ => none

/-- Bytes of an owner record (R486). -/
def ownerRecordBytes : Nat := 488

/-- The fields of an owner record are in range (R486). -/
def ownerRecordOk (b : List Byte) : Bool :=
  let e := beNat (slice b 384 4)
  let n := field b 420 1
  e % 2 == 1 && decide (65537 ≤ e) && (n == 0 || (decide (16 ≤ n) && decide (n ≤ 64))) &&
  zeroAt b (421 + n) (64 - n) && zeroAt b 485 3

/-- Steps 1 to 4 of an accepted change (R489): the key register is destroyed, the state recorded, the completion posted and a
COLD reset run. -/
def State.advanceTo (s : State) (c : Cmd) (l : Lifecycle) (f : Sec → Sec) (method : Nat) : State :=
  let s := s.updSec fun x => { f x with keys := [], lifecycle := l }
  let s := (s.ok c).coldStart
  s.updSec fun x => { x with openMethod := method }

/-- BBRAM without its owner (R489). -/
def Sec.released (x : Sec) : Sec := { x with ownerKeys := 0, password := none, pwFails := 0, pwLocked := false }

/-- Tenant 0 has a running program, an open round or a DMA descriptor in flight (R489). -/
def State.busyZero (s : State) : Bool :=
  s.progs.any (fun r => s.groupOwner r.group == 0) || !(s.openRounds 0 (fun _ => true)).isEmpty ||
  (List.range 32).any (fun d => !(s.work 0 d).isEmpty)

/-- Ticks in 1 s. -/
def secondTicks : Nat := 100000000

/-- The password path of R488: an attempt within 1 s of a failure is refused uncounted, a wrong one counts, the eighth locks. -/
def State.tryPassword (s : State) (c : Cmd) (b : List Byte) : State :=
  let soon := match s.sec.lastFail with | some p => decide (s.pos < p + secondTicks) | none => false
  match s.sec.password with
  | none => s.fail c .lifecycle
  | some (n, v) =>
    if s.sec.pwLocked || soon then s.fail c .lifecycle
    else if n = c.len ∧ v = field b 0 c.len then
      s.advanceTo c .open_ (fun x => { x with pwFails := 0 }) 2
    else
      (s.updSec fun x => { x with
        pwFails := x.pwFails + 1, pwLocked := decide (8 ≤ x.pwFails + 1), lastFail := some s.pos }).fail c .lifecycle

/-- LIFECYCLE_ADVANCE: the transitions of R485 with their authorities; everything else is refused with LIFECYCLE (R485 to
R489, R494). A buffer of 16 to 64 bytes for OPEN is a password, any other a signature block. -/
def execLifecycleAdvance (c : Cmd) (sig : SigPair) (s : State) : Host.Outcome State Fault Refusal :=
  .next <| s.command 0x80 c fun s =>
    match (lifecycleOf c.a0).bind (fun l => (advanceNeeds s.sec.lifecycle l).map (fun n => (l, n))) with
    | none => s.fail c .lifecycle
    | some (l, need) =>
      match firstFail [
          (s.sec.enforce && l == .open_, .lifecycle),
          ((List.range 8).any (fun t => decide (0 < t) && (s.tenant t).state != .absent) || s.busyZero ||
            s.jig.commit.isSome, .cfgLocked)] with
      | some st => s.fail c st
      | none =>
        match (if need = 0 then none else s.blockFail 0 c.addr c.len (fun p => p.r)) with
        | some st => s.fail c st
        | none =>
          let b := s.readVA 0 c.addr c.len c.host
          let gone := fun (x : Sec) =>
            match l with
            | .provisioned => x.released
            | .retired => { x.released with rootSecret := 0 }
            | _ => x
          match need with
          | 0 => s.advanceTo c l gone 0
          | 1 =>
            if c.len != ownerRecordBytes || !ownerRecordOk b then s.fail c .bounds
            else
              let n := field b 420 1
              s.advanceTo c l (fun x => { x with
                ownerKeys := Config.digest "owner" (b.take 420), password := if n = 0 then none else some (n, field b 421 n),
                pwFails := 0, pwLocked := false }) 0
          | _ =>
            if need = 3 ∧ 16 ≤ c.len ∧ c.len ≤ 64 then s.tryPassword c b
            else if c.len = 8240 && sig.ok && s.sec.chalValid then s.advanceTo c l gone (if l = .open_ then 1 else 0)
            else (s.updSec fun x => { x with chalValid := false }).fail c .cfgSignature

end Sys2Proof.Machine
end

