-- ==== Sys2Proof/Machine/Spindle.lean ====
section
/-! DEFINITION. Machine/Spindle.lean: the time base, alignment, PTP, freezes, refresh, turn boundaries and the loss of members
(R33, R45 to R91, R502 to R505). -/

namespace Sys2Proof.Machine

/-- Change the SPN block. -/
def State.updSpn (s : State) (f : Spn → Spn) : State := { s with spn := f s.spn }

/-! ### Alignment (R81 to R83) -/

/-- SPIN_CLK_QUALIFIED: after 1,000 good edges the counter starts at 0 and the PLLs begin to lock (R81, R552, R555). -/
def execSpinClkQualified (s : State) : Host.Outcome State Fault Refusal :=
  match s.spn.align with
  | .qualifying => if s.perst then .next s else
    .next (s.updSpn fun x => { x with
      clk := true, pos := 0, lastBoundary := 0, align := .locking, locked := false, releaseAfter := some 0 })
  | _ => .next s

/-- Ticks within which every PLL locks (R81). -/
def lockTicks : Nat := 20000

/-- PLL_LOCK_TIMEOUT: a PLL not locked 20,000 ticks after P_q sets ALIGN_FAIL (R81). -/
def execPllLockTimeout (s : State) : Host.Outcome State Fault Refusal :=
  match s.spn.align with
  | .locking => if !s.spn.locked && decide (lockTicks ≤ s.pos) then .next (s.updSpn fun x => { x with align := .failed }) else .next s
  | _ => .next s

/-- ALIGN_RELEASE: at the first multiple of 100 after all PLLs lock, reset is released in every domain; after a repeat or the lock
itself the edge lies strictly later, after an adoption it is the first of the new numbering (R81 to R83, R565). -/
def execAlignRelease (s : State) : Host.Outcome State Fault Refusal :=
  match s.spn.align with
  | .locking =>
    if s.pos % 100 == 0 && (match s.spn.releaseAfter with | some p => decide (p < s.pos) | none => true) &&
       (s.spn.locked || decide (s.pos ≤ lockTicks + 100)) then
      .next (s.updSpn fun x => { x with align := .released x.pos, locked := true, releaseAfter := none })
    else .next s
  | _ => .next s

/-- FIFO_CHECK at A + 100: a difference repeats the sequence from the release step at the next alignment edge, three times at most;
then ALIGN_FAIL (R82). -/
def execFifoCheck (matching : Bool) (s : State) : Host.Outcome State Fault Refusal :=
  match s.spn.align with
  | .released a =>
    if s.pos < a + 100 then .next s
    else if matching then .next (s.updSpn fun x => { x with align := .checked a, alignRepeats := 0 })
    else if s.spn.alignRepeats < 3 then .next (s.updSpn fun x => { x with
      align := .locking, alignRepeats := x.alignRepeats + 1, releaseAfter := some x.pos })
    else .next (s.updSpn fun x => { x with align := .failed })
  | _ => .next s

/-- CXL_TRAINING_START at A + 200 (R81, R552). -/
def execCxlTrainingStart (s : State) : Host.Outcome State Fault Refusal :=
  match s.spn.align with
  | .checked a => if s.pos < a + 200 then .next s else .next (s.updSpn fun x => { x with align := .done })
  | _ => .next s

/-- The engine is quiet (R53). -/
def State.quiet (s : State) : Bool :=
  (List.range 8).all (fun t => t == 0 || match (s.tenant t).state with
    | .running => false | .suspended => false | .removing => false | _ => true) &&
  !s.progs.any (fun r => s.groupOwner r.group == 0) && !s.loads.any (fun l => l.tenant == 0) && (Tab.look [] s.ring.macros 0).isEmpty &&
  (List.range 32).all (fun d => (s.work 0 d).isEmpty) && s.agg.rounds.all (fun e => e.2.state == .free) &&
  s.spn.barriers.isEmpty && s.jig.commit.isNone

/-- A recorded position in a new numbering. -/
def rebase (old new p : Nat) : Nat := ((p : Int) + (new : Int) - (old : Int)).toNat

/-- The engine may adopt a position: it is quiet, not frozen, and its alignment has not failed, which only a reset clears (R82, R83,
R95). -/
def State.mayAdopt (s : State) : Bool := s.quiet && !s.frozen && s.spn.align != .failed

/-- Adopting a position (R83): the count goes on from it, times that run keep their length, and the alignment sequence repeats
from the release step, with the work clocks frozen meanwhile (`State.realigning`). -/
def State.adopt (s : State) (p : Nat) : State :=
  let m := rebase s.pos p
  let frame := p / 2 ^ s.spn.k / 8
  let s := { s with
    dbg := { s.dbg with
      host := { s.dbg.host with lastBeat := m s.dbg.host.lastBeat, lostAt := m s.dbg.host.lostAt, downAt := s.dbg.host.downAt.map m }
      fw := { s.dbg.fw with loading := s.dbg.fw.loading.map (fun (c, v, a, q) => (c, v, a, m q)) } }
    sec := { s.sec with lastFail := s.sec.lastFail.map m }
    pwr := { s.pwr with lastThermal := m s.pwr.lastThermal, lastLoop := frame, tripFrame := 0 } }
  s.updSpn fun x => { x with
    pos := p, lastBoundary := p / 2 ^ x.k * 2 ^ x.k, epochSet := true, align := .locking, alignRepeats := 0, releaseAfter := none,
    ptpTime := x.ptpTime.map (fun (t, q) => (t, m q)), ptpReady := x.ptpReady.map m, ptpUpdated := m x.ptpUpdated, refresh := [] }

/-- SPN_EPOCH: the write is taken where the engine is quiet and MASTER with SYNC, and EPOCH is a multiple of 100; otherwise it is
discarded and EPOCH_ERR sets (R52). -/
def execSpnEpochWrite (fn : FnId) (value : Word64) (s : State) : Host.Outcome State Fault Refusal :=
  .next <| s.ifWritable fun s =>
    if fn.val != 0 then s.windowMiss fn.val 0x00100018 true
    else
      let e := bits value.toNat 0 63
      if e % 100 == 0 && s.spn.role == .master && s.jig.cfg.spindle.epoch == .sync && s.quiet then
        s.updSpn fun x => { x with epoch := e, arm := x.arm || bitAt value.toNat 63 }
      else s.updSpn fun x => { x with epochErr := true }

/-- SPIN_SYNC_EDGE: with ARM set, the quiet engine adopts EPOCH as the position of this tick and clears ARM (R52, R83). An edge that
comes while the engine is no longer quiet or no longer MASTER is ignored and ARM stays set for a later one (DESIGN CHOICE:
notes/assumptions/44.md). -/
def execSpinSyncEdge (s : State) : Host.Outcome State Fault Refusal :=
  if s.spn.arm && s.spn.role == .master && s.mayAdopt then
    .next ((s.adopt s.spn.epoch).updSpn fun x => { x with arm := false })
  else .next s

/-- This member's upstream ports in the tree in use (R55, R58). -/
def State.upstream (s : State) : Option Nat × Option Nat :=
  let u := s.routeSet.upstream.getD s.jig.me {}
  if s.spn.standbyTree then (u.standbyPri, u.standbySec) else (u.pri, u.sec)

/-- The engine's PTP time now, in ns (R54). -/
def State.ptpNow (s : State) : Option Nat := s.spn.ptpTime.map (fun (t, q) => t + 10 * (s.pos - q))

/-- PTP_MESSAGE: the time of day received on the jig's PTP port in its domain, timestamped; the slave-only clock answers with a delay
request (R54). -/
def execPtpMessage (p : PortId) (domain timeNs : Nat) (s : State) : Host.Outcome State Fault Refusal :=
  let j := s.jig.cfg.spindle
  if s.jig.loaded && s.spn.role == .master && j.epoch == .ptp && p.val == j.ptpPort && domain == j.ptpDomain &&
     (s.port p.val).state == 1 && !s.frozen then
    .next ((s.updSpn fun x => { x with ptpTime := some (timeNs, x.pos), ptpReady := some (x.ptpReady.getD x.pos) }).emit
      (.ptpDelayReq p.val))
  else .next s

/-- PTP time in ticks, rounded up to a multiple of 100 (R54). -/
def ptpTicks (ns : Nat) : Nat := ceilDiv ns 1000 * 100

/-- PTP_ADOPT: a single engine that is MASTER with PTP adopts the received time once, at an alignment edge strictly later than the
first PTP time since its jig took effect, while it is quiet (R54, R83, R565). -/
def execPtpAdopt (s : State) : Host.Outcome State Fault Refusal :=
  match s.ptpNow, s.spn.ptpReady with
  | some ns, some q =>
    if s.jig.loaded && s.bigE == 1 && s.spn.role == .master && s.jig.cfg.spindle.epoch == .ptp && !s.spn.epochSet &&
       s.pos % 100 == 0 && decide (q < s.pos) && s.mayAdopt then .next (s.adopt (ptpTicks ns))
    else .next s
  | _, _ => .next s

/-- PTP_OFFSET_UPDATE: once per second, PTP time minus Spindle time in ns (R54). -/
def execPtpOffsetUpdate (s : State) : Host.Outcome State Fault Refusal :=
  match s.ptpNow with
  | some ns =>
    if s.spn.epochSet && decide (s.spn.ptpUpdated + secondTicks ≤ s.pos) then
      .next (s.updSpn fun x => { x with ptpOffset := (ns : Int) - 10 * x.pos, ptpUpdated := x.pos })
    else .next s
  | none => .next s

/-- Link delays as alignment measures them, half of each round trip in ps (R56). -/
def State.setDelays (s : State) (l : List (PortId × Nat)) : State :=
  s.updSpn fun x => { x with linkDelay := l.foldl (fun m d => Tab.put none m d.1.val (some (d.2 / 2))) x.linkDelay }

/-- The upstream port in use. -/
def State.upstreamPort (s : State) : Option Nat := if s.spn.source = .secondary then s.upstream.2 else s.upstream.1

/-- The measured delay of a port in ps. -/
def State.delayOf (s : State) (p : Nat) : Nat := (Tab.look none s.spn.linkDelay p).getD 0

/-- The position that a follower takes up: the upstream neighbour's, corrected for the measured delay of 10,000 ps a tick, at the
next alignment edge (R51, R83; DEDUCED for the rounding, notes/assumptions/27.md). -/
def followPosition (pos delayPs : Nat) : Nat := ceilDiv (pos + delayPs / 10000) 100 * 100

/-- Both upstream links of a follower are among the links measured (R56). -/
def State.measuresBoth (s : State) (l : List (PortId × Nat)) : Bool :=
  match s.upstream with
  | (some a, some b) => l.any (fun d => d.1.val == a) && l.any (fun d => d.1.val == b)
  | _ => false

/-- ASSEMBLY_ALIGNMENT (R33, R54, R56, R83, R479): a quiet follower with a locked upstream measures the round trips of both upstream
links and adopts the upstream neighbour's position, corrected for the delay, where its firmware class, composition hash and
measurement are the coordinator's; a member that differs is refused with CFG_MISMATCH and does not join, and one that is lost or has
stopped needs a COLD reset first (R45). The coordinator, once its own position is set or a PTP time has come, ends alignment by
signing an assembly attestation. -/
def execAssemblyAlignment (pos : Nat) (fwClass : Nat) (composition measurement : Digest) (roundTrips : List (PortId × Nat))
    (s : State) : Host.Outcome State Fault Refusal :=
  if !s.jig.loaded || s.bigE < 2 || !s.mayAdopt || s.spn.stopped || s.spn.lost.contains s.jig.me then .next s
  else if s.spn.role == .follower then
    if fwClass != s.dbg.fw.fwClass || composition != compositionHash s.jig.cfg.assembly || measurement != s.jig.measurement then
      .next ((s.updJigAlign false .cfgMismatch).emit (.alignRefused .cfgMismatch))
    else if s.spn.locked && s.spn.source != .holdover && s.measuresBoth roundTrips then
      let s := s.setDelays roundTrips
      let d := s.delayOf (s.upstreamPort.getD 0)
      let s := (s.adopt (followPosition pos d)).updSpn fun x => { x with phasePs := d }
      .next ((s.updJigAlign false s.jig.lastStatus).sendDevice (.aligned s.jig.me))
    else .next s
  else if s.spn.role == .master then
    let s1 := (s.setDelays roundTrips).updJigAlign false s.jig.lastStatus
    match s.jig.cfg.spindle.epoch, s.ptpNow with
    | .ptp, some ns => if s.spn.epochSet then .next s1.signAssembly else .next (s1.adopt (ptpTicks ns)).signAssembly
    | .ptp, none => .next s
    | _, _ => if s.spn.epochSet then .next s1.signAssembly else .next s
  else .next s

/-- TIMING_FRAME: a follower keeps measuring its upstream links, and corrects its phase at turn boundaries only; otherwise the frame is
answered in slot 0, but not by an engine that has lost its SPIN_CLK (R56, R59, R67). -/
def execTimingFrame (p : PortId) (roundTripPs : Nat) (pos : Nat) (s : State) : Host.Outcome State Fault Refusal :=
  if (s.port p.val).role != 1 || (s.port p.val).state != 1 then .next s
  else
    let s1 := s.rxFrame p.val (s.otherBytes p.val)
    if s.spn.role == .follower && (s.upstream.1 == some p.val || s.upstream.2 == some p.val) then
      .next (s1.updSpn fun x => { x with linkDelay := Tab.put none x.linkDelay p.val (some (roundTripPs / 2)) })
    else if s.spn.clkLostAt.isSome then .next s1
    else .next (s1.sendSlot0 (.timing p.val pos))

/-! ### Sources and their loss (R57 to R59) -/

/-- A follower loses its primary upstream: it holds over and switches to the secondary at the next turn boundary (R57). -/
def State.loseUpstream (s : State) : State :=
  if s.spn.role == .follower && (s.spn.source == .primary || s.spn.source == .secondary) then
    s.updSpn fun x => { x with switchDue := x.source == .primary, source := .holdover, holdoverTurns := 0, locked := false }
  else s

/-- UPSTREAM_LOSS (R57). -/
def execUpstreamLoss (s : State) : Host.Outcome State Fault Refusal := .next s.loseUpstream

/-- HOLDOVER_LIMIT: after 16 turns in holdover a follower stops issue at the next turn boundary (R57). -/
def execHoldoverLimit (s : State) : Host.Outcome State Fault Refusal :=
  if s.spn.role == .follower && s.spn.source == .holdover && decide (16 ≤ s.spn.holdoverTurns) then
    .next (s.updSpn fun x => { x with stopDue := true })
  else .next s

/-- SPIN_CLK_LOSS: the MASTER holds over, stops issue at the next turn boundary and sends no more timing frames (R59). -/
def execSpinClkLoss (s : State) : Host.Outcome State Fault Refusal :=
  let s := s.updSpn fun x => { x with clk := false, clkLostAt := some (x.clkLostAt.getD x.pos) }
  if s.spn.role == .master then
    .next (s.updSpn fun x => { x with source := .holdover, holdoverTurns := 0, locked := false, stopDue := true })
  else if s.spn.source == .ball then .next (s.updSpn fun x => { x with locked := false })
  else .next s

/-- RATIO_SWITCH: the core clock switches at the first alignment edge at or after the boundary (R79). -/
def execRatioSwitch (s : State) : Host.Outcome State Fault Refusal :=
  match s.spn.ratioDue with
  | some (r, b) =>
    if s.due (ceilDiv b 100 * 100) then .next (s.updSpn fun x => { x with ratio := r, ratioDue := none }) else .next s
  | none => .next s

/-! ### Freezes (R90, R91) -/

/-- Ticks in 100 ns, the longest delay from a trip to its freeze (R90). -/
def tripTicks : Nat := 10

/-- FREEZE_BEGIN: no more than 10 ticks after a trip every work clock stops (R90); a current trip's freeze counts for its frame
(R504). -/
def execFreezeBegin (s : State) : Host.Outcome State Fault Refusal :=
  match s.spn.tripAt with
  | some t =>
    if s.frozen then .next s
    else
      let at_ := min s.pos (t + tripTicks)
      let s := s.updSpn fun x => { x with frozenAt := some at_, freezes := satAdd 32 x.freezes 1 }
      .next (if s.pwr.lastCause = 1 then s.updPwr fun w => { w with tripFrame := s.turnOf at_ / 8 + 1 } else s)
  | none => .next s

/-- Ticks in 2 µs. -/
def freezeTicks : Nat := 200

/-- Retransmission timers stop while the engine is frozen: their starts move by the ticks that the freeze took (R90, R431). -/
def State.holdTimers (s : State) (n : Nat) : State :=
  { s with fab := { s.fab with eps := s.fab.eps.map (fun e => (e.1, { e.2 with sends := e.2.sends.map (fun m => { m with
      left := m.left.map (fun k => { k with sentAt := k.sentAt + n, waitUntil := k.waitUntil.map (· + n) }) }) })) } }

/-- THAW: the clocks restart at the first alignment edge strictly later than both the clearing of the trip condition, which
`clearedAt` names and which no trip may follow, and 2 µs after the freeze began (R90, R565); what passed meanwhile runs from here on
in order (R91), and the count of frames without a decision starts again (R501). -/
def execThaw (s : State) (clearedAt : Nat := 0) : Host.Outcome State Fault Refusal :=
  match s.spn.frozenAt with
  | some f =>
    if s.pos % 100 == 0 && decide (f + freezeTicks < s.pos) && decide (clearedAt < s.pos) &&
       (match s.spn.tripAt with | some t => decide (t ≤ clearedAt) | none => true) then
      let s := (s.holdTimers (s.pos - f)).updSpn fun x => { x with
        frozenAt := none, tripAt := none, lastFreeze := min (2 ^ 32 - 1) (x.pos - f) }
      .next (s.updPwr fun w => { w with lastLoop := max w.lastLoop (s.turn / 8) })
    else .next s
  | none => .next s

/-! ### Refresh windows (R68) -/

/-- REFRESH_WINDOW: the memory refreshes, and accesses to it wait (R68). -/
def execRefreshWindow (ddr : Bool) (unit : Fin 16) (s : State) : Host.Outcome State Fault Refusal :=
  let n := unit.val
  if s.frozen || (if ddr then decide (12 ≤ n) else decide (8 ≤ n)) then .next s
  else
    match s.refreshAt (s.slotTable (if ddr then .ddrRefresh else .hbmRefresh) n) s.pos with
    | some p => .next (s.updSpn fun x => { x with refresh := Tab.put 0 x.refresh (if ddr then 8 + n else n) p })
    | none => .next s

/-! ### Losing members (R45 to R47, R58) -/

/-- The standby coordinator's index. -/
def State.standby (s : State) : Nat := s.jig.cfg.assembly.standby
/-- This member is part of a running assembly of two or more. -/
def State.inAssembly (s : State) : Bool := s.jig.loaded && decide (2 ≤ s.bigE)

/-- A member's loss takes effect (R45, R46): every open round notes that the member takes no more part in it; as a twin of this member
it leaves the shard unverified, meets the replica condition of a pass that has ended, and its mirrors are dropped (R43); a MEMBER event
is raised, and the coordinator signs a new assembly attestation. -/
def State.applyLoss (s : State) (m : Nat) : State :=
  if s.spn.lost.contains m then s
  else
    let s := s.updSpn fun x => { x with
      lost := x.lost ++ [m], missedBy := x.missedBy.filter (fun y => y != m), realigned := x.realigned.filter (fun y => y != m) }
    let open_ := s.agg.rounds.filter (fun e => e.2.state.isOpen || e.2.bOpen.isSome)
    let s := s.each (open_.map (fun e => e.1)) (fun s h => s.updRound h fun r => { r with gone := r.gone ++ [m] })
    let hs := (open_.filter (fun e => e.2.shards.any (fun l => l.contains m && l.contains s.jig.me))).map (fun e => e.1)
    let s := s.each hs (fun s h =>
      let r := s.round h
      let waits := r.gateDone && !r.replicaOk && r.shardStatus == .ok
      let s := s.updRound h fun r => { r with unverified := true, mirrorQueue := [], replicaOk := r.replicaOk || waits }
      if waits then s.reportGate h else s)
    let s := s.each (open_.map (fun e => e.1)) (fun s h => (s.discardHomeless h).checkRelease h)
    let s := s.event 0 7 0 0xA m
    let s := s.each (List.range 8) State.tryRemoved
    if s.isCoord then s.signAssembly else s

/-- The coordinator's loss takes effect (R46, R58): every open round ends ABORTED; the standby becomes MASTER on its own SPIN_CLK
and every other member switches to the standby tree. -/
def State.takeOver (s : State) : State :=
  let old := s.coordinator
  let hs := (s.agg.rounds.filter (fun e => e.2.state.isOpen)).map (fun e => e.1)
  let s := s.each hs (fun s h => s.abortRound h .peerUnreachable true)
  let s := s.each (s.pendingOpens none) (fun s h => s.cancelOpen h .peerUnreachable)
  let s := s.updSpn fun x => { x with standbyTree := true, coordLossAt := none, quietCoord := 0, quietBoth := 0 }
  let s := if s.jig.me == s.standby then s.updSpn fun x => { x with role := .master, source := .ball, locked := x.clk, switchDue := false }
    else if (match s.upstream.1 with | some p => (s.port p).state == 1 | none => false) then
      s.updSpn fun x => { x with source := .primary, locked := true, switchDue := false }
    else s.updSpn fun x => { x with source := .holdover, locked := false, switchDue := true }
  s.applyLoss old

/-- The coordinator declares a member lost, effective at the next turn boundary on every member (R45). -/
def State.declareLost (s : State) (m : Nat) : State :=
  if s.inAssembly && s.decides && m < s.bigE && m != s.jig.me && !s.spn.lost.contains m && !s.spn.lossDue.contains m then
    (s.updSpn fun x => { x with lossDue := x.lossDue ++ [m] }).sendDevice (.lost m)
  else s

/-- MEMBER_LOSS: the coordinator declares a member lost that has missed a barrier, or all of whose fabric-role ports have been out of
service for two consecutive turns (R45). -/
def execMemberLoss (m : Nat) (s : State) (turnsOut : Nat := 0) : Host.Outcome State Fault Refusal :=
  .next (if 2 ≤ turnsOut ∨ m ∈ s.spn.missedBy then s.declareLost m else s)

/-- COORDINATOR_LOSS: after two turns without a sign of the coordinator's frames the standby declares it lost in slot 0, effective at
the turn boundary that ends this turn (R47). -/
def execCoordinatorLoss (s : State) : Host.Outcome State Fault Refusal :=
  if s.inAssembly && !s.spn.standbyTree && s.jig.me == s.standby && decide (2 ≤ s.spn.quietCoord) && s.spn.coordLossAt.isNone &&
     s.slotOf s.pos == 0 then
    .next ((s.updSpn fun x => { x with coordLossAt := some (s.boundaryAfter s.pos) }).sendDevice (.lost s.coordinator))
  else .next s

/-- ISOLATED_COORDINATOR_STOP: a coordinator that hears no member for two turns stops issue at the next turn boundary (R47). -/
def execIsolatedCoordinatorStop (s : State) : Host.Outcome State Fault Refusal :=
  if s.inAssembly && s.isCoord && decide (2 ≤ s.spn.quietMembers) then .next (s.updSpn fun x => { x with stopDue := true })
  else .next s

/-- NO_STANDBY_STOP: a member that hears neither coordinator for four turns stops issue at the next turn boundary and reports
BARRIER_TIMEOUT (R46, R47). -/
def execNoStandbyStop (s : State) : Host.Outcome State Fault Refusal :=
  if s.inAssembly && !s.isCoord && decide (4 ≤ s.spn.quietBoth) && !s.spn.ceased then
    .next ((s.updSpn fun x => { x with stopDue := true, ceased := true }).sendDevice (.timeout s.jig.me))
  else .next s

/-- The frames that wait for slot 0 go out, oldest first (R67). -/
def State.flushSlot0 (s : State) : State := { s with slot0 := [], out := s.slot0.reverse ++ s.out }

/-- SLOT0_DEVICE_FRAMES: in slot 0 of every turn the coordinator and every member send their DEVICE frames, and the frames that wait
for the slot; a coordinator that has ceased timing frames, has stopped or has reported BARRIER_TIMEOUT sends no status frame (R47,
R67). -/
def execSlot0DeviceFrames (s : State) : Host.Outcome State Fault Refusal :=
  if s.inAssembly && !s.frozen && s.slotOf s.pos == 0 && !s.spn.slot0Sent then
    let s1 := (s.updSpn fun x => { x with slot0Sent := true }).flushSlot0
    if s.isCoord then
      if s.spn.stopped || s.spn.clkLostAt.isSome || s.spn.ceased then .next s1 else .next (s1.emit (.device (.status true)))
    else
      let s2 := s1.emit (.device (.member s.jig.me s.spn.heardCoord))
      .next (if s.jig.me == s.standby then s2.emit (.device (.status false)) else s2)
  else .next s

/-! ### The turn boundary (R60) -/

/-- Counts of turns without frames, at the end of a turn (R47). -/
def Spn.countQuiet (x : Spn) : Spn :=
  { x with
    quietCoord := if x.heardCoord || x.heardVia then 0 else x.quietCoord + 1
    quietMembers := if x.heardMember then 0 else x.quietMembers + 1
    quietBoth := if x.heardEither then 0 else x.quietBoth + 1 }

/-- An upstream port is in service. -/
def State.usable (s : State) (p : Option Nat) : Bool := match p with | some p => (s.port p).state == 1 | none => false

/-- The most that the phase moves at a turn boundary, in ps: 1/8 work cycle at the ratio, of 10,000 ps a tick (R56). -/
def phaseStep (ratio : Nat) : Nat := 1250 / ratio

/-- A phase that follows a target by at most `n` (R56). -/
def follow (x target n : Nat) : Nat := if x < target then min target (x + n) else max target (x - n)

/-- The source at a turn boundary: a follower in holdover switches to its secondary upstream after the loss of the primary, or to
whichever upstream is usable, or holds over for one more turn (R57); one that follows an upstream corrects its phase (R56). -/
def State.sourceBoundary (s : State) : State :=
  let take := fun (src : SpinSource) (p : Option Nat) => s.updSpn fun x => { x with
    source := src, switchDue := false, locked := true, phasePs := s.delayOf (p.getD 0) }
  if s.spn.source == .holdover then
    if s.spn.role == .follower && s.spn.switchDue && s.usable s.upstream.2 then take .secondary s.upstream.2
    else if s.spn.role == .follower && s.usable s.upstream.1 then take .primary s.upstream.1
    else if s.spn.role == .follower && s.usable s.upstream.2 then take .secondary s.upstream.2
    else s.updSpn fun x => { x with holdoverTurns := satAdd 8 x.holdoverTurns 1 }
  else if s.spn.role == .follower && s.spn.source != .ball then
    s.updSpn fun x => { x with phasePs := follow x.phasePs (s.delayOf (s.upstreamPort.getD 0)) (phaseStep x.ratio) }
  else s

/-- A budget at its full value, the wait of the last turn noted (R69). -/
def Budget.refill (b : Budget) (full : Nat) (turn : Bool) : Budget :=
  { remaining := full, exhaustedLast := if turn then b.waited else b.exhaustedLast, waited := if turn then false else b.waited }

/-- Every budget at its full value (R69); `turn` says that a turn ends. -/
def State.refill (s : State) (turn : Bool) : State :=
  let dma := (List.range 8).foldl (fun m t =>
    Tab.put {} m t ((Tab.look ({} : Budget) m t).refill (s.dmaBudgetFull t) turn)) s.spn.budgetDma
  let link := (List.range 128).foldl (fun m i =>
    Tab.put {} m i ((Tab.look ({} : Budget) m i).refill (s.linkBudgetFull (i / 16) (i % 16)) turn)) s.spn.budgetLink
  s.updSpn fun x => { x with budgetDma := dma, budgetLink := link }

/-- Descriptors whose tenant holds no slot of the engine in the new turn, withheld turns included, go to the save area (R66,
R398). -/
def State.preemptDma (s : State) (tn : Nat) : State :=
  s.each (List.range 8) (fun s t => s.each (List.range 32) (fun s d =>
    match s.work t d with
    | w :: rest =>
      if w.begun && !(s.parkedAt t d).pending && !(s.ownsSlot .dma d t && s.grantedAt t .dma tn) then
        s.setWork t d ({ w with preempted := true } :: rest)
      else s
    | [] => s))

/-- Steady at a frame boundary: the rung in force with its ratio and grants, and the floor (R502 to R504, R508). -/
def State.applyRung (s : State) (rung b : Nat) : State :=
  let grants := (List.range 56).foldl (fun m i =>
    let t := i / 7
    let k := 8 * t + i % 7
    Tab.put {} m k { Tab.look ({} : Grant) m k with duty := rungDuty rung (s.band t (i % 7)) }) s.pwr.grants
  let s := s.updPwr fun w => { w with rung := rung, floor := w.nextFloor, nextRung := none, grants := grants }
  let r := rungRatio rung
  if r = s.spn.ratio then s.updSpn fun x => { x with ratioDue := none } else s.updSpn fun x => { x with ratioDue := some (r, b) }

/-- Steady: in the first turn after a ratio fall the running firmware writes the lower VDD_CORE setpoint (R551). -/
def State.lowerVdd (s : State) : State :=
  let v := (s.setpoint s.spn.ratio).toNat
  if s.dbg.fw.state == .running && s.pwr.vddWait == none && decide (v < s.pwr.vddSet) then s.updPwr fun w => { w with vddSet := v } else s

/-- Steady at turn boundary `b`: hot withholding, the fallback grants, the frame's rung, and the counts of turns withheld or
granted against the rung (R89, R501 to R505, R509). -/
def State.steady (s : State) (b : Nat) : State :=
  let tn := b / 2 ^ s.spn.k
  let s := s.lowerVdd
  let s := if s.pwr.hotDue then s.updPwr fun w => { w with hot := true, hotDue := false } else s
  let s := if s.pwr.fallbackDue then
      (s.updPwr fun w => { w with fallback := true, fallbackDue := false }).applyRung (max 19 s.pwr.nextFloor) b
    else if tn % 8 = 0 then
      s.applyRung (if s.pwr.fallback then max 19 s.pwr.nextFloor else max (s.pwr.nextRung.getD s.pwr.loopRung) s.pwr.nextFloor) b
    else s
  let s := s.updPwr fun w => { w with withheld := s.withheldIn tn }
  s.each ((List.range 8).filter (fun t => (s.tenant t).state != .absent)) (fun s t => s.each grantClasses (fun s c =>
    let g := s.grant t c.index
    if s.grantedAt t c tn then
      if dutyGrants g.duty tn then s else s.setGrant t c.index { g with overrides := satAdd 8 g.overrides 1 }
    else s.setGrant t c.index { g with withheld := satAdd 16 g.withheld 1 }))

/-- Tenants at a turn boundary: suspensions due, then those that may run (R455 to R457). -/
def State.tenantBoundary (s : State) : State :=
  let s := s.each (List.range 8) (fun s t =>
    if (s.tenant t).suspendDue != 0 && (s.tenant t).state == .running then s.suspend t (s.tenant t).suspendDue else s)
  s.each (List.range 8) (fun s t =>
    if s.mayRun t then (s.updTenant t fun x => { x with suspendCause := 0 }).setTenantState t .running else s)

/-- Turns counted for parked descriptors (R396) and waiting cells (R214), and NAKs of a turn (R447). -/
def State.countTurn (s : State) : State :=
  { s with
    mem := { s.mem with parked := s.mem.parked.map (fun (k, p) => (k, if p.pending then { p with turns := p.turns + 1 } else p)) }
    cells := s.cells.map (fun (k, c) => (k, if c.running && c.waiting != .none then { c with waitTurns := satAdd 16 c.waitTurns 1 } else c))
    fab := { s.fab with eps := s.fab.eps.map (fun (k, e) => (k, { e with naksTurn := 0 })) } }

/-- Rounds whose change of state is due at boundary `b` (R240). -/
def State.roundBoundary (s : State) (b : Nat) : State :=
  s.each ((s.agg.rounds.filter (fun e => match e.2.change with | some (p, _) => decide (p ≤ b) | none => false)).map (fun e => e.1))
    State.applyChange

/-- New link keys take effect, SEQ starts again under them, and the old ones are destroyed (R419). -/
def State.linkBoundary (s : State) : State :=
  s.each ((List.range 16).filter (fun p => !(s.port p).newKeys.isEmpty)) (fun s p =>
    let x := s.port p
    (s.each x.keys State.zeroKey).setPort p { x with keys := x.newKeys, newKeys := [], keySeq := 0, txSeq := 0, rxSeq := 0, replay := [] })

/-- What happens at turn boundary `b`, in order: losses, then everything else that waits for a boundary (R60, R115). -/
def State.boundary (s : State) (b : Nat) : State :=
  let tn := b / 2 ^ s.spn.k
  let s := if s.inAssembly && s.spn.epochSet then s.updSpn Spn.countQuiet else s
  let s := s.updSpn fun x => { x with
    heardCoord := false, heardVia := false, heardEither := false, heardMember := false, slot0Sent := false, lastBoundary := b,
    stopped := x.stopped || x.stopDue, stopDue := false }
  let due := s.spn.lossDue
  let s := (s.updSpn fun x => { x with lossDue := [] }).each due State.applyLoss
  let s := match s.spn.coordLossAt with | some p => if p ≤ b then s.takeOver else s | none => s
  let s := s.sourceBoundary
  let s := ((s.roundBoundary b).openBoundary b).createTurn b
  let s := if s.dbg.host.ending then s.endHostLost else s
  let s := s.tenantBoundary
  let s := s.steady b
  let s := s.refill true
  let s := s.takeCal
  let s := s.countTurn
  let s := s.preemptDma tn
  s.linkBoundary.pumpAll

/-- TURN_BOUNDARY: the next boundary whose position has come; boundaries that passed in a freeze run after it, in order (R60,
R91). -/
def execTurnBoundary (s : State) : Host.Outcome State Fault Refusal :=
  let b := s.spn.lastBoundary + 2 ^ s.spn.k
  if b ≤ s.pos ∧ s.frozen = false then .next (s.boundary b) else .next s

end Sys2Proof.Machine
end

