-- ==== Sys2Proof/Machine/JigChecks.lean ====
section
/-! DEFINITION. Machine/JigChecks.lean: the cross-field checks of R118, each on the values of a whole jig, in ascending order.
Where a rule fails, the check names the section TYPE and INSTANCE, and the byte offset of the first offending value in a PARTITION or
MESH_ROUTES section; the offset in any other section is a free value, since the spec does not give its layout
(notes/assumptions/44.md). -/

namespace Sys2Proof

open Machine

/-- One entry of the table of R118: its ID, the section and instance of the offending value, and whether it fails. -/
structure JigCheck where
  id : Nat
  type : Nat
  inst : Nat
  bad : Bool
  /-- byte offset of the offending value in the section value, where the spec gives the section's layout -/
  off : Option Nat := none
  deriving DecidableEq, Repr

/-- A check on a section whose layout the spec does not give. -/
def check (id type inst : Nat) (bad : Bool) : JigCheck := { id := id, type := type, inst := inst, bad := bad }
/-- A check that fails at the offset found, if one is found. -/
def checkAt (id type : Nat) (off : Option Nat) : JigCheck := { id := id, type := type, inst := 0, bad := off.isSome, off := off }

/-- A type and instance that R99 permits. -/
def sectionPermitted (t i : Nat) : Bool := decide (1 ≤ t) && decide (t ≤ 13) && (i == 0 || (t == 8 && decide (i ≤ 3)))

/-- Sections stand in strictly ascending order of TYPE and INSTANCE (R98). -/
def sectionsAscend : List JigSection → Bool
  | a :: b :: r => (decide (a.type < b.type) || (a.type == b.type && decide (a.inst < b.inst))) && sectionsAscend (b :: r)
  | _ => true

/-- The form of one section (R98). -/
def JigSection.ok (x : JigSection) (sigOffset members : Nat) (misshapen : List Nat) : Bool :=
  x.offset % 8 == 0 && x.padZero && sectionClean x members misshapen && sectionPermitted x.type x.inst &&
  decide (0x100 ≤ x.offset) && decide (x.offset + sectionSpan x.length ≤ sigOffset)

/-- Check 0x01, on the form of an image. -/
def check01 (h : JigHeader) (ss : List JigSection) (members : Nat) (misshapen : List Nat) : List JigCheck :=
  let bad := ss.find? (fun x => !x.ok h.sigOffset members misshapen)
  let missing := ((List.range 12).map (· + 1)).find? (fun t => !ss.any (fun x => x.type == t && x.inst == 0))
  [check 1 ((bad.map (·.type)).getD 0) ((bad.map (·.inst)).getD 0) bad.isSome,
   check 1 (missing.getD 0) 0 missing.isSome,
   check 1 ((ss.getLast?.map (·.type)).getD 0) 0 (h.sectionCount != ss.length || !sectionsAscend ss)]

/-- Domain of a member. -/
def JigConfig.domain (c : JigConfig) (m : Nat) : Nat := ((c.assembly.members.find? (fun x => x.index == m)).map (·.domain)).getD 0
/-- Members of a jig. -/
def JigConfig.bigE (c : JigConfig) : Nat := c.assembly.members.length
/-- The port entry of a member. -/
def JigConfig.port (c : JigConfig) (m p : Nat) : JigPort := (c.ports.getD m []).getD p {}
/-- A member's slot table; one not listed is all IDLE. -/
def JigConfig.table (c : JigConfig) (m : Nat) (k : ResClass) (i : Nat) : SlotTable :=
  Tab.look (List.replicate 64 8) (c.slots.getD m []) (slotKey k i)
/-- A member's PARTITION record. -/
def JigConfig.part (c : JigConfig) (m : Nat) : JigPartition := c.partition.getD m {}
/-- The tenant of a cell group of a member; 8 for a group with no cell. -/
def JigConfig.groupTenant (c : JigConfig) (m g : Nat) : Nat :=
  match (List.range 64).find? (fun k => (c.part m).cellGroup.getD k 0xFF == g) with
  | some k => (c.part m).cellTenant.getD k 8
  | none => 8
/-- Every member satisfies a condition. -/
def JigConfig.allMembers (c : JigConfig) (p : Nat → Bool) : Bool := (List.range c.bigE).all p

/-- Check 0x02 (R34, R35). -/
def check02 (c : JigConfig) : Bool :=
  let a := c.assembly
  let e := c.bigE
  decide (1 ≤ e) && decide (e ≤ 256) && c.allMembers (fun i => (a.members.filter (fun x => x.index == i)).length == 1) &&
  a.members.all (fun x => (a.members.filter (fun y => y.fingerprint == x.fingerprint)).length == 1) &&
  [1, 2, 4, 8].contains a.d && e % a.d == 0 &&
  a.members.all (fun x => (a.members.filter (fun y => y.domain == x.domain)).length == a.d) &&
  decide (a.coordinator < e) &&
  (if e = 1 then a.standby == 0xFFFF else decide (a.standby < e) && c.domain a.standby != c.domain a.coordinator)

/-- Check 0x04 (R51, R54, R60). -/
def check04 (c : JigConfig) : Bool :=
  let s := c.spindle
  s.roles.length == c.bigE &&
  c.allMembers (fun m => s.roles.getD m .unassigned == (if m = c.assembly.coordinator then .master else .follower)) &&
  decide (10 ≤ s.k) && decide (s.k ≤ 16) &&
  (match s.epoch with
   | .sync => true
   | .ptp => decide (s.ptpPort < 16) && (c.port c.assembly.coordinator s.ptpPort).role == 2
   | .other => false)

/-- The member at the far end of a fabric-role port, where there is one. -/
def JigConfig.farEnd (c : JigConfig) (m p : Nat) : Option Nat :=
  let x := c.port m p
  if p < 16 ∧ x.role = 1 ∧ x.peerMember < c.bigE then some x.peerMember else none

/-- Members from which every upstream port leads to a root within `n` hops. -/
def reach (c : JigConfig) (root : Nat) (up : Nat → List Nat) : Nat → List Nat
  | 0 => [root]
  | n + 1 =>
    let inner := reach c root up n
    (List.range c.bigE).filter (fun m => m == root || (!(up m).isEmpty && (up m).all (fun p =>
      match c.farEnd m p with | some x => inner.contains x | none => false)))

/-- Check 0x05 for one route set: each member but a tree's root has a primary and a secondary upstream port in it, and both trees lead
to their root in at most 16 hops (R55). -/
def check05 (c : JigConfig) (s : JigRouteSet) : Bool :=
  let up := fun m => (s.upstream.getD m {}).pri.toList ++ (s.upstream.getD m {}).sec.toList
  let sup := fun m => (s.upstream.getD m {}).standbyPri.toList ++ (s.upstream.getD m {}).standbySec.toList
  let has := fun (f : Upstream → Option Nat) root => c.allMembers (fun m => m == root || (f (s.upstream.getD m {})).isSome)
  (reach c c.assembly.coordinator up 16).length == c.bigE && has (·.pri) c.assembly.coordinator && has (·.sec) c.assembly.coordinator &&
  (decide (c.bigE < 2) || ((reach c c.assembly.standby sup 16).length == c.bigE && has (·.standbyPri) c.assembly.standby &&
    has (·.standbySec) c.assembly.standby))

/-- The member at the end of a fabric route, every link of it fabric-role on both ends. -/
def walk (c : JigConfig) : Nat → List Nat → Option Nat
  | m, [] => some m
  | m, p :: r =>
    match c.farEnd m p with
    | some x => if (c.port x (c.port m p).peerPort).role = 1 then walk c x r else none
    | none => none

/-- A link that a route of the set uses leads from `a` to `b`. -/
def JigRouteSet.joins (s : JigRouteSet) (c : JigConfig) (a b : Nat) : Bool :=
  s.routes.any (fun r => r.ports.zipIdx.any (fun (p, i) => walk c r.src (r.ports.take i) == some a && c.farEnd a p == some b))

/-- Check 0x03 for one shard map, over the links of its route set (R36, R37). -/
def check03 (c : JigConfig) (s : JigRouteSet) : Bool :=
  let r := c.assembly.r
  (r == 1 || r == 2) && c.bigE % r == 0 && s.shards.length == c.bigE / r && s.shards.all (fun l => l.length == r) &&
  s.shards.flatten.dedup.length == c.bigE && s.shards.flatten.all (fun m => decide (m < c.bigE)) &&
  (r == 1 || ([2, 4, 8].contains c.assembly.d && s.shards.all (fun l =>
    let x := l.getD 0 0
    let y := l.getD 1 0
    c.domain x == c.domain y && s.joins c x y && s.joins c y x)))

/-- Check 0x06 for one route set (R44). -/
def check06 (c : JigConfig) (s : JigRouteSet) : Bool :=
  s.routes.all (fun r => decide (r.src < c.bigE) && decide (1 ≤ r.ports.length) && decide (r.ports.length ≤ 16) &&
    walk c r.src r.ports == some r.dst) &&
  c.allMembers (fun a => c.allMembers (fun b => a == b || s.routes.any (fun r => r.src == a && r.dst == b)))

/-- The first member and index below `n` at which a condition fails, as an offset in a section of records of `size` bytes. -/
def JigConfig.firstAt (c : JigConfig) (size n base step : Nat) (ok : Nat → Nat → Bool) : Option Nat :=
  (List.range c.bigE).findSome? (fun m =>
    ((List.range n).find? (fun i => !ok m i)).map (fun i => size * m + base + step * i))

/-- Check 0x07, as far as one image says: the offset of the first cell whose tenant is neither 0 to 7 nor none (R125). -/
def check07 (c : JigConfig) : Option Nat :=
  c.firstAt partitionBytes 64 0 1 (fun m k => decide ((c.part m).cellTenant.getD k 8 ≤ 8))

/-- Check 0x08 (R124, R125): the offset of the first cell whose group does not exist or is not its tenant's. -/
def check08 (c : JigConfig) : Option Nat :=
  c.firstAt partitionBytes 64 64 1 (fun m k =>
    let g := (c.part m).cellGroup.getD k 0xFF
    g == 0xFF || (decide (g < 64) && decide ((c.part m).cellTenant.getD k 8 < 8) &&
      (c.part m).cellTenant.getD k 8 == c.groupTenant m g))

/-- Class and instances by class number (R62). -/
def classCount (i : Nat) : Nat := match i with | 0 => 64 | 1 => 256 | 2 => 32 | 3 => 32 | 4 => 8 | 5 => 1 | 6 => 16 | 7 => 8 | 8 => 12 | _ => 0

/-- A slot-table entry's coding and class limits (R63); the class by its number. -/
def entryOk (cls e : Nat) : Bool :=
  let o := e % 16
  decide (e < 32) && decide (o ≤ 10) && (decide (e < 16) || cls == 6) &&
  (if 7 ≤ cls then o == 9 || o == 8 else o != 9) && (o != 10 || cls == 2 || cls == 6)

/-- Check 0x09 (R63). -/
def check09 (c : JigConfig) : Bool :=
  c.slots.all (fun tabs => tabs.all (fun (kt : Nat × SlotTable) =>
    decide (kt.1 % 256 < classCount (kt.1 / 256)) && kt.2.length == 64 && kt.2.all (entryOk (kt.1 / 256))))

/-- Check 0x0A (R62, R124). -/
def check0A (c : JigConfig) : Bool :=
  c.allMembers (fun m => (List.range 64).all (fun g =>
    (c.table m .cellGroup g).all (fun e => e % 16 == 8 || e % 16 == c.groupTenant m g)))

/-- Check 0x0B on PARTITION (R125): the offset of the first DMA engine that feeds a group without cells. -/
def check0BPart (c : JigConfig) : Option Nat :=
  c.firstAt partitionBytes 32 128 1 (fun m d =>
    let g := (c.part m).dmaGroup.getD d 0xFF
    g == 0xFF || (decide (g < 64) && decide (c.groupTenant m g < 8)))

/-- Check 0x0B on SLOTS (R125). -/
def check0B (c : JigConfig) : Bool :=
  c.allMembers (fun m => (List.range 32).all (fun d =>
    let g := (c.part m).dmaGroup.getD d 0xFF
    (c.table m .dma d).all (fun e => e % 16 == 8 || e % 16 == 10 ||
      (decide (e % 16 < 8) && g != 0xFF && e % 16 == c.groupTenant m g))))

/-- The cells that a mesh path passes, or none where it leaves the mesh (R151): moves N, E, S, W on the 8 × 8 mesh. -/
def meshCells (path : Nat) : Nat → Nat → Option (List Nat)
  | 0, c => some [c]
  | h + 1, c =>
    let next := match path % 4 with
      | 0 => if c < 8 then none else some (c - 8)
      | 1 => if c % 8 = 7 then none else some (c + 1)
      | 2 => if 56 ≤ c then none else some (c + 8)
      | _ => if c % 8 = 0 then none else some (c - 1)
    match next with
    | none => none
    | some d => (meshCells (path / 4) h d).map (fun l => c :: l)

/-- The directed links of a mesh route: cell and direction. -/
def JigRoute.links (r : JigRoute) : List (Nat × Nat) :=
  match meshCells r.path r.hops r.src with
  | some l => (l.take r.hops).zipIdx.map (fun (c, i) => (c, r.path / 4 ^ i % 4))
  | none => []

/-- A mesh route is well formed (R151). -/
def JigRoute.ok (r : JigRoute) : Bool :=
  decide (r.src < 64) && decide (r.dst < 64) && r.src != r.dst && decide (1 ≤ r.hops) && decide (r.hops ≤ 16) &&
  decide (r.path < 4 ^ r.hops) && (meshCells r.path r.hops r.src).bind List.getLast? == some r.dst &&
  r.links.dedup.length == r.links.length

/-- Check 0x0C on MESH_ROUTES (R151): the offset of the first faulty entry. -/
def check0CRoutes (c : JigConfig) : Option Nat :=
  c.firstAt meshBytes 256 8 8 (fun m i => match (c.routes.getD m [])[i]? with | some r => r.ok | none => true)

/-- Check 0x0C on SLOTS (R150, R151). -/
def check0C (c : JigConfig) : Bool :=
  c.allMembers (fun m =>
    let rs := c.routes.getD m []
    let active := fun i n => decide ((c.table m .meshRoute i).getD n 8 % 16 < 8)
    (List.range 256).all (fun i => (c.table m .meshRoute i).all (fun e => decide (8 ≤ e % 16) ||
      (match rs[i]? with
       | some r => (c.part m).cellTenant.getD r.src 8 == e % 16 && (c.part m).cellTenant.getD r.dst 8 == e % 16
       | none => false))) &&
    (List.range 64).all (fun n =>
      let ls := (rs.zipIdx.filter (fun x => active x.2 n)).flatMap (fun x => x.1.links)
      ls.dedup.length == ls.length))

/-- Check 0x0D (R62). -/
def check0D (c : JigConfig) : Bool :=
  c.allMembers (fun m =>
    let owns := fun t => (List.range 64).any (fun g => c.groupTenant m g == t)
    let ok := fun (k : ResClass) i => (c.table m k i).all (fun e => decide (8 ≤ e % 16) || owns (e % 16))
    (List.range 32).all (ok .maskExpander) && (List.range 8).all (ok .ingest) && ok .ring 0)

/-- Check 0x0E (R63, R67). -/
def check0E (c : JigConfig) : Bool :=
  c.allMembers (fun m => (List.range 16).all (fun p =>
    let role := (c.port m p).role
    let t := c.table m .port p
    (role != 1 || t.getD 0 8 == 10) &&
    (role != 2 || t.all (fun e => e % 16 == 8 || (decide (e % 16 < 8) && decide (16 ≤ e)))) &&
    (role == 1 || t.all (fun e => e % 16 != 10))))

/-- The starts of a refresh table's windows within one turn, and whether every run is long enough (R68). -/
def windowStarts (t : SlotTable) (k : Nat) : Bool × List Nat :=
  let slot := 2 ^ (k - 6)
  let heads := (List.range 64).filter (fun n => t.getD n 8 % 16 == 9 && (n == 0 || t.getD (n - 1) 8 % 16 != 9))
  let runs := heads.map (fun n => (n * slot, runLength t 64 n * slot))
  (runs.all (fun r => decide (64 ≤ r.2)),
   runs.flatMap (fun r => if 15 ≤ k then (List.range ((r.2 - 64) / 512 + 1)).map (fun i => r.1 + 512 * i) else [r.1]))

/-- Consecutive starts lie at most 768 ticks apart. -/
def spaced : List Nat → Bool
  | a :: b :: r => decide (b ≤ a + 768) && spaced (b :: r)
  | _ => true

/-- Check 0x0F for one table (R68). -/
def check0F (t : SlotTable) (k : Nat) : Bool :=
  let (long, ws) := windowStarts t k
  match ws with
  | [] => false
  | w :: _ => long && spaced (ws ++ [w + 2 ^ k])

/-- Check 0x10 (R69, R424). -/
def check10 (c : JigConfig) : Bool :=
  c.dmaBudget.all (fun b => (b.2 == 0 || decide (4096 ≤ b.2)) && decide (b.2 < 2 ^ 40)) &&
  c.linkBudget.all (fun b => decide (b.2 < 2 ^ 40) && (b.2 == 0 || c.allMembers (fun m =>
    match (c.port m (b.1 % 16)).role with | 1 => decide (4200 ≤ b.2) | 2 => decide (4230 ≤ b.2) | _ => true)))

/-- Check 0x12 (R300). -/
def check12 (c : JigConfig) : Bool :=
  (List.range 8).all (fun t =>
    let p := c.policy.getD t {}
    decide (16 ≤ p.cohortMin) && decide (p.cohortMin ≤ 65536) && decide (p.cohortMin ≤ p.roundMin) &&
    decide (p.roundMin ≤ 16777216) && decide (p.noiseFloor ≤ 4096 * 65536))

/-- Check 0x13 on SCRUB. -/
def check13Scrub (c : JigConfig) : Bool := decide (c.scrub ≤ 1)
/-- Check 0x13 on POWER. -/
def check13 (c : JigConfig) : Bool := c.power.all (fun p => decide (p.2 ≤ 7))

end Sys2Proof

namespace Sys2Proof.Machine

/-- Check 0x11 (R378, R388). -/
def State.check11 (s : State) (c : JigConfig) : Bool :=
  [0, 1].all (fun i => decide (((List.range 8).map (fun t => Tab.look 0 c.quotas (3 * t + i) / 65536)).sum ≤
    s.availableMib (i + 1) * 16))

/-- A barrier's start slot is owned by its tenant on every resource of every named member (R85, and check 0x14). -/
def barrierSlots (c : JigConfig) (k : Nat) (b : Barrier) : Bool :=
  let n := (b.pos + 2) / 2 ^ (k - 6) % 64
  b.members.all (fun m =>
    (if b.kind = 0 then c.table m .cellGroup b.group else c.table m .dma b.engine).getD n 8 % 16 == b.tenant)

/-- Ports of this member that a route set uses: the hops of its routes and its upstream ports. -/
def State.portsUsed (s : State) (c : JigConfig) (r : JigRouteSet) : List Nat :=
  let u := r.upstream.getD s.jig.me {}
  let hops := r.routes.flatMap (fun x =>
    (x.ports.zipIdx.filter (fun (_, i) => walk c x.src (x.ports.take i) == some s.jig.me)).map (fun (p, _) => p))
  u.pri.toList ++ u.sec.toList ++ u.standbyPri.toList ++ u.standbySec.toList ++ hops

/-- Checks 0x02 to 0x13, on the values of a jig. -/
def State.valueChecks (s : State) (c : JigConfig) : List JigCheck :=
  let sets := fun (id : Nat) (f : JigRouteSet → Bool) => c.routeSets.map (fun (i, r) => check id 8 i (!f r))
  let refresh := c.allMembers (fun m => (List.range 8).all (fun i => check0F (c.table m .hbmRefresh i) c.spindle.k) &&
    (List.range 12).all (fun i => check0F (c.table m .ddrRefresh i) c.spindle.k))
  [check 2 1 0 (!check02 c)] ++ sets 3 (check03 c) ++ [check 4 2 0 (!check04 c)] ++ sets 5 (check05 c) ++ sets 6 (check06 c) ++
  [checkAt 7 3 (check07 c), checkAt 8 3 (check08 c), check 9 4 0 (!check09 c), check 0xA 4 0 (!check0A c),
   checkAt 0xB 3 (check0BPart c), check 0xB 4 0 (!check0B c), checkAt 0xC 6 (check0CRoutes c), check 0xC 4 0 (!check0C c),
   check 0xD 4 0 (!check0D c), check 0xE 4 0 (!check0E c), check 0xF 4 0 (!refresh), check 0x10 5 0 (!check10 c),
   check 0x11 9 0 (!s.check11 c), check 0x12 12 0 (!check12 c), check 0x13 10 0 (!check13Scrub c), check 0x13 11 0 (!check13 c)]

/-- At a commit the cell set of every tenant that is not ABSENT is unchanged (check 0x07; R464): the offset of the first cell of this
member for which it is not. -/
def State.cellsMoved (s : State) (c : JigConfig) : Option Nat :=
  ((List.range 64).find? (fun k =>
    let a := s.cellTenant k
    let b := (c.part s.jig.me).cellTenant.getD k 8
    a != b && [a, b].any (fun t => decide (t < 8) && (s.tenant t).state != .absent))).map (fun k => partitionBytes * s.jig.me + k)

/-- A member has been declared lost and has not aligned again to be readmitted (R45; DEDUCED for check 0x15, which could otherwise admit
no commit that readmits a member: notes/assumptions/44.md). -/
def State.stillLost (s : State) (m : Nat) : Bool := s.spn.lost.contains m && !s.spn.realigned.contains m

/-- Check 0x01 on the shadow: an edit has left a section whose LENGTH or reserved bytes are wrong (R98, R118). -/
def State.shadowCheck (s : State) : JigCheck :=
  match s.jig.shadowBad with
  | k :: _ => check 1 (k / 4) (k % 4) true
  | [] => check 1 0 0 false

/-- The checks of a commit: the shadow's values with the engine's state (R118). -/
def State.commitChecks (s : State) : List JigCheck :=
  let c := s.jig.shadow
  let v := s.valueChecks c
  let low := v.filter (fun x => decide (x.id ≤ 7))
  let high := v.filter (fun x => decide (7 < x.id))
  let set := match c.routeSets.find? (fun p => p.1 == s.jig.activeShadow) with | some p => some p.2 | none => none
  let route := match set with
    | some r => (s.portsUsed c r).all (fun p => (s.port p).state != 2) && !r.shards.flatten.any s.stillLost
    | none => false
  s.shadowCheck :: low ++ [checkAt 7 3 (s.cellsMoved c)] ++ high ++
    [check 0x14 4 0 (!s.spn.barriers.all (barrierSlots c s.spn.k)), check 0x15 8 s.jig.activeShadow (!route)]

/-- The checks of a load: the image's form and values. -/
def State.loadChecks (s : State) (h : JigHeader) (ss : List JigSection) (c : JigConfig) (misshapen : List Nat) : List JigCheck :=
  check01 h ss c.bigE misshapen ++ s.valueChecks c

/-- The first failing check. -/
def firstCheck (l : List JigCheck) : Option JigCheck := l.find? (·.bad)

end Sys2Proof.Machine
end

