-- ==== Sys2Proof/Machine/RingData.lean ====
section
/-! DEFINITION. Machine/RingData.lean: residues of polynomials and what the operations of R338 and R359 compute on them (R313
to R327, R352, R360). What the spec gives as mathematics without fixing a rounding (key switching, rescaling, the modulus
raise, LWE switching, blind rotation) is a free value of the operands (notes/assumptions/17.md). -/

namespace Sys2Proof.Machine

/-- A ciphertext or plaintext: by component, limb and position (R314). -/
abbrev Poly := List (List (List Nat))

/-- Extended Euclid: `a` and `b` with the coefficients of the starting value. -/
def egcdLoop : Nat → Int → Int → Int → Int → Int
  | 0, _, _, x, _ => x
  | fuel + 1, a, b, x, y => if b = 0 then x else egcdLoop fuel b (a % b) y (x - a / b * y)

/-- The inverse of `a` modulo `m`, where they are coprime. -/
def invMod (a m : Nat) : Nat := (egcdLoop 64 (a % m : Nat) m 1 0 % m).toNat

/-- `b ^ e` modulo `p`, by squaring; `fuel` bounds the bits of `e`. -/
def powModN (p : Nat) : Nat → Nat → Nat → Nat
  | 0, _, _ => 1 % p
  | fuel + 1, b, e =>
    if e = 0 then 1 % p
    else (if e % 2 = 1 then b * powModN p fuel (b * b % p) (e / 2) else powModN p fuel (b * b % p) (e / 2)) % p

/-- Ring dimension N of a parameter set (R307). -/
def ParamSet.n (p : ParamSet) : Nat := 2 ^ p.logN
/-- The prime of ciphertext limb `i`. -/
def ParamSet.q (p : ParamSet) (i : Nat) : Nat := p.primes.getD i 3
/-- ψ of ciphertext limb `i`. -/
def ParamSet.psi (p : ParamSet) (i : Nat) : Nat := p.roots.getD i 1
/-- Digit size α = ⌈LIMBS / DNUM⌉ (R309, R327). -/
def ParamSet.alpha (p : ParamSet) : Nat := ceilDiv p.limbs p.dnum
/-- Chunks of one limb polynomial (R328). -/
def ParamSet.h (p : ParamSet) : Nat := max 1 (4 * p.n / 65536)
/-- Chunks that a key switch at level `l` streams (R328). -/
def ParamSet.switchChunks (p : ParamSet) (l : Nat) : Nat := ceilDiv (l + 1) p.alpha * 2 * (l + 1 + p.special) * p.h

/-- The residue of component `c`, limb `i`, position `j`. -/
def Poly.at (x : Poly) (c i j : Nat) : Nat := ((x.getD c []).getD i []).getD j 0
/-- A polynomial from its residues. -/
def Poly.make (comps limbs n : Nat) (f : Nat → Nat → Nat → Nat) : Poly :=
  (List.range comps).map (fun c => (List.range limbs).map (fun i => (List.range n).map (f c i)))
/-- All residues in order. -/
def Poly.flat (x : Poly) : List Nat := x.flatten.flatten
/-- Components of the data. -/
def Poly.comps (x : Poly) : Nat := x.length

/-- Read a descriptor's data (R314). -/
def State.readPoly (s : State) (t : Nat) (d : RingDesc) : Poly :=
  Poly.make d.comps (d.level + 1) (s.params d.psid).n (fun c i j =>
    leNat (s.readVA t (d.base + c * d.compStride + i * d.limbStride + 4 * j) 4 []))

/-- Write a descriptor's data (R314, R340). -/
def State.writePoly (s : State) (t : Nat) (d : RingDesc) (x : Poly) : State :=
  s.each x.zipIdx (fun s y => s.each y.1.zipIdx (fun s z =>
    s.writeVA t (d.base + y.2 * d.compStride + z.2 * d.limbStride) (z.1.flatMap (leBytes 4)) (z.1.length + 1)))

/-- e_j of R315: the odd exponent of ψ at evaluation position `j`. -/
def evalExp (logN j : Nat) : Nat :=
  let m := 2 * 2 ^ logN
  let h := 2 ^ logN / 2
  if j < h then powModN m 64 5 j else (m - powModN m 64 5 (j - h)) % m

/-- NTT of one limb: position j holds the value at ψ^(e_j) (R315, R317). -/
def nttLimb (p : ParamSet) (i : Nat) (a : List Nat) : List Nat :=
  (List.range p.n).map (fun j =>
    let w := powModN (p.q i) 64 (p.psi i) (evalExp p.logN j)
    a.foldr (fun v acc => (v + acc * w) % p.q i) 0)

/-- INTT of one limb: the coefficients whose values stand in evaluation order (R315, R318). -/
def inttLimb (p : ParamSet) (i : Nat) (a : List Nat) : List Nat :=
  let q := p.q i
  (List.range p.n).map (fun x =>
    a.zipIdx.foldl (fun acc v =>
      (acc + v.1 * powModN q 64 (invMod (p.psi i) q) (evalExp p.logN v.2 * x % (2 * p.n))) % q) 0 * invMod p.n q % q)

/-- Apply a function to every limb. -/
def Poly.limbs (x : Poly) (f : Nat → List Nat → List Nat) : Poly := x.map (fun c => c.zipIdx.map (fun l => f l.2 l.1))

/-- The input position that an automorphism's output position `j` is read from (R324). -/
def autoPos (logN r : Nat) (conj : Bool) (j : Nat) : Nat :=
  let h := 2 ^ logN / 2
  let j := if conj then (if j < h then j + h else j - h) else j
  if j < h then (j + r) % h else h + (j - h + r) % h

/-- Add two polynomials, or subtract; a second operand without a component adds nothing to it (R338). -/
def Poly.addSub (p : ParamSet) (sub : Bool) (a b : Poly) : Poly :=
  a.zipIdx.map (fun c => c.1.zipIdx.map (fun l => l.1.zipIdx.map (fun v =>
    let w := b.at c.2 l.2 v.2
    (v.1 + (if sub then p.q l.2 - w else w)) % p.q l.2)))

/-- The product of two residues in Montgomery form (R136, R313). -/
def ringMont (q a b : Nat) : Nat := montMul a b q (qinvOf q)

/-- Multiply every component by one polynomial in Montgomery form. -/
def Poly.mulBy (p : ParamSet) (a : Poly) (b : List (List Nat)) : Poly :=
  a.map (fun c => c.zipIdx.map (fun l => l.1.zipIdx.map (fun v => ringMont (p.q l.2) v.1 ((b.getD l.2 []).getD v.2 0))))

/-- Key switching of one component: its two parts, as a free value of the component, the level and the key's bytes (R327). -/
def keySwitch (p : ParamSet) (x : List (List Nat)) (key : List Nat) : Poly :=
  Poly.make 2 x.length p.n (fun c i j => Config.ringData "KEY_SWITCH" (x.flatten ++ key) ((c * 64 + i) * 2 ^ 17 + j) % p.q i)

/-- The bytes of an evaluation key (R326, R328, R358). -/
def State.evkData (s : State) (t : Nat) (k : Evk) : List Nat := (s.readVA t k.base (65536 * k.chunks) []).map (·.toNat)

/-- A value that a rule leaves to the mathematics: residues modulo the limbs' primes. -/
def freePoly (name : String) (p : ParamSet) (comps limbs : Nat) (args : List Nat) : Poly :=
  Poly.make comps limbs p.n (fun c i j => Config.ringData name args ((c * 64 + i) * 2 ^ 17 + j) % p.q i)

/-- The data that an operation of R338, or MODRAISE (R352), computes from its operands' data. `ev` says that A stands in the
evaluation domain. -/
def ringCompute (p : ParamSet) (e : RingEntry) (a b : Poly) (key : List Nat) : Poly :=
  match e.op with
  | 0x01 => a.addSub p false b
  | 0x02 => a.addSub p true b
  | 0x03 => a.addSub p false b
  | 0x04 => a.mulBy p (b.getD 0 [])
  | 0x05 =>
    let c := toSigned 64 e.imm
    a.limbs (fun i l => l.map (fun v => v * (c % p.q i).toNat % p.q i))
  | 0x06 =>
    let a0 := a.getD 0 []
    let a1 := a.getD 1 []
    let ks := keySwitch p ((Poly.mulBy p [a1] (b.getD 1 [])).getD 0 []) key
    let d0 := Poly.mulBy p [a0] (b.getD 0 [])
    let d1 := Poly.addSub p false (Poly.mulBy p [a0] (b.getD 1 [])) (Poly.mulBy p [a1] (b.getD 0 []))
    Poly.addSub p false (d0 ++ d1) ks
  | 0x07 => freePoly "RESCALE" p a.length ((a.getD 0 []).length - 1) (p.plainT :: a.flat)
  | 0x08 =>
    let rot := a.limbs (fun _ l => (List.range p.n).map (fun j => l.getD (autoPos p.logN (bits e.arg 0 16) (bitAt e.arg 16) j) 0))
    Poly.addSub p false ([rot.getD 0 []] ++ [(rot.getD 0 []).map (fun l => l.map (fun _ => 0))]) (keySwitch p (rot.getD 1 []) key)
  | 0x09 => a.map (fun c => c.take (e.arg + 1))
  | 0x0A => a.limbs (nttLimb p)
  | 0x0B => a.limbs (inttLimb p)
  | 0x0C => a.limbs (fun i l => l.map (fun v => v * 2 ^ 32 % p.q i))
  | 0x3F => freePoly "MODRAISE" p 2 p.limbs a.flat
  | _ => a

/-- EXTRACT of position `i` from a level-0 ciphertext: a_0 to a_(N-1), then b, in plain form (R360). -/
def extractAt (p : ParamSet) (plain : Bool) (a : Poly) (i : Nat) : List Nat :=
  let q := p.q 0
  let pl := fun v => if plain then v else v * invMod (2 ^ 32) q % q
  ((List.range p.n).map (fun j =>
    if j ≤ i then pl (a.at 1 0 (i - j)) else (q - pl (a.at 1 0 (p.n + i - j))) % q)) ++ [pl (a.at 0 0 i)]

/-- Read the LWE ciphertexts of a TYPE 2 descriptor (R357). -/
def State.readLwe (s : State) (t : Nat) (d : RingDesc) : List (List Nat) :=
  (List.range d.cap).map (fun i => (List.range (d.dim + 1)).map (fun j => leNat (s.readVA t (d.base + i * d.limbStride + 4 * j) 4 [])))

/-- Write LWE ciphertexts to a TYPE 2 descriptor (R357). -/
def State.writeLwe (s : State) (t : Nat) (d : RingDesc) (l : List (List Nat)) : State :=
  s.each l.zipIdx (fun s x => s.writeVA t (d.base + x.2 * d.limbStride) (x.1.flatMap (leBytes 4)) (x.1.length + 1))

/-- Read a ciphertext of client or total data held as elements of an encrypted round: ciphertext `m` (R345, R348). -/
def roundCiphertext (p : ParamSet) (level stride m : Nat) (elem : Nat → Nat) : Poly :=
  Poly.make 2 (level + 1) p.n (fun c i n => elem (i * stride + (2 * m + c) * p.n + n))

/-- A cell after the sequencer has worked on it: SRAM, accumulators and vector registers hold free values, and modulus entries may
hold primes of the set (R311, R321, R340). -/
def Cell.leftBy (x : Cell) (p : ParamSet) (v c : Nat) : Cell :=
  let free := fun (n i : Nat) => Config.ringData "left in a cell" [v, c, n] i
  { x with
    sram := (List.range (2 ^ 22)).foldl (fun m i => Tab.put 0 m i (BitVec.ofNat 8 (free 0 i))) x.sram
    vregs := (List.range 2048).foldl (fun m i => Tab.put 0 m i (BitVec.ofNat 64 (free 1 i))) x.vregs
    acc := (List.range (16 * 1024)).foldl (fun m i => Tab.put 0 m i (BitVec.ofNat 64 (free 2 i))) x.acc
    modulus := (List.range 16).foldl (fun m i =>
      if free 3 i % 2 = 0 then m
      else
        let q := p.q (free 4 i % p.limbs)
        Tab.put {} m i { q := q, valid := true, busy := false, qinv := qinvOf q, rsq := rsqOf q }) x.modulus }

/-- What a running entry leaves in the ring group's cells and in the scratch area, where it works (R340): free values
(notes/assumptions/17.md). -/
def State.ringLeaves (s : State) (t : Nat) (p : ParamSet) (scratch len : Nat) : State :=
  let (v, s) := s.draw
  let s := s.each (s.groupCells p.group) (fun s c => s.updCell c fun x => x.leftBy p v c)
  s.each (pagesOf scratch len) (fun s a =>
    s.writeSpan t a ((List.range 65536).map (fun i => BitVec.ofNat 8 (Config.ringData "left in scratch" [v] (a + i)))))

end Sys2Proof.Machine
end

