-- ==== Sys2Proof/Machine/RingChecks.lean ====
section
/-! DEFINITION. Machine/RingChecks.lean: what an operation leaves in its destination's descriptor, and the checks of R339 and R351 to
R353 that an entry meets before any data moves. -/

namespace Sys2Proof.Machine

/-- LQ(ℓ) in 8.8 units: floor(256 × log2 q_ℓ) (R338). -/
def ParamSet.lq (p : ParamSet) (l : Nat) : Nat := log2Floor (p.q l ^ 256)

/-- ⌈log2 |c|⌉ in 8.8 units, rounded up to 1/256; 0 where |c| ≤ 1 (R338). -/
def log2Up (c : Int) : Nat := if c.natAbs ≤ 1 then 0 else log2Ceil (c.natAbs ^ 256)

/-- A SCALE of the approximate encoding as R334 codes it; past the field's range the spec gives none. -/
def scaleCode (x : Int) : Nat :=
  if -32768 ≤ x ∧ x ≤ 32767 then ofSigned 32 x else Config.unstated "SCALE out of range" [ofSigned 64 x]

/-- NOISE of a sum of R338: it saturates at 0xFFFF. -/
def satNoise (n : Nat) : Nat := min n 0xFFFF

/-- The operation names an evaluation key. -/
def usesEvk (op : Nat) : Bool := [0x06, 0x08].contains op

/-- NOISE of the result (R338). -/
def resultNoise (p : ParamSet) (e : RingEntry) (a b : RingDesc) (raised : Nat) : Nat :=
  satNoise (match e.op with
    | 0x01 => max a.noise b.noise + 0x100
    | 0x02 => max a.noise b.noise + 0x100
    | 0x03 => max a.noise b.noise + 0x100
    | 0x04 => a.noise + b.noise + 256 * p.logN
    | 0x05 => a.noise + log2Up (toSigned 64 e.imm)
    | 0x06 => max (a.noise + b.noise + p.cMul) p.cKs + 0x100
    | 0x07 => max (a.noise - p.lq a.level) p.cRs + 0x100
    | 0x08 => max a.noise p.cKs + 0x100
    | 0x3F => raised
    | _ => a.noise)

/-- SCALE of the result (R338). -/
def resultScale (p : ParamSet) (e : RingEntry) (a b : RingDesc) : Nat :=
  if p.exact then
    match e.op with
    | 0x06 => a.scale * b.scale % p.plainT
    | 0x07 => if Nat.gcd (p.q a.level) p.plainT = 1 then a.scale * invMod (p.q a.level) p.plainT % p.plainT
              else Config.unstated "factor without an inverse" [p.q a.level, p.plainT]
    | _ => a.scale
  else
    match e.op with
    | 0x04 => scaleCode (toSigned 32 a.scale + toSigned 32 b.scale)
    | 0x06 => scaleCode (toSigned 32 a.scale + toSigned 32 b.scale)
    | 0x07 => scaleCode (toSigned 32 a.scale - p.lq a.level)
    | _ => a.scale

/-- The properties of the result (R316, R338, R352). -/
def resultDesc (p : ParamSet) (e : RingEntry) (a b : RingDesc) (raised : Nat) : RingDesc :=
  { a with
    level := (match e.op with | 0x07 => a.level - 1 | 0x09 => e.arg | 0x3F => p.limbs - 1 | _ => a.level)
    noise := resultNoise p e a b raised
    scale := resultScale p e a b
    eval := (match e.op with | 0x0A => true | 0x0B => false | 0x3F => true | _ => a.eval)
    plain := (match e.op with | 0x0C => false | 0x3F => false | _ => a.plain) }

/-- The reserved and unused fields of an entry are as R337 says: 0, and 0xFFFF for B and EVK. -/
def RingEntry.unusedOk (e : RingEntry) (b evk arg imm : Bool) : Bool :=
  e.rsvd1 == 0 && e.rsvd2 == 0 && e.rsvd3 == 0 && (b || e.b == 0xFFFF) && (evk || e.evk == 0xFFFF) && (arg || e.arg == 0) &&
  (imm || e.imm == 0)

/-- Check 2 of R339: types, domains and forms, and that the operands and the key match. -/
def opFormOk (p : ParamSet) (e : RingEntry) (a b : RingDesc) (k : Evk) : Bool :=
  let ct := a.type == 0
  let any := decide (a.type ≤ 1)
  let mont := !a.plain && !b.plain
  let same := a.psid == b.psid && a.level == b.level
  let alike := same && a.keyset == b.keyset && a.scale == b.scale
  e.unusedOk (usesB e.op) (usesEvk e.op) (e.op == 0x08 || e.op == 0x09) (e.op == 0x05) && p.valid && !p.detached &&
  (match e.op with
   | 0x01 => ct && b.type == 0 && mont && a.eval == b.eval && alike
   | 0x02 => ct && b.type == 0 && mont && a.eval == b.eval && alike
   | 0x03 => ct && b.type == 1 && mont && a.eval == b.eval && same
   | 0x04 => ct && b.type == 1 && mont && a.eval && b.eval && same
   | 0x05 => ct && !a.plain
   | 0x06 => ct && b.type == 0 && mont && a.eval && b.eval && alike && k.kind == 0 && k.psid == a.psid
   | 0x07 => ct && !a.plain
   | 0x08 => ct && !a.plain && a.eval && k.kind == 1 && k.psid == a.psid && k.rot == bits e.arg 0 16 && k.conj == bitAt e.arg 16 &&
       decide (e.arg < 2 ^ 17)
   | 0x09 => any && !a.plain && (a.level == 0 || decide (e.arg < a.level))
   | 0x0A => any && !a.plain && !a.eval
   | 0x0B => any && !a.plain && a.eval
   | 0x0C => any && a.plain
   | 0x0D => any && !a.plain
   | 0x3F => ct && !a.plain && !p.exact
   | _ => false)

/-- Checks 2 to 6 of R339 in order; `d` is the destination of a running entry, none in a plan (R353). -/
def opChecks (p : ParamSet) (e : RingEntry) (a b : RingDesc) (k : Evk) (d : Option RingDesc) (raised : Nat) : List (Bool × Status) :=
  let r := resultDesc p e a b raised
  [(!opFormOk p e a b k || (match d with | some d => d.psid != a.psid | none => false), .ctParams),
   ((e.op == 0x07 || e.op == 0x09) && a.level == 0, .ctLevelExhausted),
   (a.type == 0 && decide (p.thresh.getD r.level 0 < r.noise), .ctNoiseExhausted),
   (match d with | some d => decide (d.cap < r.level + 1) | none => false, .bounds),
   (usesEvk e.op && k.fingerprint != a.fingerprint, .evkMismatch)]

/-- The checks of R339 for an entry of tenant `t` with an operation of R338. -/
def State.entryChecks (s : State) (t : Nat) (e : RingEntry) : List (Bool × Status) :=
  let a := s.desc e.a
  let d := s.desc e.dst
  (!s.ownsDesc t e.dst || !s.ownsDesc t e.a || (usesB e.op && !s.ownsDesc t e.b) || (usesEvk e.op && !s.ownsEvk t e.evk) ||
    d.type != a.type, .bounds) ::
  opChecks (s.params a.psid) e a (if usesB e.op then s.desc e.b else {}) (if usesEvk e.op then s.evk e.evk else {}) (some d) 0

/-- Evaluation-key chunks that an entry of R338 streams (R328). -/
def entryChunks (p : ParamSet) (e : RingEntry) (level : Nat) : Nat := if usesEvk e.op then p.switchChunks level else 0

/-! ### Plans (R350 to R353) -/

/-- The fingerprint of a parameter set and a key-set identifier (R312). -/
def ParamSet.fingerprint (p : ParamSet) (keyset : Nat) : Nat := Config.digest "fingerprint" (p.record, keyset) % 2 ^ 64

/-- A plan temporary; a plan input; the plan's output (R351). -/
def isTemp (n : Nat) : Bool := decide (0xF000 ≤ n) && decide (n ≤ 0xF00F)
/-- A plan input. -/
def isInput (n : Nat) : Bool := decide (0xFE00 ≤ n) && decide (n ≤ 0xFE0F)
/-- The plan's output. -/
def planOut : Nat := 0xFF00

/-- The operand numbers that an entry reads. -/
def RingEntry.reads (e : RingEntry) : List Nat := if usesB e.op then [e.a, e.b] else [e.a]

/-- Entry `i` keeps to R351: `before` are the entries ahead of it. -/
def State.planEntryOk (s : State) (t : Nat) (p : Plan) (before : List RingEntry) (e : RingEntry) : Bool :=
  let i := before.length
  let last := i + 1 == p.entries.length
  (if !p.check && i == 0 then e.op == 0x3F && e.a == 0xFE00 && isTemp e.dst else decide (1 ≤ e.op) && decide (e.op ≤ 0x0D)) &&
  (if last then e.dst == planOut else isTemp e.dst) &&
  e.reads.all (fun n =>
    if isTemp n then before.any (fun x => x.dst == n)
    else if isInput n then decide (n - 0xFE00 < p.inputs)
    else n != planOut && (!s.ownsDesc t n || (s.desc n).type == 1))

/-- The first entry of a plan that breaks R351. -/
def State.planForm (s : State) (t : Nat) (p : Plan) : List RingEntry → List RingEntry → Option Nat
  | _, [] => none
  | before, e :: r => if s.planEntryOk t p before e then s.planForm t p (before ++ [e]) r else some before.length

/-- The properties of plan input `i` (R348, R353, R355): a CHECK plan's inputs are a total's ciphertexts, in plain form and in the
coefficient domain; a REFRESH plan's is in working form. -/
def State.planInput (s : State) (p : Plan) : RingDesc :=
  { valid := true, owner := p.owner, psid := p.psid, type := 0, level := p.inLevel, eval := !p.check, plain := p.check,
    noise := p.inNoiseMax, scale := p.inScale, keyset := p.keyset, fingerprint := (s.params p.psid).fingerprint p.keyset,
    cap := (s.params p.psid).limbs }

/-- The properties of operand `n` of a plan: a temporary's or an input's, or a registered constant's. -/
def State.planLook (s : State) (t : Nat) (env : List (Nat × RingDesc)) (n : Nat) : Option RingDesc :=
  match env.find? (fun x => x.1 == n) with
  | some x => some x.2
  | none => if s.ownsDesc t n then some (s.desc n) else none

/-- Checks 1 to 4 and 6 of R339 over a plan's entries, run symbolically: the first failing status and entry, or the properties and
the key chunks at the end (R353, R354). -/
def State.planRun (s : State) (t : Nat) (p : Plan) (env : List (Nat × RingDesc)) (chunks i : Nat) :
    List RingEntry → Except (Status × Nat) (List (Nat × RingDesc) × Nat)
  | [] => .ok (env, chunks)
  | e :: r =>
    let ps := s.params p.psid
    match s.planLook t env e.a, (if usesB e.op then s.planLook t env e.b else some {}) with
    | some a, some b =>
      if usesEvk e.op && !s.ownsEvk t e.evk then .error (.bounds, i)
      else
        let k := if usesEvk e.op then s.evk e.evk else {}
        match firstFail ((a.psid != p.psid, .ctParams) :: opChecks ps e a b k none p.raiseNoise) with
        | some st => .error (st, i)
        | none =>
          s.planRun t p ((e.dst, resultDesc ps e a b p.raiseNoise) :: env) (chunks + entryChunks ps e a.level) (i + 1) r
    | _, _ => .error (.bounds, i)

/-- Data of a plan's operands: a temporary's or an input's, or a registered constant's. -/
def State.planValue (s : State) (t : Nat) (env : List (Nat × RingDesc × Poly)) (n : Nat) : RingDesc × Poly :=
  match env.find? (fun x => x.1 == n) with
  | some x => x.2
  | none => (s.desc n, s.readPoly t (s.desc n))

/-- What a plan's entries compute, in order (R352, R356). -/
def State.planData (s : State) (t : Nat) (p : Plan) (env : List (Nat × RingDesc × Poly)) : List RingEntry → RingDesc × Poly
  | [] => s.planValue t env planOut
  | e :: r =>
    let ps := s.params p.psid
    let a := s.planValue t env e.a
    let b := if usesB e.op then s.planValue t env e.b else ({}, [])
    let key := if usesEvk e.op then s.evkData t (s.evk e.evk) else []
    s.planData t p ((e.dst, resultDesc ps e a.1 b.1 p.raiseNoise, ringCompute ps e a.2 b.2 key) :: env) r

/-- Temporaries that a plan uses. -/
def Plan.tempsUsed (p : Plan) : Nat := ((p.entries.map (fun e => e.dst)).filter isTemp).dedup.length
/-- Evaluation keys that a plan names. -/
def Plan.keysNamed (p : Plan) : List Nat := (p.entries.filter (fun e => usesEvk e.op)).map (fun e => e.evk)
/-- Descriptors that a plan names. -/
def Plan.descsNamed (p : Plan) : List Nat :=
  (p.entries.flatMap RingEntry.reads).filter (fun n => !isTemp n && !isInput n && n != planOut)

end Sys2Proof.Machine
end

