-- ==== Sys2Proof/Machine/RingReg.lean ====
section
/-! DEFINITION. Machine/RingReg.lean: CT_REGISTER and EVK_REGISTER: parameter sets, descriptors, evaluation keys, plans and exit
bindings are registered and released (R307 to R312, R329 to R335, R350 to R354, R357, R358, R363, R535). -/

namespace Sys2Proof.Machine

/-- CT_REGISTER of one kind, which names a block of `len` bytes: the kind, the length, and the right to read the block. -/
def State.ctBlock (s : State) (c : Cmd) (kind len : Nat) (body : State → Nat → List Byte → State) : State :=
  s.command 0x70 c fun s =>
    let t := cmdActs c
    match firstFail [(c.a0 != kind || c.len != len, .bounds)], s.blockFail t c.addr len (fun p => p.r) with
    | some st, _ => s.fail c st
    | none, some st => s.fail c st
    | none, none => body s t (s.readVA t c.addr len c.host)

/-! ### Parameter sets (R307 to R312) -/

/-- Entries of `n` bytes from an offset. -/
def entriesAt (b : List Byte) (off n count : Nat) : List Nat := (List.range count).map (fun i => field b (off + n * i) n)

/-- Read the record and the placement block (R307, R308). -/
def parseParams (t : Nat) (b : List Byte) : ParamSet :=
  { valid := true, owner := t, exact := field b 5 1 == 1, logN := field b 6 1, limbs := field b 7 1, special := field b 8 1,
    dnum := field b 9 1, spread := field b 10 1, plainT := field b 12 4, fresh := field b 0x10 2, cMul := field b 0x12 2,
    cKs := field b 0x14 2, cRs := field b 0x16 2, primes := entriesAt b 0x40 4 80, roots := entriesAt b 0x180 4 80,
    thresh := entriesAt b 0x2C0 2 64, group := field b 832 1, scratch := field b 840 8, scratchLen := field b 848 8,
    record := b.take 832 }

/-- Table entries in use: LIMBS from entry 0 and SPECIAL from entry 64 (R307). -/
def ParamSet.used (p : ParamSet) : List Nat := List.range p.limbs ++ (List.range p.special).map (· + 64)

/-- Check 3 of R309: every field within its range and reserved bytes 0. -/
def ParamSet.fieldsOk (p : ParamSet) (b : List Byte) : Bool :=
  field b 0 4 == 0x53525058 && field b 4 1 == 1 && decide (field b 5 1 ≤ 1) && decide (12 ≤ p.logN) && decide (p.logN ≤ 17) &&
  decide (1 ≤ p.limbs) && decide (p.limbs ≤ 64) && decide (p.special ≤ 16) && decide (1 ≤ p.dnum) && decide (p.dnum ≤ 8) &&
  decide (p.spread ≤ 4) && field b 11 1 == 0 &&
  (if p.exact then decide (2 ≤ p.plainT) && decide (p.plainT < 2 ^ 31) else p.plainT == 0) && zeroAt b 0x18 40 &&
  decide (p.limbs + p.special ≤ 80) && (List.range 80).all (fun i => p.used.contains i || p.primes.getD i 0 == 0) &&
  (List.range 64).all (fun i => decide (i < p.limbs) || p.thresh.getD i 0 == 0) &&
  decide (p.group < 64) && zeroAt b 833 7 && p.scratch % 2 ^ 21 == 0 && decide (p.scratch < 2 ^ 48) && zeroAt b 856 8

/-- Miller–Rabin to one base: `d` is the odd part of `q - 1` and `r` the power of 2 (R309). -/
def millerRabin (q d r base : Nat) : Bool :=
  let x := powModN q 64 (base % q) d
  x == 1 || (List.range r).any (fun i => powModN q 64 x (2 ^ i) == q - 1)

/-- The odd part of a number, and the power of 2 taken out; `fuel` bounds the power. -/
def oddPart : Nat → Nat → Nat × Nat
  | 0, n => (n, 0)
  | fuel + 1, n => if n % 2 = 0 then let (d, r) := oddPart fuel (n / 2); (d, r + 1) else (n, 0)

/-- `q` passes Miller–Rabin to bases 2, 3, 5 and 7 (R309). -/
def passesMr (q : Nat) : Bool :=
  let (d, r) := oddPart 64 (q - 1)
  [2, 3, 5, 7].all (millerRabin q d r)

/-- Check 4 of R309: primes and roots. -/
def ParamSet.primesOk (p : ParamSet) : Bool :=
  let qs := p.used.map (fun i => p.primes.getD i 0)
  qs.all (fun q => decide (2 ^ 27 < q) && decide (q < 2 ^ 31) && q % (2 * p.n) == 1 && passesMr q) && decide qs.Nodup &&
  p.used.all (fun i =>
    let q := p.primes.getD i 0
    decide (p.roots.getD i 0 < q) && powModN q 64 (p.roots.getD i 0) p.n == q - 1)

/-- Check 5 of R309. -/
def ParamSet.switchOk (p : ParamSet) : Bool :=
  (p.special == 0 || decide (p.alpha ≤ p.special)) && (!p.exact || p.used.all (fun i => p.primes.getD i 0 != p.plainT))

/-- Check 6 of R309. -/
def State.ringGroupOk (s : State) (p : ParamSet) : Bool :=
  let g := (s.groupCells p.group).length
  s.groupOwner p.group == p.owner && [1, 2, 4, 8, 16].contains g && g % 2 ^ p.spread == 0

/-- Check 7 of R309: a mesh route of the tenant from every cell of the group to every other. -/
def State.ringRoutesOk (s : State) (p : ParamSet) : Bool :=
  let cs := s.groupCells p.group
  let rs := ((s.jig.cfg.routes.getD s.jig.me []).zipIdx).filter (fun x => s.ownsSlot .meshRoute x.2 p.owner)
  cs.all (fun a => cs.all (fun b => a == b || rs.any (fun x => x.1.src == a && x.1.dst == b)))

/-- What keeps a group from the ring sequencer: check 8 of R309. -/
def State.ringGroupLocked (s : State) (p : ParamSet) : Bool :=
  (s.groupCells p.group).any (fun c => (s.cell c).loaded || s.agg.binds.any (fun b => b.2.enable && b.2.cell == c)) ||
  s.ring.params.any (fun e => e.2.valid && e.2.group == p.group && e.2.spread != p.spread)

/-- The scratch need (R310). -/
def ParamSet.scratchNeed (p : ParamSet) : Nat := ceilDiv (4 * (p.limbs + p.special) * 4 * p.n) (2 ^ 21) * 2 ^ 21

/-- Scratch pages lie in the HBM tier with the R and W rights. -/
def State.scratchOk (s : State) (t va n : Nat) : Bool :=
  decide (va + n ≤ 2 ^ 48) && s.allPages t va n (fun p => p.tier == 1 && p.r && p.w)

/-- The lowest free PSID. -/
def State.freeParams (s : State) : Option Nat := (List.range 64).find? (fun i => !(s.params i).valid)

/-- CT_REGISTER of kind PARAMS: the checks of R309 in order. The row also stands for a kind that R535 does not give, which is
refused with BOUNDS (R532). -/
def execCtRegisterParams (c : Cmd) (s : State) : Host.Outcome State Fault Refusal :=
  .next <| s.ctBlock c 0 864 fun s t b =>
    let p := parseParams t b
    match firstFail [
        (c.a1 != 0, .bounds), (!p.fieldsOk b, .ctParams), (!p.primesOk, .ctParams), (!p.switchOk, .ctParams),
        (!s.ringGroupOk p, .cfgMismatch), (!s.ringRoutesOk p, .cfgMismatch), (s.ringGroupLocked p, .cfgLocked),
        (decide (p.scratchLen < p.scratchNeed), .bounds), (!s.scratchOk t p.scratch p.scratchLen, .rights)], s.freeParams with
    | some st, _ => s.fail c st
    | none, none => s.fail c .quotaExceeded
    | none, some i => (s.setParams i p).complete c .ok i 0 0

/-- Descriptors and evaluation keys that name a parameter set: RING_PARAMS.REFS (R335, R349). -/
def State.paramsRefs (s : State) (p : Nat) : Nat :=
  (s.ring.descs.filter (fun e => e.2.valid && e.2.psid == p)).length +
  (s.ring.evks.filter (fun e => e.2.valid && (e.2.psid == p || (decide (2 ≤ e.2.kind) && e.2.targetPsid == p)))).length

/-- CT_REGISTER of a kind that releases: the kind, no block, and an index of the tenant. -/
def State.ctRelease (s : State) (c : Cmd) (kind : Nat) (owns : State → Nat → Bool) (body : State → Nat → State) : State :=
  s.command 0x70 c fun s =>
    match firstFail [(c.a0 != kind, .bounds), (!owns s (cmdActs c), .rights)] with
    | some st => s.fail c st
    | none => body s (cmdActs c)

/-- RELEASE_PARAMS: a PSID that no descriptor or evaluation key names is freed (R335). -/
def execReleaseParams (c : Cmd) (s : State) : Host.Outcome State Fault Refusal :=
  .next <| s.ctRelease c 8 (fun s t => s.ownsParams t c.a1) fun s _ =>
    if s.paramsRefs c.a1 != 0 then s.fail c .cfgLocked else (s.setParams c.a1 {}).ok c

/-! ### Descriptors (R334, R335, R357) -/

/-- Read a descriptor (R334, R357). -/
def parseRingDesc (t : Nat) (b : List Byte) : RingDesc :=
  { valid := true, owner := t, psid := field b 0 2, type := field b 2 1, level := field b 3 1, eval := bitAt (field b 4 1) 0,
    plain := bitAt (field b 4 1) 1, noise := field b 6 2, scale := field b 8 4, keyset := field b 0xC 4, base := field b 0x18 8,
    compStride := field b 0x20 4, limbStride := field b 0x24 4, cap := field b 0x2C 1,
    dim := if field b 2 1 = 2 then field b 0x30 4 else 0 }

/-- Fields within range and reserved bytes 0 (R334, R335, R357). -/
def RingDesc.fieldsOk (d : RingDesc) (p : ParamSet) (b : List Byte) : Bool :=
  decide (d.type ≤ 2) && decide (field b 4 1 < 4) && d.base % 4096 == 0 && decide (d.base < 2 ^ 48) && d.limbStride % 4096 == 0 &&
  (if p.exact then decide (d.scale < p.plainT) else d.scale == ofSigned 32 (toSigned 16 d.scale)) && zeroAt b 0x2D 3 &&
  zeroAt b 0x34 12 &&
  (if d.type = 2 then
    d.level == 0 && d.plain && !d.eval && d.compStride == 0 && decide (1 ≤ d.cap) && decide (4 * (d.dim + 1) ≤ d.limbStride) &&
    decide (256 ≤ d.dim) && decide (d.dim ≤ 2 ^ 17)
   else
    decide (d.level < p.limbs) && decide (d.level + 1 ≤ d.cap) && decide (d.cap ≤ p.limbs) && zeroAt b 0x30 4 &&
    (if d.type = 1 then d.keyset == 0 && d.compStride == 0 else d.compStride % 4096 == 0))

/-- No two ranges of a list meet. -/
def disjointRanges : List (Nat × Nat) → Bool
  | [] => true
  | x :: r => r.all (fun y => decide (x.1 + x.2 ≤ y.1) || decide (y.1 + y.2 ≤ x.1)) && disjointRanges r

/-- Descriptors a tenant holds: RING_TENANT.DESC_USED. -/
def State.descsHeld (s : State) (t : Nat) : Nat := (s.ring.descs.filter (fun e => e.2.valid && e.2.owner == t)).length
/-- The lowest free descriptor. -/
def State.freeDesc (s : State) : Option Nat := (List.range 4096).find? (fun i => !(s.desc i).valid)

/-- An entry names descriptor `d`. -/
def State.entryNames (s : State) (e : RingEntry) (d : Nat) : Bool :=
  e.dst == d || e.a == d || e.b == d || (e.op == 0x43 && decide (e.dst ≤ d) && decide (d < e.dst + (s.desc e.a).cap))

/-- Entries of tenant `t` that have not ended (R333, R335, R354). -/
def State.queuedEntries (s : State) (t : Nat) : List RingEntry := (s.macros t).flatMap (fun m => m.entries.drop m.pos)

/-- Robust rounds of tenant `t` that are open. -/
def State.robustRounds (s : State) (t : Nat) : List Round :=
  (s.agg.rounds.map (fun e => e.2)).filter (fun r => r.robust && r.tenant == t &&
    (r.bOpen.isSome || (match r.state with | .free => false | .released => false | .aborted => false | _ => true)))

/-- A queued or running operation names descriptor `d` (R335). -/
def State.descInUse (s : State) (t d : Nat) : Bool :=
  (s.queuedEntries t).any (fun e => s.entryNames e d) || (s.robustRounds t).any (fun r => r.test == 1 && r.testPoly == d)

/-- A registered plan names descriptor `d` (R354). -/
def State.plansName (s : State) (t d : Nat) : Bool :=
  s.ring.plans.any (fun e => e.2.valid && e.2.owner == t && e.2.descsNamed.contains d)

/-- CT_REGISTER of kind DESCRIPTOR: the checks of R335 in order. -/
def execCtRegisterDescriptor (c : Cmd) (s : State) : Host.Outcome State Fault Refusal :=
  .next <| s.ctBlock c 1 64 fun s t b =>
    let d := parseRingDesc t b
    let p := s.params d.psid
    let again := c.a1 != 0xFFFF
    let d := { d with
      fingerprint := p.fingerprint d.keyset, noise := if d.type = 0 then max d.noise p.fresh else d.noise
      generation := 0 }
    let ext := s.extents d
    match firstFail [
        (again && !s.ownsDesc t c.a1, .rights), (!s.ownsParams t d.psid || !d.fieldsOk p b, .ctParams),
        (!again && (decide (Tab.look 512 s.ring.descLimit t ≤ s.descsHeld t) || s.freeDesc.isNone), .quotaExceeded),
        (!disjointRanges ext, .bounds), (ext.any (fun x => !s.mapped t x.1 x.2), .xlateFault),
        (ext.any (fun x => !s.allPages t x.1 x.2 (fun g => decide (g.tier ≤ 2) && g.r && g.w)), .rights),
        (again && s.descInUse t c.a1, .cfgLocked)] with
    | some st => s.fail c st
    | none =>
      let i := if again then c.a1 else s.freeDesc.getD 0
      (s.setDesc i d).complete c .ok i 0 0

/-- RELEASE_DESCRIPTOR (R335, R354). -/
def execReleaseDescriptor (c : Cmd) (s : State) : Host.Outcome State Fault Refusal :=
  .next <| s.ctRelease c 9 (fun s t => s.ownsDesc t c.a1) fun s t =>
    if s.descInUse t c.a1 || s.plansName t c.a1 then s.fail c .cfgLocked else (s.setDesc c.a1 {}).ok c

/-! ### Evaluation keys (R329 to R333, R358) -/

/-- Read an evaluation-key descriptor (R329, R358). -/
def parseEvk (t : Nat) (b : List Byte) : Evk :=
  { valid := true, owner := t, psid := field b 0 2, kind := field b 2 1, conj := bitAt (field b 3 1) 0, keyset := field b 4 4,
    rot := field b 0x10 4, base := field b 0x18 8, digests := field b 0x20 8, targetPsid := field b 0x2A 2, lweDim := field b 0x2C 2,
    digits := field b 0x2E 1, logBase := field b 0x2F 1, noiseAdd := field b 0x30 2 }

/-- A switch set (R358). -/
def ParamSet.isSwitch (p : ParamSet) : Bool := p.exact && p.limbs == 1 && p.special == 0 && (p.logN == 12 || p.logN == 13)

/-- Order 1 of R330: PSID, ranges and reserved bytes. -/
def State.evkFieldsOk (s : State) (t : Nat) (k : Evk) (b : List Byte) : Bool :=
  let p := s.params k.psid
  s.ownsParams t k.psid && decide (1 ≤ p.special) && decide (k.kind ≤ 3) && field b 8 8 == 0 && k.base % 65536 == 0 &&
  decide (k.base < 2 ^ 48) && k.digests % 8 == 0 && decide (k.digests < 2 ^ 48) &&
  (if k.kind = 1 then decide (field b 3 1 ≤ 1) && decide (k.rot < p.n / 2) else field b 3 1 == 0 && k.rot == 0) &&
  (if k.kind ≤ 1 then zeroAt b 0x2A 22
   else s.ownsParams t k.targetPsid && (s.params k.targetPsid).isSwitch && decide (256 ≤ k.lweDim) && decide (k.lweDim ≤ 2048) &&
     decide (1 ≤ k.digits) && decide (k.digits ≤ 8) && decide (31 ≤ k.digits * k.logBase) && zeroAt b 0x32 14)

/-- D_k: the chunks of a key (R328, R358). -/
def State.evkChunks (s : State) (k : Evk) : Nat :=
  let p := s.params k.psid
  match k.kind with
  | 2 => ceilDiv (p.n * k.digits * (k.lweDim + 1) * 4) 65536
  | 3 => ceilDiv (k.lweDim * 4 * k.digits * (s.params k.targetPsid).n * 4) 65536
  | _ => p.dnum * 2 * (p.limbs + p.special) * p.h

/-- The digest of chunk `i` of the key at index `x`: bytes 0 to 7 of its HMAC (R330). -/
def chunkDigest (key x i : Nat) (chunk : List Byte) : List Byte := leBytes 8 (Config.digest "key chunk" (key, x, i, chunk))

/-- The lowest free evaluation-key index. -/
def State.freeEvk (s : State) : Option Nat :=
  (List.range 512).find? (fun i => !(s.evk i).valid && !s.ring.evkJobs.any (fun j => j.index == i))

/-- An EVK_REGISTER ends without registering its key: the digest key is released (R330). -/
def State.dropEvkJob (s : State) (j : EvkJob) : State :=
  (s.zeroKey j.evk.digestKey).updRing fun r => { r with evkJobs := r.evkJobs.erase j }

/-- An EVK_REGISTER reads what it may of its key; when it has all of it, the digests are written, the key is registered and the command
completes; an uncorrectable error ends it (R330, order 5). -/
def State.pumpEvk (s : State) (j : EvkJob) : State :=
  let t := j.tenant
  let k := j.evk
  let total := 65536 * k.chunks
  if s.frozen then s
  else
    let n := s.feedMoves (s.params k.psid).group t (total - j.moved)
    let s := s.chargeDma t n
    if j.moved + n < total then
      s.updRing fun r => { r with evkJobs := r.evkJobs.map (fun (q : EvkJob) => if q == j then { j with moved := j.moved + n } else q) }
    else if j.ue || !s.allPages t k.base total (fun p => !p.broken) then (s.dropEvkJob j).fail j.cmd .memUe
    else
      let v := (s.key k.digestKey).value
      let table := (List.range k.chunks).flatMap (fun i => chunkDigest v j.index i (s.readVA t (k.base + 65536 * i) 65536 []))
      let s := s.writeVA t k.digests table (8 * k.chunks + 1)
      let s := s.updRing fun r => { r with evkJobs := r.evkJobs.erase j }
      (s.setEvk j.index k).complete j.cmd .ok j.index
        (if k.kind = 3 then Config.workCycles "XP_WC" [k.targetPsid, k.digits, s.jig.serial] else 0) flagVaried

/-- Every EVK_REGISTER goes on as far as this moment allows. -/
def State.pumpEvks (s : State) : State := s.each s.ring.evkJobs State.pumpEvk

/-- EVK_REGISTER: the actions and checks of R330 in order; the read of the key goes on at later ticks where slots or budget do not suffice.
`ue` is an uncorrectable error met on reading the key. Without a slot of a feeding engine or a DMA budget it is refused (R71). -/
def execEvkRegister (c : Cmd) (ue : Bool) (s : State) : Host.Outcome State Fault Refusal :=
  .next <| s.command 0x71 c fun s =>
    let t := cmdActs c
    match firstFail [(c.len != 64, .bounds)], s.blockFail t c.addr 64 (fun p => p.r) with
    | some st, _ => s.fail c st
    | none, some st => s.fail c st
    | none, none =>
      let b := s.readVA t c.addr 64 c.host
      let k := parseEvk t b
      let n := s.evkChunks k
      match firstFail [
          (!s.evkFieldsOk t k b, .ctParams),
          (!s.mapped t k.base (65536 * n) || !s.mapped t k.digests (8 * n), .xlateFault),
          (!s.allPages t k.base (65536 * n) (fun p => p.tier == 2 && p.r) || !s.allPages t k.digests (8 * n) (fun p => p.w), .rights),
          (s.freeTenantKeys.isEmpty || decide (s.keyLimit t ≤ s.keysHeld t), .quotaExceeded),
          (s.freeEvk.isNone, .quotaExceeded),
          (s.dmaBudgetFull t == 0 ||
            !(List.range 32).any (fun d => s.dmaFeeds d == (s.params k.psid).group && s.ownsSlot .dma d t), .budget)] with
      | some st => s.fail c st
      | none =>
        let i := s.freeEvk.getD 0
        let (ks, s) := s.newKeys t 0 960 [(2, 2 ^ 11)]
        let e := ks.headD 0
        let fp := (s.params (if k.kind = 3 then k.targetPsid else k.psid)).fingerprint k.keyset
        let j : EvkJob := { cmd := c, tenant := t, index := i, evk := { k with fingerprint := fp, chunks := n, digestKey := e }, moved := 0,
                            ue := ue }
        (s.updRing fun r => { r with evkJobs := r.evkJobs ++ [j] }).pumpEvk j

/-- A queued or running operation names evaluation key `k` (R333). -/
def State.evkInUse (s : State) (t k : Nat) : Bool :=
  (s.queuedEntries t).any (fun e => e.evk == k || (e.op == 0x40 && (s.plan e.arg).keysNamed.contains k)) ||
  (s.robustRounds t).any (fun r => r.test == 1 && (r.lweKey == k || r.brKey == k))

/-- RELEASE_EVK: the index is freed and its digest key destroyed (R333, R354). -/
def execReleaseEvk (c : Cmd) (s : State) : Host.Outcome State Fault Refusal :=
  .next <| s.ctRelease c 10 (fun s t => s.ownsEvk t c.a1) fun s t =>
    if s.evkInUse t c.a1 || s.ring.plans.any (fun e => e.2.valid && e.2.owner == t && e.2.keysNamed.contains c.a1) then s.fail c .cfgLocked
    else ((s.zeroKey (s.evk c.a1).digestKey).setEvk c.a1 {}).ok c

/-! ### Plans (R350 to R354) -/

/-- Read an entry (R337). -/
def parseEntry (b : List Byte) : RingEntry :=
  { op := field b 0 1, rsvd1 := field b 1 1, dst := field b 2 2, a := field b 4 2, b := field b 6 2, evk := field b 8 2,
    rsvd2 := field b 10 2, arg := field b 12 4, imm := field b 16 8, rsvd3 := field b 24 8 }

/-- Read `n` entries from an offset. -/
def parseEntries (b : List Byte) (off n : Nat) : List RingEntry := (List.range n).map (fun i => parseEntry (slice b (off + 32 * i) 32))

/-- Read a plan image (R350). -/
def parsePlan (t : Nat) (b : List Byte) : Plan :=
  { valid := true, owner := t, check := field b 5 1 == 1, psid := field b 6 2, inputs := field b 0xA 1, inLevel := field b 0xB 1,
    inNoiseMax := field b 0xC 2, raiseNoise := field b 0xE 2, inScale := field b 0x10 4, keyset := field b 0x14 4,
    scratch := field b 0x18 8, scratchLen := field b 0x20 8, entries := parseEntries b 64 (field b 8 2) }

/-- Header fields in range and reserved bytes 0 (R350). -/
def State.planHeaderOk (s : State) (t : Nat) (p : Plan) (b : List Byte) (len : Nat) : Bool :=
  let ps := s.params p.psid
  field b 0 4 == 0x4E4C5058 && field b 4 1 == 1 && decide (field b 5 1 ≤ 1) && s.ownsParams t p.psid && !ps.detached &&
  decide (1 ≤ field b 8 2) && decide (field b 8 2 ≤ 1024) && len == 64 + 32 * field b 8 2 &&
  (if p.check then decide (1 ≤ p.inputs) && decide (p.inputs ≤ 16) && decide (p.inLevel < ps.limbs) && p.raiseNoise == 0
   else p.inputs == 1 && p.inLevel == 0 && !ps.exact) &&
  (if ps.exact then decide (p.inScale < ps.plainT) else p.inScale == ofSigned 32 (toSigned 16 p.inScale)) &&
  p.scratch % 2 ^ 21 == 0 && decide (p.scratch < 2 ^ 48) && zeroAt b 0x28 24

/-- Scratch that a plan needs: R310's, and two full polynomials for each temporary (R353). -/
def State.planScratch (s : State) (p : Plan) : Nat :=
  let ps := s.params p.psid
  ps.scratchNeed + p.tempsUsed * (2 * ps.limbs * ps.limbBytes)

/-- The symbolic run of a plan from its inputs (R353). -/
def State.planSymbolic (s : State) (t : Nat) (p : Plan) : Except (Status × Nat) (List (Nat × RingDesc) × Nat) :=
  s.planRun t p ((List.range p.inputs).map (fun i => (0xFE00 + i, s.planInput p))) 0 0 p.entries

/-- The lowest free plan identifier. -/
def State.freePlan (s : State) : Option Nat := (List.range 16).find? (fun i => !(s.plan i).valid)

/-- CT_REGISTER of kind PLAN: the checks of R353 in order; the completion gives the identifier and the output scale, or the entry
that failed in RESULT1 (R354, R535). -/
def execCtRegisterPlan (c : Cmd) (s : State) : Host.Outcome State Fault Refusal :=
  .next <| s.command 0x70 c fun s =>
    let t := cmdActs c
    let fail := fun (st : Status) (i : Nat) => s.complete c st 0 i 0
    match firstFail [(c.a0 != 2 || c.a1 != 0 || decide (c.len < 64), .bounds)], s.blockFail t c.addr c.len (fun p => p.r) with
    | some st, _ => s.fail c st
    | none, some st => s.fail c st
    | none, none =>
      let b := s.readVA t c.addr c.len c.host
      let p := parsePlan t b
      match firstFail [
          (!s.mapped t p.scratch p.scratchLen, .xlateFault), (!s.scratchOk t p.scratch p.scratchLen, .rights),
          (!s.planHeaderOk t p b c.len, .ctParams)] with
      | some st => s.fail c st
      | none =>
        match s.planForm t p [] p.entries with
        | some i => fail .ctParams i
        | none =>
          match s.planSymbolic t p with
          | .error (st, i) => fail st i
          | .ok (env, chunks) =>
            let o := (s.planLook t env planOut).getD {}
            if o.type != 0 then fail .ctParams (p.entries.length - 1)
            else if p.scratchLen < s.planScratch p then s.fail c .bounds
            else
              match s.freePlan with
              | none => s.fail c .quotaExceeded
              | some i =>
                (s.setPlan i { p with
                  outLevel := o.level, outNoise := o.noise, outScale := o.scale, outEval := o.eval, outPlain := o.plain,
                  chunks := chunks, temps := p.tempsUsed }).complete c .ok i o.scale 0

/-- A queued or running entry, or an open round, names a plan (R354). -/
def State.planInUse (s : State) (t p : Nat) : Bool :=
  (s.queuedEntries t).any (fun e => e.op == 0x40 && e.arg == p) || (s.robustRounds t).any (fun r => r.checkPlan == p)

/-- RELEASE_PLAN (R354). -/
def execReleasePlan (c : Cmd) (s : State) : Host.Outcome State Fault Refusal :=
  .next <| s.ctRelease c 11 (fun s t => s.ownsPlan t c.a1) fun s t =>
    if s.planInUse t c.a1 then s.fail c .cfgLocked else (s.setPlan c.a1 {}).ok c

/-! ### Exit bindings (R363) -/

/-- Read an exit binding (R363). -/
def parseExit (b : List Byte) : ExitBind :=
  { valid := true, endpoint := field b 0 2, macKey := field b 2 2, sigma := field b 4 4, rBits := field b 8 1,
    replyLevel := field b 9 1, waitTurns := field b 10 2, sends := field b 12 1 }

/-- Fields of an exit binding in range (R363). -/
def ExitBind.fieldsOk (x : ExitBind) (b : List Byte) : Bool :=
  decide (x.endpoint < 8192) && decide (65536 ≤ x.sigma) && decide (x.sigma ≤ 65536 * 65536) && decide (2 ≤ x.rBits) &&
  decide (x.rBits ≤ 32) && decide (x.replyLevel < 64) && decide (16 ≤ x.waitTurns) && decide (1 ≤ x.sends) && decide (x.sends ≤ 8) &&
  zeroAt b 13 19

/-- CT_REGISTER of kind EXIT (R363). -/
def execCtRegisterExit (c : Cmd) (s : State) : Host.Outcome State Fault Refusal :=
  .next <| s.ctBlock c 3 32 fun s t b =>
    let x := parseExit b
    let k := s.key x.macKey
    match firstFail [
        (decide (3 < c.a1), .bounds), (!x.fieldsOk b, .ctParams),
        ((s.ep x.endpoint).state == 0 || (s.ep x.endpoint).tenant != t, .rights),
        (k.type == 0 || k.owner != t || !bitAt k.uses 13, .keyUse)] with
    | some st => s.fail c st
    | none => (s.updRing fun r => { r with exits := Tab.put {} r.exits (4 * t + c.a1) x }).complete c .ok c.a1 0 0

end Sys2Proof.Machine
end

