-- ==== Sys2Proof/Machine/Programs.lean ====
section
/-! DEFINITION. Machine/Programs.lean: the NET instructions, loading and starting programs, barriers, and what clears cells
(R84 to R88, R126, R134, R149 to R151, R190, R197 to R206, R223, R226). -/

namespace Sys2Proof.Machine

/-! ### SEND and FEED -/

/-- A mesh route of this member (R151). -/
def State.meshRoute (s : State) (i : Nat) : Option JigRoute :=
  if s.jig.loaded then (s.jig.cfg.routes.getD s.jig.me [])[i]? else none

/-- The checks of a SEND's route: its source is the issuing cell, and the tenant owns a slot of it (R223). -/
def State.routeChecks (s : State) (c i : Nat) : List (Bool × Failure) :=
  [(match s.meshRoute i with | some r => r.src != c | none => true, illegal 0x07),
   (!s.ownsSlot .meshRoute i (s.cellTenant c), (.budget, 0))]

/-- Count the bytes that a transfer sends on each link of its route (R153). -/
def State.countLinks (s : State) (i n : Nat) (l : List (Nat × Nat)) : State :=
  s.each l (fun s (c, d) => s.updCell c fun x => { x with
    linkBytes := Tab.put 0 x.linkBytes d (wrapAdd 48 (Tab.look 0 x.linkBytes d) n)
    linkRoute := Tab.put 0 x.linkRoute d i })

/-- The cell that a route's hop arrives at (R149). -/
def hopEnd (r : JigRoute) (hop : Nat) : Nat := match r.links[hop + 1]? with | some l => l.1 | none => r.dst

/-- What a transfer meets on its links: corrected errors count at the cells they arrive at (R149). -/
def State.linkErrors (s : State) (r : JigRoute) (hops : List Nat) : State :=
  s.each (hops.filter (fun h => decide (h < r.hops))) (fun s h => s.updCell (hopEnd r h) fun x => x.countErr errLinkCe 1)

/-- Beats of a SEND's step (R209). -/
def sendBeats (r : JigRoute) : Nat := 250 - 2 * r.hops

/-- SEND: a mesh transfer on a static route, with the destination's signal and then its own (R150, R223). An uncorrectable error of its
source's SRAM or of a link ends it with MEM_UE after the beats before; a SEND that its cell abandons has landed so many beats and signals
nothing (R144, R149, R204). -/
def execSend (a : CellAt) (route : Fin 256) (dsig : Bool) (dtoken : Fin 64) (src dst : AddrOp) (beats : Nat) (s : State) :
    Host.Outcome State Fault Refusal :=
  let w := cellWord a false 0x51 [(16, 8, route.val), (24, 1, b2n dsig), (25, 6, dtoken.val), (40, 26, addrCode src),
    (66, 26, addrCode dst), (92, 16, beats)]
  let c := a.cell.val
  let r := (s.meshRoute route.val).getD { src := 0, dst := 0, hops := 0, path := 0 }
  let fits := s.mayIssue (s.cellTenant c) .meshRoute route.val &&
    decide (min beats (sendBeats r) + 6 + 2 * r.hops ≤ s.runCycles .meshRoute route.val (s.cellTenant c))
  let op : UnitOp := { unit := 4, cost := beats + 6 + 2 * r.hops, steps := beats, port := 3, sram := true, target := some r.dst }
  if (firstFailure (s.routeChecks c route.val)).isSome || fits then
    .next <| s.unitInstr a w op
      (fun s =>
        let x := s.cell c
        let n := 64 * beats
        [(x.misaligned src 64 || x.misaligned dst 64, illegal 0x04)] ++ s.routeChecks c route.val ++
          [(x.sealedRange (x.ea src) n none || (s.cell r.dst).sealedRange (x.ea dst) n none, (.rights, 0))])
      (fun n s =>
        let x := s.seenCell a
        let put := fun (n : Nat) => ((s.updCell r.dst fun y => y.write (x.ea dst) (x.read (x.ea src) (64 * n))).countLinks
          route.val (64 * n) r.links).linkErrors r a.met.linkCe
        match a.met.ue with
        | some (m, .link h) =>
          if m < n && h < r.hops then
            .error { why := (.memUe, 0), cycles := m + 1, at_ := (put m).updCell (hopEnd r h) fun x => x.countErr errLinkUe 1 }
          else .ok (if n = beats && dsig then (put n).signalToken r.dst dtoken.val 1 else put n)
        | _ => .ok (if n = beats && dsig then (put n).signalToken r.dst dtoken.val 1 else put n))
  else .next s

/-- FEED: post a descriptor to a DMA engine that feeds the group; it waits while the engine's queue is full (R226, R227). -/
def execFeed (a : CellAt) (v : Bool) (engine : EngineId) (desc : AddrOp) (s : State) : Host.Outcome State Fault Refusal :=
  let c := a.cell.val
  let e := engine.val
  .next <| s.issue a (cellWord a v 0x52 [(16, 5, e), (40, 26, addrCode desc)]) 4 1 0 fun s =>
    let x := s.seenCell a
    let d := parseDesc (x.read (x.ea desc) 64)
    let s' := s.settle s c { unit := 4, cost := 1, port := 4, sram := true } { a.met with lost := [], beaten := 0 }
    match firstFailure [(x.misaligned desc 64, illegal 0x04), (s.dmaFeeds e != s.cellGroup c, illegal 0x08),
        (!s.ownsSlot .dma e (s.cellTenant c), (.budget, 0)), (x.sealedRange (x.ea desc) 64 none, (.rights, 0))] with
    | some f => .error { why := f, at_ := s }
    | none =>
      match a.met.ue with
      | some (_, .sram b) => .error { why := (.memUe, 0), at_ := s'.updCell c fun x => x.sramError b 4 }
      | _ =>
        match firstFailure [(d.v && !v, (.instrVMissing, 0)), (v && !d.v, illegal 0x0D)] with
        | some f => .error { why := f, at_ := s' }
        | none =>
          let token := a.sig.map (·.val)
          .ok (if x.feedsOn e < feedDepth then (s'.postFeed c e d token).goTo c (x.pc + 1)
            else s'.updCell c fun x => { x with waiting := .feedQueue e d token, waitTurns := 0 })

/-! ### PROG_LOAD and PROG_START (R197 to R201) -/

/-- A command that names a cell group does not act for the group's owner (R197, R568). -/
def State.notOwner (s : State) (c : Cmd) (g : Nat) : Bool :=
  if c.fn.val = 0 then s.groupOwner g < 8 && s.groupOwner g != c.tenant else s.groupOwner g != c.fn.val

/-- Some cell of a group runs or is being cleared, or a load for it has not completed (R197, R200). -/
def State.groupBusy (s : State) (g : Nat) : Bool :=
  (s.groupCells g).any (fun c => (s.cell c).running || (s.cell c).clearing) || s.loads.any (fun l => l.group == g)

/-- A start for a group is pending, or an armed barrier names it on this member (R197). -/
def State.groupAwaited (s : State) (g : Nat) : Bool :=
  (s.runOf g).isSome || s.spn.barriers.any (fun b => b.kind == 0 && b.group == g && b.members.contains s.jig.me)

/-- Some DMA engine that feeds a group has a slot of the tenant, and its DMA budget is not 0 (R71, R197). -/
def State.canFeed (s : State) (g t : Nat) : Bool :=
  (List.range 32).any (fun d => s.dmaFeeds d == g && s.ownsSlot .dma d t) && s.dmaBudgetFull t != 0

/-- A load's failed check is recorded in CEL_FAULT of rank 0, and its instruction in RESULT0 (R198). -/
def State.loadFails (s : State) (c : Cmd) (g order : Nat) (st : Status) (idx : Nat) : State :=
  let s := match s.groupCells g with
    | c0 :: _ => s.updCell c0 fun x => { x with fault := { status := st, index := order, origin := false, unit := 0, detail := 0, loadInstr := idx } }
    | [] => s
  s.complete c st idx 0 0

/-- A data section goes to a cell: its rank is named, or every rank is (R194). -/
def State.sectionFor (s : State) (d : DataSection) (c : Nat) : Bool := d.rank == 0xFF || d.rank == s.rank c

/-- The first check of R198 that an image fails: its order, its status and the failing instruction. -/
def State.imageCheck (s : State) (p : ProgImage) (len g : Nat) : Option (Nat × Status × Nat) :=
  let cells := s.groupCells g
  let secs := p.sections.getD []
  if !p.check3 len s.dbg.fw.fwClass cells.length then some (3, .cfgMismatch, 0)
  else match check4 p.code with
  | some i => some (4, .instrIllegal, i)
  | none =>
    match check5 p.code with
    | some i => some (5, .instrVMissing, i)
    | none =>
      if !check6 cells.length secs then some (6, .bounds, 0)
      else if cells.any (fun c => secs.any (fun d => s.sectionFor d c && (s.cell c).sealedRange d.addr d.length none)) then
        some (7, .rights, 0)
      else none

/-- A load that passes writes the instruction stores, the data sections and the measurement (R196, R199). -/
def State.loadImage (s : State) (p : ProgImage) (m : Digest) (g : Nat) : State :=
  s.each (s.groupCells g) (fun s c =>
    let secs := (p.sections.getD []).filter (fun d => s.sectionFor d c)
    s.updCell c fun x =>
      let y := secs.foldl (fun (x : Cell) d => x.write d.addr d.data) x
      { y with store := p.code, loaded := true, entry := p.entry, waitLimit := p.waitLimit, measurement := m, buildId := p.buildId })

/-- A load moves what it may; when its image is there, the load takes effect, its pages are unlocked and it completes (R199). One whose group
has another owner since a swap ends with CFG_MISMATCH (DESIGN CHOICE, notes/assumptions/45.md). -/
def State.pumpLoad (s : State) (l : LoadJob) : State :=
  let c := l.cmd
  if s.frozen then s
  else if s.groupOwner l.group != l.tenant then
    (({ s with loads := s.loads.erase l } : State).lockPages l.tenant c.addr c.len false).fail c .cfgMismatch
  else
    let n := s.feedMoves l.group l.tenant (c.len - l.moved)
    let s := s.chargeDma l.tenant n
    if l.moved + n < c.len then
      { s with loads := s.loads.map (fun (q : LoadJob) => if q == l then { l with moved := l.moved + n } else q) }
    else
      let b := s.readVA l.tenant c.addr c.len c.host
      let s := ({ s with loads := s.loads.erase l } : State).lockPages l.tenant c.addr c.len false
      (s.loadImage (readImage b) (Config.digest "program" b) l.group).complete c .ok 0 0
        (if s.allPages l.tenant c.addr c.len (fun p => p.tier != 3) then 0 else flagVaried)

/-- Every load goes on as far as this moment allows. -/
def State.pumpLoads (s : State) : State := s.each s.loads State.pumpLoad

/-- PROG_LOAD: the refusals of R197 and R311, the checks of R198, and the load of R199, which goes on at later ticks where the slots or the
budget do not suffice; its image's pages are write-locked until then. -/
def execProgLoad (c : Cmd) (s : State) : Host.Outcome State Fault Refusal :=
  .next <| s.command 0x40 c fun s =>
    let g := c.a0
    let t := s.groupOwner g
    match firstFail [
        (s.notOwner c g, .rights), ((s.groupCells g).isEmpty, .cfgMismatch),
        (s.ringGroup g || s.groupBusy g || s.groupAwaited g, .cfgLocked), (!s.canFeed g t, .budget)] with
    | some st => s.fail c st
    | none =>
      if !s.mapped t c.addr c.len then s.loadFails c g 1 .xlateFault 0
      else if !s.allPages t c.addr c.len (fun p => p.x) then s.loadFails c g 2 .rights 0
      else if !s.allPages t c.addr c.len (fun p => !p.broken) then s.fail c .memUe
      else
        let b := s.readVA t c.addr c.len c.host
        let p := readImage b
        match s.imageCheck p c.len g with
        | some (o, st, i) => s.loadFails c g o st i
        | none =>
          let l : LoadJob := { cmd := c, group := g, tenant := t, moved := 0 }
          ({ s.lockPages t c.addr c.len true with loads := s.loads ++ [l] } : State).pumpLoad l

/-- The entry that a start names: 0xFFFF selects the header's (R200). -/
def State.entryOf (s : State) (g e : Nat) : Nat :=
  if e = 0xFFFF then (match s.groupCells g with | c :: _ => (s.cell c).entry | [] => 0) else e

/-- No program is loaded on a group, or an entry lies past its instructions (R200). -/
def State.noProgram (s : State) (g e : Nat) : Bool :=
  (s.groupCells g).isEmpty || (s.groupCells g).any (fun c => !(s.cell c).loaded || decide ((s.cell c).store.length ≤ s.entryOf g e))

/-- PROG_START: the refusals of R200 and R311; an accepted start waits for its first slot (R201). DESIGN CHOICE: R200 does not refuse a
start while another of the group is pending; the later one waits until the earlier one's program has ended (notes/assumptions/45.md). -/
def execProgStart (c : Cmd) (s : State) : Host.Outcome State Fault Refusal :=
  .next <| s.command 0x41 c fun s =>
    let g := bits c.a0 0 16
    let e := bits c.a0 16 16
    match firstFail [
        (s.notOwner c g, .rights), (s.ringGroup g || s.groupBusy g, .cfgLocked), (s.noProgram g e, .instrIllegal),
        (!s.ownsSlot .cellGroup g (s.groupOwner g), .budget)] with
    | some st => s.fail c st
    | none =>
      { s with progs := s.progs ++ [
        { group := g, entry := s.entryOf g e, args := [c.a1, c.a2, c.a3, c.a4], cmd := c, begun := false, at_ := s.pos }] }

/-! ### Barriers (R84 to R88) -/

/-- Member numbers below `n` whose bit is set. -/
def memberBits (v n : Nat) : List Nat := (List.range n).filter (bitAt v)

/-- Read an armed barrier from a work block of R88. -/
def parseBarrier (pos t : Nat) (b : List Byte) (cmd : Option Cmd) (cid : Nat) : Barrier :=
  { pos := pos, tenant := t, kind := field b 0 1, group := field b 1 1, engine := field b 2 1, entry := field b 4 2,
    count := field b 6 2, chain := field b 8 8, args := (List.range 4).map (fun i => field b (0x10 + 8 * i) 8),
    members := memberBits (field b 0x40 32) 256, cmd := cmd, cid := cid }

/-- The block's fields are in range, its reserved bytes and unused fields 0, and no member bit is at or above E (R88). -/
def barrierFieldsOk (b : List Byte) (e : Nat) : Bool :=
  let kind := field b 0 1
  decide (kind ≤ 1) && field b 3 1 == 0 && zeroAt b 0x30 16 && decide (field b 0x40 32 < 2 ^ e) &&
  (if kind = 0 then decide (field b 1 1 < 64) && field b 2 1 == 0 && field b 6 2 == 0 && field b 8 8 == 0
   else field b 1 1 == 0 && decide (field b 2 1 < 32) && field b 4 2 == 0 && decide (1 ≤ field b 6 2) && decide (field b 6 2 ≤ 4096) &&
     field b 8 8 % 64 == 0 && decide (field b 8 8 < 2 ^ 48) && zeroAt b 0x10 32)

/-- The arming tenant owns the group or the engine on every named member (R88). -/
def State.barrierOwned (s : State) (b : Barrier) : Bool :=
  let c := s.jig.cfg
  b.members.all (fun m =>
    if b.kind = 0 then c.groupTenant m b.group == b.tenant
    else (c.table m .dma b.engine).any (fun e => e % 16 == b.tenant))

/-- Most barriers an engine holds armed (R85). -/
def maxBarriers : Nat := 64

/-- Arm a barrier on this member where it is named, or as the coordinator that took the command (R85). -/
def State.armBarrier (s : State) (b : Barrier) : State :=
  { s with spn := { s.spn with barriers := s.spn.barriers ++ [b] } }

/-- BARRIER_ARM: the refusals of R85 and R88; an accepted barrier is armed and carried to the members in barrier frames. `unloaded` names
the other members on which the group has no program with such an entry, as they answer. -/
def execBarrierArm (c : Cmd) (s : State) (unloaded : List Nat := []) : Host.Outcome State Fault Refusal :=
  .next <| s.command 0x42 c fun s =>
    let t := cmdActs c
    match firstFail [(!s.jig.loaded || (decide (2 ≤ s.bigE) && !s.isCoord), .cfgLocked), (c.len != 96, .bounds)],
        s.blockFail t c.addr 96 (fun p => p.r) with
    | some st, _ => s.fail c st
    | none, some st => s.fail c st
    | none, none =>
      let blk := s.readVA t c.addr 96 c.host
      let b := parseBarrier c.a0 t blk (some c) c.cid
      match firstFail [
          (!barrierFieldsOk blk s.bigE, .bounds), (!s.barrierOwned b, .rights),
          (b.kind == 0 && b.members.any (fun m => if m = s.jig.me then s.noProgram b.group b.entry else unloaded.contains m),
            .instrIllegal),
          (decide (b.pos < s.pos + 2 * s.turnTicks), .barrierTimeout), (decide (maxBarriers ≤ s.spn.barriers.length), .budget),
          (!barrierSlots s.jig.cfg s.spn.k b, .budget)] with
      | some st => s.fail c st
      | none =>
        let s := s.armBarrier b
        if s.bigE ≤ 1 then s else s.sendDevice (.barrier b.pos (Fin.ofNat 8 t) blk c.cid)

/-- The command as which a barrier's work completes: in queue pair 0 of the tenant's function, with the CID of the
BARRIER_ARM (R88). -/
def workCmd (b : Barrier) : Cmd := { fn := Fin.ofNat 8 b.tenant, qp := 0, cid := b.cid, tenant := b.tenant }

/-- A member starts a barrier's work, or its work completes with the refusal that PROG_START or DMA_SUBMIT would give (R88,
R201). -/
def State.startWork (s : State) (b : Barrier) : State :=
  let c := workCmd b
  if b.kind = 0 then
    if s.noProgram b.group b.entry then s.fail c .instrIllegal
    else if (s.groupCells b.group).any (fun x => (s.cell x).clearing) then s.fail c .cfgLocked
    else
      let r : ProgRun := { group := b.group, entry := s.entryOf b.group b.entry, args := b.args, cmd := c, begun := true, at_ := s.pos }
      State.beginRun { s with progs := s.progs ++ [r] } r
  else
    match s.blockFail b.tenant b.chain (64 * b.count) (fun p => p.r) with
    | some st => s.fail c st
    | none =>
      let ds := chainOf (s.readVA b.tenant b.chain (64 * b.count) ((b.cmd.map (fun c => c.host.drop 96)).getD [])) b.count
      s.setWork b.tenant b.engine (s.work b.tenant b.engine ++ [
        { source := .cmd c, descs := ds, idx := 0, off := 0, preempted := false, resumed := false, varied := false,
          begun := false, round := none }])

/-- This member cannot start at the position: it is frozen, holds over, has stopped issue, comes late, or its group runs (R87,
R201). -/
def State.cannotStart (s : State) (b : Barrier) : Bool :=
  s.frozen || s.spn.source == .holdover || s.spn.stopped || s.pos != b.pos + 2 ||
  (b.kind == 0 && (s.groupCells b.group).any (fun c => (s.cell c).running))

/-- BARRIER_START: at P_b + 2 ticks the member starts the work or misses it, which it reports; on the coordinator the command completes,
and the members that missed are declared lost (R45, R84, R87, R88). -/
def execBarrierStart (missed : List Nat) (s : State) : Host.Outcome State Fault Refusal :=
  match s.spn.barriers.find? (fun b => decide (b.pos + 2 ≤ s.pos)) with
  | none => .next s
  | some b =>
    let s := { s with spn := { s.spn with barriers := s.spn.barriers.erase b } }
    let mine := b.members.contains s.jig.me
    let miss := mine && s.cannotStart b
    let s := if miss then
        let s1 : State := { s with spn := { s.spn with missed := satAdd 16 s.spn.missed 1, ceased := true } }
        if s.inAssembly then s1.sendDevice (.timeout s.jig.me) else s1
      else if mine then s.startWork b else s
    .next (match b.cmd with
      | none => s
      | some c =>
        let gone := missed.filter (fun m => b.members.contains m && m != s.jig.me)
        let s := s.each gone State.declareLost
        s.fail c (if miss || !gone.isEmpty then .barrierTimeout else .ok))

/-! ### Clearing cells, and the modulus table (R126, R134, R190) -/

/-- CELL_CLEAR: the clear that runs on a cell ends; its groups end without a close record (R126, R191). -/
def execCellClear (c : CellId) (s : State) : Host.Outcome State Fault Refusal :=
  let x := s.cell c.val
  if x.clearing then
    let s1 := s.each (x.openGroups.filter (fun g => (x.group g).windowOpen)) (fun s g =>
      s.lockPages (x.group g).owner (x.group g).termSource (x.group g).termLength false)
    .next (s1.setCell c.val x.cleared)
  else .next s

/-- BAR0 offset of CEL_MODULUS of a cell's entry. -/
def modulusOffset (c n : Nat) : Nat := 0x00400100 + 0x4000 * c + 8 * n

/-- CEL_MODULUS_WRITE: the engine starts to compute the constants of a new q, or the write is discarded (R134, R311). DESIGN CHOICE: while
BUSY reads 1, QINV and RSQ keep the constants of the entry before (notes/assumptions/45.md). -/
def execCelModulusWrite (fn : FnId) (c : CellId) (n : Fin 16) (value : Word64) (s : State) : Host.Outcome State Fault Refusal :=
  .next <| s.ifWritable fun s =>
    let off := modulusOffset c.val n.val
    if fn.val != 0 && s.cellTenant c.val != fn.val then s.windowMiss fn.val off true
    else
      let q := bits value.toNat 0 32
      if q % 2 = 0 || q < 3 || decide (2 ^ 31 ≤ q) || (s.cell c.val).running || s.ringGroup (s.cellGroup c.val) then s.discarded fn.val off value.toNat
      else s.updCell c.val fun x => { x with
        modulus := Tab.put {} x.modulus n.val { Tab.look {} x.modulus n.val with q := q, valid := false, busy := true } }

/-- MODULUS_CONSTANTS_READY: QINV and RSQ are in place (R134). -/
def execModulusConstantsReady (c : CellId) (n : Fin 16) (s : State) : Host.Outcome State Fault Refusal :=
  let e := Tab.look {} (s.cell c.val).modulus n.val
  .next <| if e.busy then
    s.updCell c.val fun x => { x with
      modulus := Tab.put {} x.modulus n.val { q := e.q, valid := true, busy := false, qinv := qinvOf e.q, rsq := rsqOf e.q } }
  else s

/-- A cell without the sealed blocks of a round: they are zero and their bits clear (R190). -/
def Cell.unsealed (x : Cell) (h : Nat) : Cell :=
  let mine := fun (b : Nat) => Tab.look 0 x.seals b == h + 1
  { x with sram := x.sram.filter (fun c => !mine (c.1 / 4096)), seals := x.seals.filter (fun e => e.2 != h + 1) }

/-- SEALED_CLEAR: once the round is RELEASED or ABORTED, the cell zeroes its sealed blocks of the round, in the owner's slots
(R190). -/
def execSealedClear (c : CellId) (h : Handle) (s : State) : Host.Outcome State Fault Refusal :=
  let r := s.round h.val
  let slot := s.cellGroup c.val == 0xFF || s.inSlot .cellGroup (s.cellGroup c.val) (s.cellTenant c.val)
  .next <| if r.sealedCells.contains c.val && slot && !s.frozen then
    let l := r.sealedCells.filter (fun d => d != c.val)
    (s.updCell c.val fun x => x.unsealed h.val).updRound h.val fun r => { r with
      sealedCells := l, clearedAt := if l.isEmpty then some s.pos else none }
  else s

end Sys2Proof.Machine
end

