-- ==== Sys2Proof/Machine/Clock.lean ====
section
/-! DEFINITION. Machine/Clock.lean: the passing of time (R50, R60), and the work that waits for its slot and goes on as time passes
(R64, R70, R199, R201, R424; notes/assumptions/6.md). -/

namespace Sys2Proof.Machine

/-- What waits for a slot, a budget or a port goes on as far as this tick allows: frames and packets, then programs whose first owned slot
has come. -/
def State.serve (s : State) : State := s.drainFrames.pumpAll.pumpLoads.pumpEvks.beginPrograms

/-- One Spindle tick: the position counter counts while it runs (R50), and what waits is served. -/
def State.tick (s : State) : State :=
  if s.counting then ({ s with spn := { s.spn with pos := wrapAdd 64 s.spn.pos 1 } } : State).serve else s

end Sys2Proof.Machine
end

