-- ==== Sys2Proof/Machine/Etkai.lean ====
section
/-! DEFINITION. Machine/Etkai.lean: regions, endpoints, work requests and Etkai packets (R426 to R452). -/

namespace Sys2Proof.Machine

/-! ### Regions (R435 to R440) -/

/-- The region of an index. -/
def State.region (s : State) (i : Nat) : Option Region := (s.fab.regions.find? (fun x => x.1 == i)).map (fun x => x.2)
/-- Change the region of an index. -/
def State.updRegion (s : State) (i : Nat) (f : Region → Region) : State :=
  s.updFab fun x => { x with regions := x.regions.map (fun y => if y.1 == i then (i, f y.2) else y) }
/-- Generations an index has carried. -/
def State.generations (s : State) (i : Nat) : Nat := Tab.look 0 s.fab.regionGen i
/-- The current region key of an index (R436). -/
def State.regionKey (s : State) (i : Nat) : Nat := i * 4096 + (s.generations i - 1)
/-- Regions an engine holds at most (R435). -/
def maxRegions : Nat := 65536
/-- Bytes of the operation-bitmap pool (R377). -/
def opmapPool : Nat := 2 ^ 30
/-- Bytes of the pool in use: FAB_OPMAP (R440). -/
def State.opmapUsed (s : State) : Nat := (s.fab.regions.map (fun x => if bitAt x.2.rights 1 then x.2.ops * 32 else 0)).sum

/-- Read the block of R435. -/
def parseRegion (t : Nat) (b : List Byte) : Region × Nat :=
  ({ tenant := t, va := field b 0 8, length := field b 8 8, rights := field b 20 1, scope := field b 21 1, format := field b 22 1,
     prefixLen := field b 23 1, q := field b 24 4, ops := field b 28 4, notifyEp := field b 32 2, prefixAddr := field b 48 16,
     applied := [] }, field b 16 4)

/-- Check 2 of R435. -/
def State.regionFieldsOk (s : State) (r : Region) (i : Nat) (b : List Byte) : Bool :=
  let acc := bitAt r.rights 1
  r.va % 64 == 0 && r.length % 64 == 0 && decide (64 ≤ r.length) && decide (r.length ≤ 2 ^ 40) && decide (r.va + r.length ≤ 2 ^ 48) &&
  decide (i ≤ 2 ^ 20 - 1) && decide (r.rights < 8) && decide (1 ≤ r.scope) && decide (r.scope < 4) &&
  (if acc then decide (r.format ≤ 2) && decide (1 ≤ r.ops) && decide (r.ops ≤ 65536) else r.format == 0 && r.ops == 0) &&
  (if acc && r.format == 2 then r.q % 2 == 1 && decide (3 ≤ r.q) && decide (r.q < 2 ^ 31) else r.q == 0) &&
  (if bitAt r.scope 1 then decide (r.prefixLen ≤ 128) else r.prefixLen == 0 && r.prefixAddr == 0) &&
  (if bitAt r.rights 2 then decide (r.notifyEp < 8192) && (s.ep r.notifyEp).state != 0 && (s.ep r.notifyEp).tenant == r.tenant
   else r.notifyEp == 0) && zeroAt b 34 14

/-- An index that no region has and that is not retired (R436). -/
def State.indexFree (s : State) (i : Nat) : Bool := (s.region i).isNone && decide (s.generations i < 4096)

/-- REGION_REGISTER: the checks of R435 in order; the completion carries the region key (R436). -/
def execRegionRegister (c : Cmd) (s : State) : Host.Outcome State Fault Refusal :=
  .next <| s.command 0x20 c fun s =>
    let t := cmdActs c
    match firstFail [(c.len != 64, .bounds)], s.blockFail t c.addr 64 (fun p => p.r) with
    | some st, _ => s.fail c st
    | none, some st => s.fail c st
    | none, none =>
      let b := s.readVA t c.addr 64 c.host
      let (r, want) := parseRegion t b
      let pages := fun (p : Page) => p.w && !p.sealed_ && (!bitAt r.rights 1 || p.acc)
      match firstFail [
          (!s.regionFieldsOk r want b, .bounds), (!s.mapped t r.va r.length, .xlateFault),
          (!s.allPages t r.va r.length pages, .rights),
          (want != 0xFFFFF && decide (4096 ≤ s.generations want) && (s.region want).isNone, .keySpent),
          ((want != 0xFFFFF && (s.region want).isSome) || decide (maxRegions ≤ s.fab.regions.length), .quotaExceeded),
          (bitAt r.rights 1 && decide (opmapPool < s.opmapUsed + r.ops * 32), .quotaExceeded)] with
      | some st => s.fail c st
      | none =>
        match (if want = 0xFFFFF then (List.range (2 ^ 20 - 1)).find? s.indexFree else some want) with
        | none => s.fail c .quotaExceeded
        | some i =>
          let g := s.generations i
          (s.updFab fun x => { x with
            regions := x.regions ++ [(i, r)], regionGen := Tab.put 0 x.regionGen i (g + 1) }).complete c .ok (i * 4096 + g) 0 0

/-- A command that names a region key: it must be current and the tenant's (R436, R454). -/
def State.keyNamed (s : State) (t key : Nat) : Option Status :=
  match s.region (key / 4096) with
  | none => some .keyAbsent
  | some r => if r.tenant != t then some .rights else if key % 4096 + 1 != s.generations (key / 4096) then some .keyStale else none

/-- REGION_DEREGISTER: takes effect at once; pages are unpinned and the bitmap returns to the pool (R439, R440). -/
def execRegionDeregister (c : Cmd) (s : State) : Host.Outcome State Fault Refusal :=
  .next <| s.command 0x21 c fun s =>
    match s.keyNamed (cmdActs c) c.a0 with
    | some st => s.fail c st
    | none => (s.updFab fun x => { x with regions := x.regions.filter (fun y => y.1 != c.a0 / 4096) }).ok c

/-- REGION_REKEY: the generation rises by 1 and the bitmap is cleared; KEY_SPENT past 4,095 (R436, R439, R440). -/
def execRegionRekey (c : Cmd) (s : State) : Host.Outcome State Fault Refusal :=
  .next <| s.command 0x22 c fun s =>
    let i := c.a0 / 4096
    match s.keyNamed (cmdActs c) c.a0 with
    | some st => s.fail c st
    | none =>
      if 4096 ≤ s.generations i then s.fail c .keySpent
      else
        let g := s.generations i
        ((s.updRegion i fun r => { r with applied := [] }).updFab fun x => { x with
          regionGen := Tab.put 0 x.regionGen i (g + 1) }).complete c .ok (i * 4096 + g) 0 0

/-! ### Endpoints (R442, R447) -/

/-- A power of two between two bounds. -/
def powerBetween (lo hi n : Nat) : Bool := decide (lo ≤ n) && decide (n ≤ hi) && decide (2 ^ log2Floor n = n)

/-- Endpoint contexts that are resident, at most 1,024 (R442). -/
def State.residents (s : State) : Nat := (s.fab.eps.filter (fun e => e.2.state == 1 || e.2.state == 3)).length
/-- Most resident endpoints. -/
def maxResident : Nat := 1024

/-- Read the block of R442. -/
def parseEndpoint (t : Nat) (b : List Byte) : Endpoint :=
  { state := 1, tenant := t, sqBase := field b 0 8, rqBase := field b 8 8, cqBase := field b 16 8, sqSize := field b 24 2,
    rqSize := field b 26 2, cqSize := field b 28 2 }

/-- ENDPOINT_CREATE: resident where fewer than 1,024 are, and parked otherwise (R442). -/
def execEndpointCreate (c : Cmd) (s : State) : Host.Outcome State Fault Refusal :=
  .next <| s.command 0x28 c fun s =>
    let t := cmdActs c
    match firstFail [(c.len != 64, .bounds)], s.blockFail t c.addr 64 (fun p => p.r) with
    | some st, _ => s.fail c st
    | none, some st => s.fail c st
    | none, none =>
      let b := s.readVA t c.addr 64 c.host
      let e := parseEndpoint t b
      let baseOk := fun (a : Nat) => a % 64 == 0 && decide (a < 2 ^ 48)
      match firstFail [
          (!baseOk e.sqBase || !baseOk e.rqBase || !baseOk e.cqBase || !powerBetween 16 4096 e.sqSize || !powerBetween 16 4096 e.rqSize ||
            !powerBetween (e.sqSize + e.rqSize) 8192 e.cqSize || !zeroAt b 30 34, .bounds)],
          (List.range 8192).find? (fun i => (s.ep i).state == 0) with
      | some st, _ => s.fail c st
      | none, none => s.fail c .quotaExceeded
      | none, some i =>
        let parked := decide (maxResident ≤ s.residents)
        (s.setEp i { e with state := if parked then 2 else 1 }).complete c .ok (i + 2 ^ 16 * b2n parked) 0 0

/-- A command that names an endpoint of its tenant (R454). -/
def State.epNamed (s : State) (c : Cmd) : Option Status :=
  firstFail [(decide (8191 < c.a0), .bounds), ((s.ep c.a0).state == 0 || (s.ep c.a0).tenant != cmdActs c, .rights)]

/-- ENDPOINT_PARK: no more requests are taken and reassemblies are discarded; it completes once every message sent has (R447). -/
def execEndpointPark (c : Cmd) (s : State) : Host.Outcome State Fault Refusal :=
  .next <| s.command 0x29 c fun s =>
    match s.epNamed c with
    | some st => s.fail c st
    | none =>
      let e := s.ep c.a0
      if e.state = 2 then s.ok c
      else if e.state = 3 then s.fail c .cfgLocked
      else
        (s.setEp c.a0 { e with
          state := 3, spare := e.spare ++ e.reasm.map (fun r => r.entry), reasm := [], parkCmd := some c }).tryPark c.a0

/-- ENDPOINT_UNPARK: QUOTA_EXCEEDED while 1,024 endpoints are resident (R447). -/
def execEndpointUnpark (c : Cmd) (s : State) : Host.Outcome State Fault Refusal :=
  .next <| s.command 0x2A c fun s =>
    match s.epNamed c with
    | some st => s.fail c st
    | none =>
      let e := s.ep c.a0
      if e.state = 1 then s.ok c
      else if e.state = 3 then s.fail c .cfgLocked
      else if maxResident ≤ s.residents then s.fail c .quotaExceeded
      else (s.setEp c.a0 { e with state := 1 }).ok c

/-! ### Doorbells (R445) -/

/-- BAR0 offset of FAB_EP_DOORBELL of endpoint `e`: the FAB block's base and 0x2_0000. -/
def doorbellOffset (e : Nat) : Nat := 0x00C20000 + 8 * e

/-- A doorbell write of an endpoint: a VF reaches those of its own endpoints; one to a parked endpoint is discarded (R445, R447,
R453). -/
def State.doorbell (s : State) (fn e : Nat) (f : Endpoint → Endpoint) : State :=
  s.ifWritable fun s =>
    let x := s.ep e
    if fn != 0 && (x.state == 0 || x.tenant != fn) then s.windowMiss fn (doorbellOffset e) true
    else if x.state = 1 then s.setEp e (f x) else s

/-- EP_SQ_TAIL (R445). -/
def execEpSqTail (fn : FnId) (ep : EpId) (tail : Nat) (s : State) : Host.Outcome State Fault Refusal :=
  .next (s.doorbell fn.val ep.val fun x => { x with sqTail := tail % 4096 % x.sqSize })
/-- EP_RQ_TAIL (R445). -/
def execEpRqTail (fn : FnId) (ep : EpId) (tail : Nat) (s : State) : Host.Outcome State Fault Refusal :=
  .next (s.doorbell fn.val ep.val fun x => { x with rqTail := tail % 4096 % x.rqSize })
/-- EP_CQ_HEAD (R445). -/
def execEpCqHead (fn : FnId) (ep : EpId) (head : Nat) (s : State) : Host.Outcome State Fault Refusal :=
  .next (s.doorbell fn.val ep.val fun x => { x with cqHead := head % 8192 % x.cqSize })

/-! ### Work requests (R443, R445, R449) -/

/-- Read a work request (R443). -/
def parseReq (b : List Byte) : WorkReq :=
  { kind := field b 0 1, flags := field b 1 1, format := field b 2 1, dstTenant := field b 3 1, dstEp := field b 4 2,
    dstMember := field b 6 2, regionKey := field b 8 4, opId := field b 12 4, localVa := field b 16 8, length := field b 24 4,
    tag := field b 28 2, dstUdp := if field b 30 2 = 0 then 48620 else field b 30 2, remoteOffset := field b 32 8,
    dstIpv6 := field b 40 16, reservedZero := zeroAt b 56 8 }

/-- A request that R443 gives a KIND. -/
def kindKnown (k : Nat) : Bool := [1, 2, 3, 4, 0x10, 0x11].contains k
/-- PUSH or BCAST. -/
def WorkReq.collective (w : WorkReq) : Bool := w.kind == 0x10 || w.kind == 0x11

/-- Fields of a request in range (R443). -/
def WorkReq.fieldsOk (w : WorkReq) : Bool :=
  kindKnown w.kind && decide (w.flags < 4) && decide (w.dstTenant < 8) && decide (1 ≤ w.length) && decide (w.length ≤ 2 ^ 20) &&
  (!w.collective || (w.length % 64 == 0 && !w.eth)) && (w.kind != 1 || w.regionKey == 0) &&
  (w.kind != 4 || decide (w.format ≤ 2)) && (!w.collective || decide (w.format ≤ 2) || w.format == 0xFF) && w.reservedZero &&
  decide (w.localVa + w.length ≤ 2 ^ 48)

/-- Members that a PUSH or BCAST goes to (R449). -/
def State.destinations (s : State) (w : WorkReq) : List Nat :=
  if w.kind = 0x10 then [w.dstMember] else (List.range s.bigE).filter (fun m => m != s.jig.me)

/-- The tenant's link budget on a port is 0 in the committed jig (R71). -/
def State.noBudget (s : State) (t : Nat) (p : Option Nat) : Bool :=
  match p with | some p => s.linkBudgetFull t p == 0 | none => false

/-- The checks of R71, R445 and R449 before anything is sent. -/
def State.reqFail (s : State) (t : Nat) (w : WorkReq) : Option Status :=
  let pages := fun (p : Page → Bool) => s.allPages t w.localVa w.length p
  let routes := fun (m : Nat) => match s.routeTo m with | some r => s.ownsRoute true t s.jig.me r.ports | none => false
  firstFail [
    (!w.fieldsOk, .bounds), (!w.collective && !bitAt w.flags 0, .instrVMissing), (w.collective && bitAt w.flags 0, .instrIllegal),
    (!s.mapped t w.localVa w.length, .xlateFault), (!pages (fun p => p.r && !p.sealed_), .rights),
    (w.collective && !pages (fun p => p.tier != 3), .rights), (!pages (fun p => !p.broken), .memUe),
    (if w.collective then !(s.destinations w).all routes || (s.destinations w).any (fun m => s.noBudget t ((s.routeTo m).bind (fun r => r.ports.head?)))
     else (s.egress t w).isNone || s.noBudget t (s.egress t w), .budget)]

/-- Send a PUSH or BCAST to one member, in frames of up to 4,096 bytes on its route (R418, R449). -/
def State.pushTo (s : State) (t : Nat) (w : WorkReq) (data : List Byte) (m : Nat) : State :=
  match (s.routeTo m).bind (fun r => r.ports.head?) with
  | none => s
  | some p =>
    let n := ceilDiv data.length 4096
    s.each (List.range n) (fun s i =>
      let bs := (data.drop (4096 * i)).take 4096
      s.sendFrame { port := p, owner := t, sched := true, len := scheduledCharge bs.length, dest := some m,
                    out := .pushFrame p m w.regionKey (w.remoteOffset + 4096 * i) w.format bs (i + 1 == n) })

/-- A PUSH or BCAST that would go out waits while the first port of a destination's route is out of service (R422). -/
def State.pushHeld (s : State) (t : Nat) (w : WorkReq) : Bool :=
  w.collective && (s.reqFail t w).isNone &&
  (s.destinations w).any (fun m => match (s.routeTo m).bind (fun r => r.ports.head?) with | some p => (s.port p).state != 1 | none => false)

/-- Take the request at the head of the send queue of endpoint `e`, where it is of this kind: its checks, then it is sent (R445, R449).
`host` holds the request where its queue lies in a HOST page, and after 64 bytes the data where LOCAL_VA does. -/
def State.takeReq (s : State) (e kind : Nat) (host : List Byte) : State :=
  let x := s.ep e
  if x.state != 1 || x.sqHead == x.sqTail || !s.issuing x.tenant then s
  else
    let w := parseReq (s.readVA x.tenant (x.sqBase + 64 * x.sqHead) 64 host)
    if !(w.kind == kind || (kind == 1 && !kindKnown w.kind)) || s.pushHeld x.tenant w then s
    else
      let s := s.setEp e { x with sqHead := (x.sqHead + 1) % x.sqSize, nextMsg := x.nextMsg + 1 }
      match s.reqFail x.tenant w with
      | some st => s.reqDone e w st 0 x.nextMsg
      | none =>
        let data := s.readVA x.tenant w.localVa w.length (host.drop 64)
        if w.collective then
          let ms := s.destinations w
          if ms.isEmpty then s.reqDone e w .ok 0 x.nextMsg
          else
            (s.updEp e fun x => { x with
              pushes := x.pushes ++ [{ id := x.nextMsg - 1, req := w, waiting := ms, refused := [] }] }).each ms (fun s m =>
                s.pushTo x.tenant w data m)
        else
          let pkts := (List.range (ceilDiv data.length 4096)).map (fun i =>
            { idx := i, sends := 0, tries := 0, naks := 0, sentAt := 0, number := 0, waitUntil := none : SendPkt })
          (s.updEp e fun y => { y with
            sends := y.sends ++ [{ msgId := x.nextMsg, req := w, data := data, left := pkts, retransmitted := false }] }).pump e

/-- WR_SEND; the row also takes a request whose KIND R443 does not give, which completes with BOUNDS (R445). -/
def execWrSend (ep : EpId) (host : List Byte) (s : State) : Host.Outcome State Fault Refusal := .next (s.takeReq ep.val 1 host)
/-- WR_WRITE (R445). -/
def execWrWrite (ep : EpId) (host : List Byte) (s : State) : Host.Outcome State Fault Refusal := .next (s.takeReq ep.val 2 host)
/-- WR_WRITE_NOTIFY (R445). -/
def execWrWriteNotify (ep : EpId) (host : List Byte) (s : State) : Host.Outcome State Fault Refusal := .next (s.takeReq ep.val 3 host)
/-- WR_ACC_ADD (R445). -/
def execWrAccAdd (ep : EpId) (host : List Byte) (s : State) : Host.Outcome State Fault Refusal := .next (s.takeReq ep.val 4 host)
/-- PUSH (R449). -/
def execPush (ep : EpId) (host : List Byte) (s : State) : Host.Outcome State Fault Refusal := .next (s.takeReq ep.val 0x10 host)
/-- BCAST (R449). -/
def execBcast (ep : EpId) (host : List Byte) (s : State) : Host.Outcome State Fault Refusal := .next (s.takeReq ep.val 0x11 host)

/-! ### Acknowledgements, NAKs and timers (R428 to R434) -/

/-- The window halves, never below 1, and at most once among the packets of one window (R430). -/
def Flow.halve (f : Flow) (number : Nat) : Flow :=
  if f.halved < number then { f with window := max 1 (f.window / 2), halved := f.sent, acks := 0 } else f
/-- An acknowledgement: the window grows by 1 after each window's worth, up to 256 (R430). -/
def Flow.acked (f : Flow) : Flow :=
  if f.window ≤ f.acks + 1 then { f with window := min 256 (f.window + 1), acks := 0 } else { f with acks := f.acks + 1 }
/-- A round trip measured on a packet sent once, in ticks (R431, RFC 6298; kept in whole ticks, DESIGN CHOICE 20). -/
def Flow.measure (f : Flow) (r : Nat) : Flow :=
  match f.rtt with
  | none => { f with rtt := some (8 * r, 2 * r) }
  | some (a, v) =>
    let d := if a / 8 ≤ r then r - a / 8 else a / 8 - r
    { f with rtt := some (a - a / 8 + r, v - v / 4 + d) }
/-- RTO in ticks: at least 8 µs on the fabric and 50 µs over Ethernet, four times that before a measurement (R431). -/
def Flow.rto (f : Flow) (eth : Bool) : Nat :=
  let lo := if eth then 5000 else 800
  match f.rtt with | none => 4 * lo | some (a, v) => max lo (a / 8 + v)

/-- The message and the unacknowledged packet that an answer names. -/
def State.sendingOf (s : State) (e msgId idx : Nat) : Option (SendMsg × SendPkt) :=
  match (s.ep e).sends.find? (fun m => m.msgId == msgId) with
  | none => none
  | some m => (m.left.find? (fun k => k.idx == idx && decide (0 < k.sends))).map (fun k => (m, k))

/-- ETKAI_ACK: the packet is acknowledged; a message whose every packet is completes (R428 to R431, R445). In a freeze nothing is taken
(R91). -/
def execEtkaiAck (ep : EpId) (msgId index : Nat) (ece dup : Bool) (s : State) : Host.Outcome State Fault Refusal :=
  .next <|
    if s.frozen then s else
    match s.sendingOf ep.val msgId index with
    | none => s
    | some (m, k) =>
      let f := (s.flow (flowKey ep.val m.req)).acked
      let f := if k.sends = 1 then f.measure (s.pos - k.sentAt) else f
      let f := if ece then f.halve k.number else f
      let m := { m with left := m.left.filter (fun y => y.idx != index), retransmitted := m.retransmitted || dup }
      let s := s.updFab fun x => { x with flows := x.flows.map (fun y => if y.key == f.key then f else y) }
      if m.left.isEmpty then (s.endMsg ep.val m .ok).pump ep.val
      else (s.updEp ep.val fun x => { x with sends := x.sends.map (fun y => if y.msgId == msgId then m else y) }).pump ep.val

/-- Change the flow of a message. -/
def State.updFlow (s : State) (key : Nat) (f : Flow → Flow) : State :=
  s.updFab fun x => { x with flows := x.flows.map (fun y => if y.key == key then f y else y) }

/-- A message ends because its peer is parked or out of reach: counted in FAB_FLOWS (R431, R432). -/
def State.peerEnds (s : State) (e : Nat) (m : SendMsg) (st : Status) : State :=
  let s := match st with
    | .peerUnreachable => s.updFab fun x => { x with unreachable := satAdd 16 x.unreachable 1 }
    | .peerParked => s.updFab fun x => { x with parkedPeer := satAdd 16 x.parkedPeer 1 }
    | _ => s
  s.endMsg e m st

/-- ETKAI_NAK: ENDPOINT_PARKED and BUDGET are retried after a wait, 63 times; any other status ends the message (R428, R432). In a
freeze nothing is taken (R91). -/
def execEtkaiNak (ep : EpId) (msgId index : Nat) (st : Status) (s : State) : Host.Outcome State Fault Refusal :=
  .next <|
    if s.frozen then s else
    match s.sendingOf ep.val msgId index with
    | none => s
    | some (m, k) =>
      if st == .endpointParked || st == .budget then
        let j := k.naks + 1
        let s := s.updFlow (flowKey ep.val m.req) (fun f => f.halve k.number)
        if 64 ≤ j then (s.peerEnds ep.val m (if st = .endpointParked then .peerParked else .budget)).pump ep.val
        else s.updPkt ep.val msgId index fun y => { y with
          naks := j, tries := 0, waitUntil := some (s.pos + min (2500 * 2 ^ (j - 1)) 160000) }
      else (s.endMsg ep.val m st).pump ep.val

/-- RTO_EXPIRE: a packet unacknowledged after its RTO, doubled for each timeout up to 8 ms, is sent again with RETX; after 17 sendings
the message ends with PEER_UNREACHABLE (R431). -/
def execRtoExpire (ep : EpId) (msgId index : Nat) (s : State) : Host.Outcome State Fault Refusal :=
  .next <|
    match s.sendingOf ep.val msgId index with
    | none => s
    | some (m, k) =>
      let key := flowKey ep.val m.req
      let rto := min ((s.flow key).rto m.req.eth * 2 ^ (k.tries - 1)) 800000
      if !k.inFlight || s.frozen || decide (s.pos < k.sentAt + rto) then s
      else
        let s := s.updFlow key (fun f => f.halve k.number)
        if 17 ≤ k.tries then (s.peerEnds ep.val m .peerUnreachable).pump ep.val else s.sendPkt ep.val m k

/-- NAK_RETRY: the wait after a retryable NAK ends and the packet is sent again (R432). -/
def execNakRetry (ep : EpId) (msgId index : Nat) (s : State) : Host.Outcome State Fault Refusal :=
  .next <|
    match s.sendingOf ep.val msgId index with
    | none => s
    | some (m, k) =>
      match k.waitUntil with
      | some p => if s.due p && decide (s.inFlight ep.val (flowKey ep.val m.req) < (s.flow (flowKey ep.val m.req)).window)
          then s.sendPkt ep.val m k else s
      | none => s

/-- FLOW_IDLE_DROP: a flow that has sent nothing for 64 turns is dropped (R434). -/
def execFlowIdleDrop (flow : Nat) (s : State) : Host.Outcome State Fault Refusal :=
  .next (if s.frozen then s else
    s.updFab fun x => { x with flows := x.flows.filter (fun f => f.key != flow || decide (s.turn < f.lastTurn + 64)) })

/-- REASSEMBLY_TIMEOUT: a reassembly with no packet for 64 ms is discarded, and its buffer serves the next message (R446). -/
def execReassemblyTimeout (ep : EpId) (srcEp srcMember msgId : Nat) (s : State) : Host.Outcome State Fault Refusal :=
  let x := s.ep ep.val
  let old := fun (r : Reasm) => r.srcEp == srcEp && r.srcMember == srcMember && r.msgId == msgId && decide (r.last + 6400000 ≤ s.pos)
  .next <| if s.frozen then s else s.setEp ep.val { x with
    reasm := x.reasm.filter (fun r => !old r), spare := x.spare ++ (x.reasm.filter old).map (fun r => r.entry) }

/-! ### Arriving packets (R427, R428, R438, R440, R446, R450) -/

/-- A packet that cannot be attributed to a tenant or an endpoint is dropped and counted (R428; in FAB_ETH_DROP.UNKNOWN). -/
def State.dropPacket (s : State) (p : Nat) : State :=
  s.updPort p fun x => { x with drops := Tab.put 0 x.drops 3 (satAdd 16 (Tab.look 0 x.drops 3) 1) }

/-- A packet as it arrives, its fields at their offsets (R426); the row gives the OP, and a header that is no DATA packet of it, whose
PAYLOAD_LENGTH is not that of its payload, or that breaks the table otherwise, is malformed. -/
def packetOf (op : Nat) (x : PacketIn) : Packet :=
  let f := field x.head
  { formOk := f 0 4 == 0x4B544558 && f 4 1 == 1 && f 5 1 == 1 && f 6 1 == op && decide (f 7 1 < 8) &&
      (op == 3 || (f 9 1 == 0 && f 0x28 4 == 0)) && (op != 0 || f 0x14 4 == 0) && f 0x12 2 == x.payload.length
    op := op, retx := bitAt (f 7 1) 0, ece := bitAt (f 7 1) 1, dup := bitAt (f 7 1) 2, tenant := f 8 1, code := f 9 1, srcEp := f 0x0A 2,
    dstEp := f 0x0C 2, pktIndex := f 0x0E 2, pktCount := f 0x10 2, regionKey := f 0x14 4, msgId := f 0x18 8, offset := f 0x20 8,
    opId := f 0x28 4, srcMember := f 0x2C 2, dstMember := f 0x2E 2, payload := x.payload, port := x.port, srcAddr := x.srcAddr, ce := x.ce,
    rqHost := x.rqHost }

/-- Transmit an answer to a packet in a TRANSPORT slot of the tenant that received the data, which is charged (R424 to R426). -/
def State.respond (s : State) (p : Packet) (o : Option EthHead → Out) : State :=
  let q := p.port.val
  let x := s.jigPort s.jig.me q
  s.sendFrame { port := q, owner := p.tenant, sched := false, len := etkaiCharge ((s.port q).role == 2) 0, dest := none,
                out := o (s.ethHead q p.srcAddr (if x.udpPort = 0 then 48620 else x.udpPort) false) }

/-- Acknowledge a packet (R428, R433). -/
def State.ackPacket (s : State) (p : Packet) (dup : Bool) : State :=
  s.respond p (fun h => .ack h (packetHeader (packetAnswer p (p.ce && (s.port p.port.val).role == 2) dup) 2 0))

/-- Refuse a packet with a NAK: NAKs with ENDPOINT_PARKED are counted, and raise one ENDPOINT event an endpoint and turn (R428, R447,
R453). -/
def State.nakPacket (s : State) (p : Packet) (st : Status) : State :=
  let s := s.respond p (fun h => .nak h (packetHeader (packetAnswer p false false) 3 st.code))
  if st = .endpointParked then
    let s := s.setFabTenant p.tenant { s.fabTenant p.tenant with nakParked := satAdd 8 (s.fabTenant p.tenant).nakParked 1 }
    let e := s.ep p.dstEp
    let n := e.naksTurn + 1
    let s := s.setEp p.dstEp { e with naksTurn := n }
    if n = 1 then s.event (p.tenant + 1) 5 0x38 p.tenant (p.dstEp + 2 ^ 16 * n) else s
  else s

/-- A packet or frame of a fenced tenant is refused: counted in FAB_TENANT.GONE (R452). -/
def State.countGone (s : State) (t : Nat) : State :=
  s.setFabTenant t { s.fabTenant t with gone := satAdd 16 (s.fabTenant t).gone 1 }

/-- The tenant is fenced away from this port: fenced, or its fence runs and the port is an Ethernet one (R451, R452). -/
def State.fencedAt (s : State) (t p : Nat) : Bool :=
  (s.fabTenant t).fenceRound == 17 || ((s.port p).role == 2 && (s.tenant t).removal.isSome &&
    (match (s.tenant t).removal with | some r => r.begun | none => false))

/-- The form of a packet (R426). -/
def packetOk (p : Packet) : Bool :=
  p.formOk && decide (1 ≤ p.pktCount) && decide (p.pktCount ≤ 256) && decide (p.pktIndex < p.pktCount) && decide (p.payload.length ≤ 4096) &&
  (p.pktIndex + 1 == p.pktCount || p.payload.length == 4096) && decide (p.tenant < 8)

/-- Every byte can be written: no page LOCKED, sealed or BROKEN, each with the right (R397, R438). -/
def State.landFail (s : State) (t va n : Nat) (acc : Bool) : Option Status :=
  firstFail [
    (!s.mapped t va n, .xlateFault), (!s.allPages t va n (fun p => !p.broken), .memUe),
    (!s.allPages t va n (fun p => (if acc then p.acc else p.w) && p.locks == 0 && !p.sealed_), .rights)]

/-- A source address lies in a region's prefix. -/
def Region.admits (r : Region) (addr : Nat) : Bool := r.prefixAddr / 2 ^ (128 - r.prefixLen) == addr / 2 ^ (128 - r.prefixLen)

/-- Checks 2 to 7 of R438 for data that arrives on a port; `ops` is false for a collective's frame, which skips check 7 (R450). -/
def State.regionFail (s : State) (t key port addr op code opId off len : Nat) (ops : Bool) : Option Status :=
  match s.region (key / 4096) with
  | none => some .keyAbsent
  | some r =>
    let eth := (s.port port).role == 2
    let unit := if r.format = 1 then 8 else 4
    firstFail [
      (r.tenant != t, .keyAbsent), (key % 4096 + 1 != s.generations (key / 4096), .keyStale),
      ((if eth then !bitAt r.scope 1 || !r.admits addr else !bitAt r.scope 0), .rights),
      (decide (r.length < off + len) || (op == 3 && len % unit != 0), .bounds),
      (!(match op with | 1 => bitAt r.rights 0 | 2 => bitAt r.rights 0 && bitAt r.rights 2 | _ => bitAt r.rights 1), .rights),
      (ops && op == 3 && (code != r.format || decide (r.ops ≤ opId)), .bounds)]

/-- The element-wise sum of data into memory (R391, R440). -/
def addData (unit m : Nat) (a b : List Byte) : List Byte :=
  (List.range (a.length / unit)).flatMap (fun i => leBytes unit ((field a (unit * i) unit + field b (unit * i) unit) % m))

/-- Land data in a region: written, or added in the region's format (R438, R440, R449). -/
def State.land (s : State) (r : Region) (off : Nat) (add : Bool) (format : Nat) (bs : List Byte) : State :=
  let va := r.va + off
  let unit := if format = 1 then 8 else 4
  let m := match format with
    | 0 => 2 ^ 32
    | 1 => 2 ^ 64
    | _ => if r.q = 0 then Config.unstated "modulus of a region without one" [r.va] + 1 else r.q
  let out := if add then addData unit m (s.readVA r.tenant va bs.length []) bs else bs
  s.writeVA r.tenant va out (bs.length + 1)

/-- An Etkai packet comes in on a port in service: on the fabric it goes onward where another member is its destination; one that
breaks R426, or whose tenant is ABSENT without a fence, is dropped; one for a tenant fenced away is refused (R424, R428, R438,
R452). During a freeze nothing is taken (R90, R91). -/
def State.arrive (s : State) (p : Packet) (rest : State → State) : State :=
  let q := p.port.val
  if (s.port q).state != 1 || s.frozen then s
  else
    let eth := (s.port q).role == 2
    let s := s.rxFrame q (if eth then 114 + p.payload.length else 80 + p.payload.length)
    if !eth && p.dstMember != s.jig.me then
      match (s.routeTo p.dstMember).bind (fun r => r.ports.head?) with
      | some o =>
        s.sendFrame { port := o, owner := p.tenant, sched := false, len := etkaiCharge false p.payload.length, dest := none,
                      out := .onward o p.dstMember }
      | none => s.dropPacket q
    else if !packetOk p then s.dropPacket q
    else if s.fencedAt p.tenant q then (s.countGone p.tenant).nakPacket p .tenantGone
    else if (s.tenant p.tenant).state == .absent && p.tenant != 0 then s.dropPacket q
    else rest s

/-- ETKAI_WRITE_PACKET (R438). -/
def execEtkaiWritePacket (x : PacketIn) (s : State) : Host.Outcome State Fault Refusal :=
  let p := packetOf 1 x
  .next <| s.arrive p fun s =>
    match s.regionFail p.tenant p.regionKey p.port.val p.srcAddr 1 p.code p.opId p.offset p.payload.length true,
        s.region (p.regionKey / 4096) with
    | none, some r =>
      match s.landFail r.tenant (r.va + p.offset) p.payload.length false with
      | some st => s.nakPacket p st
      | none => (s.land r p.offset false 0 p.payload).ackPacket p false
    | some st, _ => s.nakPacket p st
    | none, none => s

/-- ETKAI_ACC_ADD_PACKET: tests and sets the packet's bit; a duplicate adds nothing and is acknowledged with DUP (R440). -/
def execEtkaiAccAddPacket (x : PacketIn) (s : State) : Host.Outcome State Fault Refusal :=
  let p := packetOf 3 x
  .next <| s.arrive p fun s =>
    match s.regionFail p.tenant p.regionKey p.port.val p.srcAddr 3 p.code p.opId p.offset p.payload.length true,
        s.region (p.regionKey / 4096) with
    | none, some r =>
      let bit := 256 * p.opId + p.pktIndex
      match s.landFail r.tenant (r.va + p.offset) p.payload.length true with
      | some st => s.nakPacket p st
      | none =>
        if r.applied.contains bit then s.ackPacket p true
        else ((s.land r p.offset true r.format p.payload).updRegion (p.regionKey / 4096) fun x => { x with
          applied := x.applied ++ [bit] }).ackPacket p false
    | some st, _ => s.nakPacket p st
    | none, none => s

/-- Messages in reassembly at most (R446). -/
def maxReasm : Nat := 64

/-- The reassembly that a packet belongs to. -/
def Reasm.takes (r : Reasm) (p : Packet) : Bool :=
  r.srcEp == p.srcEp && r.srcMember == p.srcMember && r.srcAddr == p.srcAddr && r.msgId == p.msgId && r.region.isSome == (p.op == 2)

/-- The head receive entry: of a discarded reassembly first, else the next of the queue; none where there is none (R446). -/
def State.takeEntry (s : State) (e : Nat) (host : List Byte) : Option (RecvEntry × Endpoint) :=
  let x := s.ep e
  match x.spare with
  | r :: l => some (r, { x with spare := l })
  | [] =>
    if x.rqHead = x.rqTail then none
    else
      let b := s.readVA x.tenant (x.rqBase + 16 * x.rqHead) 16 host
      some ({ addr := field b 0 8, length := field b 8 4, tag := field b 12 2 }, { x with rqHead := (x.rqHead + 1) % x.rqSize })

/-- The reassembly that a first packet starts. -/
def newReasm (p : Packet) (r : RecvEntry) (pos : Nat) : Reasm :=
  { srcEp := p.srcEp, srcMember := p.srcMember, srcAddr := p.srcAddr, msgId := p.msgId, count := p.pktCount, got := [], bytes := 0,
    retx := false, entry := r, region := if p.op = 2 then some p.regionKey else none, last := pos }

/-- A packet of a SEND or WRITE_NOTIFY joins its reassembly, `land` says where it lands or why not; the last one posts the completion
(R429, R446). -/
def State.reassemble (s : State) (e : Nat) (p : Packet) (landing : State → RecvEntry → Except Status State) : State :=
  let x := s.ep e
  let found := x.reasm.find? (fun r => r.takes p)
  let start : Except Status (Reasm × State) := match found with
    | some r => .ok (r, s)
    | none =>
      if maxReasm ≤ x.reasm.length then .error .budget
      else match s.takeEntry e p.rqHost with
        | none => .error .budget
        | some (r, y) => .ok (newReasm p r s.pos, s.setEp e y)
  match start with
  | .error st => s.nakPacket p st
  | .ok (r, s1) =>
    match landing s1 r.entry with
    | .error st =>
      -- an entry taken for a first packet that does not land serves the next message
      (if found.isSome then s1 else s1.updEp e fun y => { y with spare := r.entry :: y.spare }).nakPacket p st
    | .ok s2 =>
      let again := r.got.contains p.pktIndex
      let r := { r with
        got := if again then r.got else p.pktIndex :: r.got, bytes := if again then r.bytes else r.bytes + p.payload.length
        retx := r.retx || p.retx, last := s.pos }
      let others := (s2.ep e).reasm.filter (fun y => !y.takes p)
      let s3 := s2.ackPacket p false
      if r.got.length = r.count then
        (s3.updEp e fun y => { y with reasm := others }).epPost e .ok (if r.retx then flagRetransmitted else 0) r.entry.tag
          (if p.op = 2 then 0x81 else 0x80) p.srcEp r.bytes (r.region.getD 0) p.msgId p.srcMember
      else s3.updEp e fun y => { y with reasm := others ++ [r] }

/-- The endpoint takes arriving messages: resident or still parking, and its tenant not SUSPENDED (R447, R448). -/
def State.epTakes (s : State) (e : Nat) : Bool :=
  ((s.ep e).state == 1 || (s.ep e).state == 3) && (s.tenant (s.ep e).tenant).state != .suspended

/-- ETKAI_SEND_PACKET: a packet of the round service goes to ingest; otherwise it lands in a receive buffer (R427, R446). -/
def execEtkaiSendPacket (x : PacketIn) (s : State) : Host.Outcome State Fault Refusal :=
  let p := packetOf 0 x
  .next <| s.arrive p fun s =>
    if p.dstEp = 0xFFFF then s.ackPacket p false
    else if 8191 < p.dstEp || (s.ep p.dstEp).state == 0 || (s.ep p.dstEp).tenant != p.tenant then s.dropPacket p.port.val
    else if !s.epTakes p.dstEp then s.nakPacket p .endpointParked
    else s.reassemble p.dstEp p fun s r =>
      if r.length < p.offset + p.payload.length then .error .bounds
      else match s.landFail p.tenant (r.addr + p.offset) p.payload.length false with
        | some st => .error st
        | none => .ok (s.writeVA p.tenant (r.addr + p.offset) p.payload (p.payload.length + 1))

/-- ETKAI_WRITE_NOTIFY_PACKET: the data lands in the region, and NOTIFY_EP reports the message (R438, R446). -/
def execEtkaiWriteNotifyPacket (x : PacketIn) (s : State) : Host.Outcome State Fault Refusal :=
  let p := packetOf 2 x
  .next <| s.arrive p fun s =>
    match s.regionFail p.tenant p.regionKey p.port.val p.srcAddr 2 p.code p.opId p.offset p.payload.length true,
        s.region (p.regionKey / 4096) with
    | none, some r =>
      match firstFail [(p.dstEp != r.notifyEp, .bounds), (!s.epTakes p.dstEp, .endpointParked)] with
      | some st => s.nakPacket p st
      | none => s.reassemble p.dstEp p fun s _ =>
          match s.landFail r.tenant (r.va + p.offset) p.payload.length false with
          | some st => .error st
          | none => .ok (s.land r p.offset false 0 p.payload)
    | some st, _ => s.nakPacket p st
    | none, none => s

end Sys2Proof.Machine
end

