-- ==== Sys2Proof/Machine/Jig.lean ====
section
/-! DEFINITION. Machine/Jig.lean: loading, editing and committing the jig, and its live fields (R96 to R122). -/

namespace Sys2Proof.Machine

/-- Note a failing check in JIG_CHECK (R118); the byte offset in a section whose layout the spec does not give is a free value. -/
def State.noteCheck (s : State) (k : Option JigCheck) : State :=
  match k with
  | some x =>
    let (v, s) := match x.off with | some n => (n, s) | none => s.draw
    s.updJig fun j => { j with checkId := x.id, checkSection := x.type, checkInst := x.inst, checkOffset := v % 2 ^ 24 }
  | none => s.updJig fun j => { j with checkId := 0, checkSection := 0, checkInst := 0, checkOffset := 0 }

/-- End a JIG_LOAD or JIG_COMMIT with a status, which LAST_STATUS keeps, and completion flags. -/
def State.endJigWith (s : State) (c : Cmd) (st : Status) (member flags : Nat) : State :=
  (s.updJig fun j => { j with lastStatus := st }).complete c st member 0 flags

/-- End a JIG_LOAD or JIG_COMMIT with a status, which LAST_STATUS keeps. -/
def State.endJig (s : State) (c : Cmd) (st : Status) (member : Nat) : State := s.endJigWith c st member 0

/-- The shadow differs from the committed values: SHADOW_DIRTY. -/
def State.shadowDirty (s : State) : Bool := s.jig.shadow != s.jig.cfg || s.jig.activeShadow != s.jig.active

/-- JIG_LOAD is locked out: some tenant from 1 to 7 is not ABSENT, tenant 0 has work in hand or a commit is pending (R104); or an
earlier JIG_LOAD has passed its checks and waits for its effect, a case that the rule does not list (DESIGN CHOICE:
notes/assumptions/44.md). -/
def State.loadLocked (s : State) : Bool :=
  (List.range 8).any (fun t => decide (0 < t) && (s.tenant t).state != .absent) || s.busyZero || s.jig.commit.isSome ||
  s.jig.loading.isSome

/-- Checks 1 to 5 of R105, on an image of `len` bytes. -/
def State.jigImageCheck (s : State) (h : JigHeader) (c : JigConfig) (sig : SigPair) (len : Nat) : Option Status :=
  let unsigned := bitAt h.flags 0
  firstFail [
    (h.magic != 0x47494A58 || h.formatVersion != 1 || h.headerLength != 0x100 || decide (2 ^ 22 < h.imageLength) ||
      decide (len < h.imageLength) || !h.reservedZero || decide (1 < h.flags), .cfgMismatch),
    (h.part != 0x7264 || h.stepping != s.sec.stepping, .cfgMismatch),
    (if unsigned then s.sec.lifecycle != .open_ || h.sigOffset != h.imageLength
     else !sig.ok || h.ownerKeys != s.sec.ownerKeys || h.sigOffset + 8240 != h.imageLength, .cfgSignature),
    (h.fwClass != s.dbg.fw.fwClass, .cfgMismatch),
    ((c.assembly.members.filter (fun m => m.fingerprint == s.sec.fingerprint)).length != 1, .cfgMismatch)]

/-- Length of each section value, by 4 type + instance. -/
def sectionLengths (l : List JigSection) : Tab Nat := l.foldl (fun m x => Tab.put 0 m (sectionKey x.type x.inst) x.length) []

/-- JIG_LOAD: the refusals of R104, then the image is read from the buffer and checked as R105 says, in order; one that passes takes
effect later (R97 to R102, R106). A check that fails changes no state but the report of it in JIG_CHECK and LAST_STATUS. -/
def execJigLoad (c : Cmd) (img : JigImage) (s : State) : Host.Outcome State Fault Refusal :=
  .next <| s.command 0x01 c fun s =>
    match firstFail [(s.loadLocked, .cfgLocked), (s.sec.lifecycle != .owned && s.sec.lifecycle != .open_, .lifecycle)],
        s.blockFail 0 c.addr c.len (fun p => p.r) with
    | some st, _ => s.endJig c st 0
    | none, some st => s.endJig c st 0
    | none, none =>
      let (h, ss, v) := readJig (s.readVA 0 c.addr (min c.len (2 ^ 22)) c.host) img.cfg
      match s.jigImageCheck h v img.sig c.len with
      | some st => (s.noteCheck none).endJig c st 0
      | none =>
        match firstCheck (s.loadChecks h ss v img.misshapen) with
        | some k => (s.noteCheck (some k)).endJig c .cfgMismatch 0
        | none => s.updJig fun j => { j with loading := some (c, { header := h, lengths := sectionLengths ss, cfg := v }, s.pos) }

/-- The port roles of the committed PORTS section: a port whose role changes goes DOWN (R415). -/
def State.setRoles (s : State) : State :=
  s.each (List.range 16) (fun s p =>
    let x := s.jig.cfg.port s.jig.me p
    let q := s.port p
    if q.role = x.role then s
    else s.setPort p { q with role := x.role, state := 0, reason := 0, lanesOk := 0, keyed := false, readmit := false, upAt := none })

/-- Limits of the committed QUOTAS section for tenant 0 and every tenant that is not ABSENT (R388). -/
def State.setQuotas (s : State) : State :=
  s.each ((List.range 8).filter (fun t => t == 0 || (s.tenant t).state != .absent)) (fun s t =>
    (s.setLimit t 0 (s.jigQuota t 0)).setLimit t 1 (s.jigQuota t 1))

/-- The SPN fields that the committed jig gives: k, role and source (R51, R60); a follower takes its tick from its primary upstream,
and is locked once that port is in service (R51, R57). EPOCH_SET of a MASTER with PTP reads 0 until it adopts a position, and a new jig
waits for a PTP time of its own (R54). -/
def State.setSpindle (s : State) : State :=
  let j := s.jig.cfg.spindle
  let role := j.roles.getD s.jig.me .unassigned
  let pri := (s.routeSet.upstream.getD s.jig.me {}).pri
  s.updSpn fun x => { x with
    k := j.k, role := role, source := if role = .follower then .primary else .ball,
    locked := role == .master || (role == .follower && s.usable pri),
    epochSet := x.epochSet && !(role == .master && j.epoch == .ptp), ptpTime := none, ptpReady := none, missedBy := [], realigned := [],
    lastBoundary := x.pos / 2 ^ j.k * 2 ^ j.k, standbyTree := false, lost := [], lossDue := [], coordLossAt := none,
    quietCoord := 0, quietMembers := 0, quietBoth := 0 }

/-- Tenant 0's memory keys and DRBG, made once (R401, R459; DEDUCED for tenant 0, which no command creates). -/
def State.keysOfZero (s : State) : State :=
  if (s.tierKey 0 0).cur.isEmpty then (s.makeMemoryKeys 0).updTenant 0 fun x => { x with drbg := true } else s

/-- Cells whose assignment differs from one jig to another (R126, R205). -/
def changedCells (a b : JigPartition) : List Nat :=
  (List.range 64).filter (fun k => a.cellTenant.getD k 8 != b.cellTenant.getD k 8 || a.cellGroup.getD k 0xFF != b.cellGroup.getD k 0xFF)

/-- Bands of the committed POWER section (R507). -/
def State.setBands (s : State) : State := s.updPwr fun w => { w with bands := s.jig.cfg.power.filter (fun p => p.2 != 0) }

/-- The live fields with values out of range left as they are; and whether any of the host fields, and whether the thermal field was (R119). -/
def liveTake (old new : JigLive) : JigLive × Bool × Bool :=
  let hb := decide (100 ≤ new.heartbeatMs) && decide (new.heartbeatMs ≤ 60000)
  let hl := decide (60 ≤ new.hostLostS) && decide (new.hostLostS ≤ 86400)
  let tw := decide (70 ≤ new.tempWarnC) && decide (new.tempWarnC ≤ 104)
  ({ heartbeatMs := if hb then new.heartbeatMs else old.heartbeatMs, hostLostS := if hl then new.hostLostS else old.hostLostS,
     deviceMask := new.deviceMask, tempWarnC := if tw then new.tempWarnC else old.tempWarnC }, !(hb && hl), !tw)

/-- Take new live fields, of which the host fields and the thermal field are named or not: one out of range keeps its value, and a DISCARDED
event of the register at `offset` is raised (R119). -/
def State.takeLive (s : State) (new : JigLive) (host thermal : Bool) (offset value : Nat) : State :=
  let (l, badHost, badThermal) := liveTake s.jig.live new
  let s := s.updJig fun j => { j with live := l }
  if (host && badHost) || (thermal && badThermal) then s.discarded 0 offset value else s

/-- JIG_LOAD_EFFECT: at the first multiple of 2^16 ticks strictly later than the checks, committed values, shadow and live fields
take the image's values; tenant 0 runs; the completion follows, and carries VARIED where the image was read from a HOST-tier page
(R76, R103, R106, R119, R120, R455). -/
def execJigLoadEffect (s : State) : Host.Outcome State Fault Refusal :=
  match s.jig.loading with
  | none => .next s
  | some (c, img, p) =>
    if s.due ((p / 2 ^ 16 + 1) * 2 ^ 16) then
      let fromHost := s.onHost 0 c.addr c.len
      let me := ((img.cfg.assembly.members.find? (fun m => m.fingerprint == s.sec.fingerprint)).map (·.index)).getD 0
      let old := s.part
      let was := s.jig.loaded
      let cfg := { img.cfg with live := none }
      let changed := if was then changedCells old (cfg.part me) else []
      let s := s.each changed State.startClear
      let s := s.updJig fun j => { j with
        loading := none, loaded := true, unsigned := bitAt img.header.flags 0, header := img.header, cfg := cfg, shadow := cfg,
        active := 0, activeShadow := 0, sectionLen := img.lengths, shadowBad := [], prev := none, serial := img.header.serial, me := me,
        alignDue := decide (2 ≤ cfg.bigE), checkId := 0, checkSection := 0, checkInst := 0,
        checkOffset := 0, measurement := jigMeasurement img.header img.header.serial cfg }
      let s := s.updJig fun j => { j with shadowDigest := s.digestOfShadow }
      let s := match img.cfg.live with | some v => s.takeLive v true true 0x00200100 (v.heartbeatMs + v.hostLostS * 2 ^ 32) | none => s
      let s := s.setRoles.setSpindle.setQuotas.setBands.keysOfZero.refill false
      let s := s.updPwr fun w => { w with lastLoop := s.turn / 8, tripFrame := 0 }
      let s := if (s.tenant 0).state == .running then s else s.setTenantState 0 .running
      .next (s.endJigWith c .ok 0 (if fromHost then flagVaried else 0))
    else .next s

/-! ### Edits (R107 to R110) -/

/-- A record touches the LIVE section. -/
def recordLive (r : EditRecord) : Bool := r.type == 13

/-- The shadow with one record's value in place (R107). -/
def applyValue (c : JigConfig) (inst : Nat) : JigValue → JigConfig
  | .assembly v => { c with assembly := v }
  | .spindle v => { c with spindle := v }
  | .partition v => { c with partition := v }
  | .slots v => { c with slots := v }
  | .budgets d l => { c with dmaBudget := d, linkBudget := l }
  | .routes v => { c with routes := v }
  | .ports v => { c with ports := v }
  | .routeSet v => { c with routeSets := c.routeSets.map (fun (i, r) => if i = inst then (i, v) else (i, r)) }
  | .quotas v => { c with quotas := v }
  | .scrub v => { c with scrub := v }
  | .power v => { c with power := v }
  | .policy v => { c with policy := v }
  | .live _ => c

/-- The committed section of a type over the shadow (RESET_SHADOW, R107). -/
def resetSection (c shadow : JigConfig) (t inst : Nat) : JigConfig :=
  match t with
  | 1 => { shadow with assembly := c.assembly }
  | 2 => { shadow with spindle := c.spindle }
  | 3 => { shadow with partition := c.partition }
  | 4 => { shadow with slots := c.slots }
  | 5 => { shadow with dmaBudget := c.dmaBudget, linkBudget := c.linkBudget }
  | 6 => { shadow with routes := c.routes }
  | 7 => { shadow with ports := c.ports }
  | 8 => { shadow with routeSets := shadow.routeSets.map (fun (i, r) =>
      if i = inst then (i, ((c.routeSets.find? (fun p => p.1 == i)).map (·.2)).getD r) else (i, r)) }
  | 9 => { shadow with quotas := c.quotas }
  | 10 => { shadow with scrub := c.scrub }
  | 11 => { shadow with power := c.power }
  | 12 => { shadow with policy := c.policy }
  | _ => shadow

/-- The section type that a value belongs to. -/
def valueType : JigValue → Nat
  | .assembly _ => 1 | .spindle _ => 2 | .partition _ => 3 | .slots _ => 4 | .budgets _ _ => 5 | .routes _ => 6 | .ports _ => 7
  | .routeSet _ => 8 | .quotas _ => 9 | .scrub _ => 10 | .power _ => 11 | .policy _ => 12 | .live _ => 13

/-- A record touches a field locked to JIG_LOAD: k, a member's role or the epoch source, whatever value it names (R61, R108, R109). -/
def State.recordLocked (s : State) (r : EditRecord) (m : EditMeaning) : Bool :=
  !recordResets r && r.type == 2 && (m.locked || (match m.value with
    | .spindle v => v.k != s.jig.shadow.spindle.k || v.roles != s.jig.shadow.spindle.roles || v.epoch != s.jig.shadow.spindle.epoch
    | _ => false))

/-- A record names a section of the jig (R108). -/
def State.sectionKnown (s : State) (r : EditRecord) : Bool :=
  (recordResets r && r.type == 0xFFFF) || (s.jig.loaded && sectionPermitted r.type r.inst &&
    (r.type != 8 || s.jig.shadow.routeSets.any (fun p => p.1 == r.inst)))

/-- A record lies outside its section value, is cut short by the buffer's end, or has a reserved bit set (R107, R108; DESIGN CHOICE for
the last two and for LIVE in a jig without that section: notes/assumptions/44.md). -/
def State.recordOutside (s : State) (r : EditRecord) : Bool :=
  decide (1 < r.flags) || r.rsvd != 0 ||
  (!recordResets r && (decide (Tab.look 0 s.jig.sectionLen (sectionKey r.type r.inst) < r.offset + r.length) || r.data.length != r.length))

/-- The bytes of the shadow's section of one record per member, with a record's data laid in, cut into records (R98, R107). -/
def patched (old : List (List Byte)) (size : Nat) (r : EditRecord) : List (List Byte) :=
  recordsOf (patchBytes old.flatten r.offset r.data) size old.length

/-- What a record gives its section in the shadow, and whether the section then breaks check 0x01: from the bytes for PARTITION,
MESH_ROUTES and PORTS, from the operand for the rest (R107, R118). -/
def State.recordValue (s : State) (r : EditRecord) (m : EditMeaning) : Option JigValue × Bool :=
  let c := s.jig.shadow
  match r.type with
  | 3 =>
    let l := patched ((List.range c.bigE).map (fun i => partitionRecord (c.part i))) partitionBytes r
    (some (.partition (l.map partitionOf)), !l.all partitionClean)
  | 6 =>
    let l := patched ((List.range c.bigE).map (fun i => meshRecord (c.routes.getD i []))) meshBytes r
    (some (.routes (l.map meshOf)), !l.all meshClean)
  | 7 =>
    let l := patched ((List.range c.bigE).map (fun i => portsRecord (c.ports.getD i []))) portsBytes r
    (some (.ports (l.map portsOf)), !l.all portsClean)
  | t => if valueType m.value = t then (some m.value, m.misshapen) else (none, m.misshapen)

/-- One record of an edit, applied (R107, R110, R119). -/
def State.applyRecord (s : State) (x : EditRecord × EditMeaning) : State :=
  let (r, m) := x
  if recordResets r then
    if r.type = 0xFFFF then s.updJig fun j => { j with shadow := j.cfg, shadowBad := [] }
    else s.updJig fun j => { j with
      shadow := resetSection j.cfg j.shadow r.type r.inst, shadowBad := j.shadowBad.filter (fun k => k != sectionKey r.type r.inst) }
  else
    match s.recordValue r m with
    | (some (.live v), _) => s.takeLive v true true 0x00200100 (v.heartbeatMs + v.hostLostS * 2 ^ 32)
    | (v, bad) => s.updJig fun j => { j with
        shadow := match v with | some v => applyValue j.shadow r.inst v | none => j.shadow
        shadowBad := j.shadowBad.filter (fun k => k != sectionKey r.type r.inst) ++ (if bad then [sectionKey r.type r.inst] else []) }

/-- The records of a JIG_EDIT's buffer, each with what its data means. -/
def State.editRecords (s : State) (c : Cmd) (means : List EditMeaning) : List (EditRecord × EditMeaning) :=
  (editRecordsOf (c.len / 16 + 1) (s.readVA 0 c.addr c.len c.host)).zipIdx.map (fun x =>
    (x.1, means.getD x.2 { value := .scrub 0 }))

/-- Why a JIG_EDIT is refused (R107 to R110); of LIVE where the jig has no such section, with BOUNDS (DESIGN CHOICE: notes/assumptions/44.md). -/
def State.editFail (s : State) (recs : List (EditRecord × EditMeaning)) : Option Status :=
  let live := recs.any (fun x => recordLive x.1)
  let other := recs.any (fun x => !recordLive x.1)
  firstFail [
    (recs.any (fun x => !s.sectionKnown x.1), .cfgMismatch),
    (recs.any (fun x => s.recordOutside x.1), .bounds),
    ((live && other) || recs.any (fun x => s.recordLocked x.1 x.2) || (other && s.jig.commit.isSome), .cfgLocked)]

/-- JIG_EDIT: the records of the buffer take effect together or not at all (R107 to R110). -/
def execJigEdit (c : Cmd) (means : List EditMeaning) (s : State) : Host.Outcome State Fault Refusal :=
  .next <| s.command 0x02 c fun s =>
    match s.blockFail 0 c.addr c.len (fun p => p.r) with
    | some st => s.fail c st
    | none =>
      let recs := s.editRecords c means
      match s.editFail recs with
      | some st => s.fail c st
      | none =>
        let s := s.each recs State.applyRecord
        (s.updJig fun j => { j with shadowDigest := s.digestOfShadow }).ok c

/-! ### Commits (R111 to R116) -/

/-- The boundary of a commit. -/
def State.commitAt (s : State) (k : Commit) : Nat := k.turn * 2 ^ s.spn.k

/-- This member's own verdict: the digest, then every check (R113, R114, R118). -/
def State.ownVerdict (s : State) (digest : Digest) : Status × Option JigCheck :=
  if digest != s.jig.shadowDigest then (.cfgMismatch, none)
  else match firstCheck s.commitChecks with | some x => (.cfgMismatch, some x) | none => (.ok, none)

/-- A commit is pending from here on: the shadow is frozen, and this member compares the digest and runs the checks, well within the
150,000 ticks allowed (R113). -/
def State.startCommit (s : State) (k : Commit) : State :=
  let (st, x) := s.ownVerdict k.digest
  (s.noteCheck x).updJig fun j => { j with commit := some { k with own := (st, (x.map (·.id)).getD 0) } }

/-- Why a JIG_COMMIT is refused (R111, R112): a buffer of the wrong size; no signature, or one that fails or was made over another
digest, turn or serial, where the life cycle is not OPEN; a commit that is pending, and, which the rule does not list, no jig or a
JIG_LOAD that waits for its effect (DESIGN CHOICE: notes/assumptions/44.md); the wrong member or scope; a boundary too close. -/
def State.commitFail (s : State) (c : Cmd) (sig : SigPair) (signed : Digest × Nat × Nat) : Option Status :=
  let unsigned := c.len == 0 && s.sec.lifecycle == .open_
  firstFail [
    (c.len != 0 && c.len != 8240, .bounds),
    (!unsigned && (c.len == 0 || !sig.ok || signed != (s.jig.shadowDigest, c.a0, c.a1)), .cfgSignature),
    (!s.jig.loaded || s.jig.commit.isSome || s.jig.loading.isSome, .cfgLocked),
    (decide (2 ≤ s.bigE) && (!s.isCoord || !bitAt c.a2 0), .cfgLocked),
    (decide (c.a0 * 2 ^ s.spn.k < s.pos + 150000 + 2 ^ (s.spn.k + 1)), .barrierTimeout)]

/-- JIG_COMMIT: the refusals of R112 in order, then the commit is pending and, with scope ASSEMBLY, the notice goes out with the
selection of the route set that the shadow holds (R111, R113, R120, R423). -/
def execJigCommit (c : Cmd) (sig : SigPair) (s : State) (signed : Digest × Nat × Nat := (0, 0, 0)) : Host.Outcome State Fault Refusal :=
  .next <| s.command 0x03 c fun s =>
    match s.commitFail c sig signed, (if c.len = 0 then none else s.blockFail 0 c.addr c.len (fun p => p.r)) with
    | _, some st => s.endJig c st 0
    | some st, none => s.endJig c st 0
    | none, none =>
      let k : Commit := { turn := c.a0, serial := c.a1, assembly := bitAt c.a2 0, digest := s.jig.shadowDigest, cmd := some c,
                          verdicts := [], own := (.ok, 0), sent := false, readmit := [], decision := none }
      let s := s.startCommit k
      if 2 ≤ s.bigE then s.sendDevice (.commitNotice c.a0 c.a1 s.jig.shadowDigest s.jig.activeShadow) else s

/-- The commit notice and statement reach a member (R113): it takes the coordinator's selection of the route set as its own shadow's,
since the host driver writes ACTIVE on the coordinator alone (R423; DEDUCED: notes/assumptions/44.md). -/
def State.takeNotice (s : State) (turn serial : Nat) (digest : Digest) (active : Nat) : State :=
  if s.jig.loaded && s.jig.commit.isNone then
    (s.updJig fun j => { j with activeShadow := active }).startCommit {
      turn := turn, serial := serial, assembly := true, digest := digest, cmd := none, verdicts := [], own := (.ok, 0), sent := false,
      readmit := [], decision := none }
  else s

/-- A verdict that reaches the coordinator. -/
def Commit.addVerdict (k : Commit) (m : Nat) (st : Status) (check : Nat) : Commit :=
  if k.verdicts.any (fun v => v.1 == m) then k else { k with verdicts := k.verdicts ++ [(m, st, check)] }

/-- A member's verdict reaches the coordinator in time: until B − 2^k, before the decision (R113, R114). -/
def State.takeVerdict (s : State) (m : Nat) (st : Status) (check : Nat) : State :=
  match s.jig.commit with
  | some k =>
    if s.decides && k.decision.isNone && decide (s.pos ≤ s.commitAt k - 2 ^ s.spn.k) && !s.frozen then
      s.updJig fun j => { j with commit := some (k.addVerdict m st check) }
    else s
  | none => s

/-- The coordinator's decision reaches a member, with the members that it readmits (R45, R113). -/
def State.takeDecision (s : State) (swap : Bool) (readmit : List Nat) : State :=
  match s.jig.commit with
  | some k =>
    if k.decision.isSome || s.isCoord || s.frozen then s
    else s.updJig fun j => { j with commit := some { k with decision := some (swap, .ok, 0, 0), readmit := readmit } }
  | none => s

/-- COMMIT_VERDICT: at B − 2^(k+1) this member sends its verdict; one from another member is taken by the coordinator until
B − 2^k (R113, R114). -/
def execCommitVerdict (rx : Option (Nat × Status × Nat)) (s : State) : Host.Outcome State Fault Refusal :=
  match s.jig.commit with
  | none => .next s
  | some k =>
    match rx with
    | some (m, st, check) => .next (s.takeVerdict m st check)
    | none =>
      if !k.sent && s.due (s.commitAt k - 2 ^ (s.spn.k + 1)) then
        let k := { k with sent := true }
        if s.isCoord then .next (s.updJig fun j => { j with commit := some (k.addVerdict j.me k.own.1 k.own.2) })
        else .next ((s.updJig fun j => { j with commit := some k }).sendDevice (.commitVerdict s.jig.me k.own.1 k.own.2))
      else .next s

/-- The section that a check names. -/
def checkType (id : Nat) : Nat :=
  match id with
  | 1 => 0 | 2 => 1 | 3 => 8 | 4 => 2 | 5 => 8 | 6 => 8 | 7 => 3 | 8 => 3 | 0x10 => 5 | 0x11 => 9 | 0x12 => 12 | 0x13 => 10
  | 0x15 => 8 | _ => 4

/-- The decision of R114: the first failing verdict in order of assembly index, lost members left out, a missing verdict counting
as BARRIER_TIMEOUT. -/
def State.commitDecided (s : State) (k : Commit) : Option (Nat × Status × Nat) :=
  (((List.range s.bigE).filter (fun m => !s.spn.lost.contains m)).map (fun m =>
    match k.verdicts.find? (fun v => v.1 == m) with
    | some v => v
    | none => (m, Status.barrierTimeout, 0))).find? (fun v => v.2.1 != .ok)

/-- Members that a commit readmits: lost members that have aligned again after a COLD reset and whose own verdict is OK (R45). -/
def State.readmits (s : State) (k : Commit) : List Nat :=
  s.spn.lost.filter (fun m => s.spn.realigned.contains m && k.verdicts.any (fun v => v.1 == m && v.2.1 == .ok))

/-- COMMIT_DECISION: at B − 2^k the coordinator decides and sends the decision, which a member takes as it comes (R47, R113, R114). -/
def execCommitDecision (rx : Option (Bool × List Nat)) (s : State) : Host.Outcome State Fault Refusal :=
  match s.jig.commit with
  | none => .next s
  | some k =>
    if k.decision.isSome then .next s
    else
      match rx with
      | some (b, back) => .next (s.takeDecision b back)
      | none =>
        if s.decides && s.due (s.commitAt k - 2 ^ s.spn.k) then
          match s.commitDecided k with
          | none =>
            let back := s.readmits k
            let s := s.updJig fun j => { j with commit := some { k with decision := some (true, .ok, 0, 0), readmit := back } }
            .next (if 2 ≤ s.bigE then s.sendDevice (.commitDecision true back) else s)
          | some (m, st, id) =>
            let s := s.updJig fun j => { j with commit := some { k with decision := some (false, st, m, id) } }
            let s := if m = s.jig.me then s else s.noteCheck (if id = 0 then none else some (check id (checkType id) 0 true))
            .next (if 2 ≤ s.bigE then s.sendDevice (.commitDecision false []) else s)
        else .next s

/-- A group's cells differ between the committed values and a new PARTITION record. -/
def State.groupMoves (s : State) (g : Nat) (new : JigPartition) : Bool :=
  (changedCells s.part new).any (fun k => s.part.cellGroup.getD k 0xFF == g || new.cellGroup.getD k 0xFF == g)

/-- Parameter sets and plans whose ring group a swap changes are detached, and the running entry that names one ends with
CFG_MISMATCH (R343, R354). -/
def State.detach (s : State) (new : JigPartition) : State :=
  let hit := fun g => s.groupMoves g new
  let ids := (s.ring.params.filter (fun e => e.2.valid && hit e.2.group)).map (fun e => e.1)
  let s1 : State := { s with ring := { s.ring with
    params := s.ring.params.map (fun (i, p) => (i, if ids.contains i then { p with detached := true } else p))
    plans := s.ring.plans.map (fun (i, p) => (i, if p.valid && ids.contains p.psid then { p with detached := true } else p)) } }
  s1.each (List.range 8) (fun s t =>
    match s.macros t with
    | m :: _ =>
      if (m.run.isSome || m.waiting) && [m.head.dst, m.head.a].any (fun d => ids.contains (s.desc d).psid) then
        (s.endWait t).endEntry t .cfgMismatch 0 0
      else s
    | [] => s)

/-- What a swap does to cells (R126, R205, R266, R269): groups of changed cells that run halt with CFG_MISMATCH, rounds whose
bindings lose their cell end their shard, and the changed cells clear. -/
def State.swapCells (s : State) (new : JigPartition) : State :=
  let changed := changedCells s.part new
  let groups := (changed.map s.cellGroup).dedup.filter (fun g => g != 0xFF && (s.groupCells g).any (fun k => (s.cell k).running))
  let s := s.each groups (fun s g => s.haltGroup g .cfgMismatch)
  let lost := s.agg.binds.filter (fun e => e.2.enable && changed.contains e.2.cell)
  let s := s.each lost (fun s e =>
    let h := e.2.round
    let after := match (s.round h).state with | .collecting => true | .frozen => true | .unmasking => true | _ => false
    let s := s.setBind e.1 { s.bind e.1 with enable := false, busy := false, copies := [], current := none }
    if after then s.shardFail h .cfgMismatch else s)
  s.each changed State.startClear

/-- The swap of R113 and R116: all shadowed values at once, with what acts from the boundary on (R117). The route set that becomes active on a
member is the one its commit notice carried (R120; DESIGN CHOICE: notes/assumptions/44.md). -/
def State.swap (s : State) (k : Commit) : State :=
  let new := s.jig.shadow
  let old := s.jig.cfg
  let back := k.readmit
  let s := (s.swapCells (new.part s.jig.me)).detach (new.part s.jig.me)
  let change := new.assembly != old.assembly || s.jig.activeShadow != s.jig.active
  let s := s.updJig fun j => { j with
    cfg := new, active := j.activeShadow, serial := k.serial, prev := some (old, j.active),
    header := { j.header with serial := k.serial, compositionHash := compositionHash new.assembly },
    measurement := jigMeasurement j.header k.serial new }
  let s := s.updJig fun j => { j with shadowDigest := s.digestOfShadow }
  let s := s.setRoles.setQuotas.setBands.refill false
  let s := (s.preemptDma k.turn).reroute
  let s := s.updSpn fun x => { x with
    lost := x.lost.filter (fun m => !back.contains m), realigned := x.realigned.filter (fun m => !back.contains m) }
  let s := s.each back (fun s m => s.event 0 7 0 0xA (m + 2 ^ 16))
  if s.isCoord && (change || 0 < k.turn) then s.signAssembly else s

/-- JIG_SWAP: at boundary B, after the losses due there, the shadow is swapped in or the committed values are kept, and the coordinator's
completion is posted (R113 to R116); a commit that no decision has reached by then keeps the committed values and completes with
BARRIER_TIMEOUT, a status that the spec does not name (DESIGN CHOICE: notes/assumptions/44.md). -/
def execJigSwap (s : State) : Host.Outcome State Fault Refusal :=
  match s.jig.commit with
  | none => .next s
  | some k =>
    if s.due (s.commitAt k) then
      let s := s.updJig fun j => { j with commit := none }
      match k.decision with
      | some (true, _, _, _) =>
        let s := (s.swap k).updJig fun j => { j with lastStatus := .ok }
        .next (match k.cmd with | some c => s.endJig c .ok 0 | none => s)
      | some (false, st, m, _) => .next (match k.cmd with | some c => s.endJig c st m | none => s)
      | none => .next (match k.cmd with | some c => s.endJig c .barrierTimeout 0 | none => s)
    else .next s

/-- LIVE_FIELD_WRITE: JIG_LIVE_HOST, JIG_LIVE_EVENTS or JIG_LIVE_THERMAL; a field out of range keeps its value and a DISCARDED
event is raised (R110, R119). -/
def execLiveFieldWrite (which : Fin 3) (value : Word64) (s : State) : Host.Outcome State Fault Refusal :=
  .next <| s.ifWritable fun s =>
    let v := value.toNat
    let l := s.jig.live
    let new := match which.val with
      | 0 => { l with heartbeatMs := bits v 0 32, hostLostS := bits v 32 32 }
      | 1 => { l with deviceMask := bits v 0 32 }
      | _ => { l with tempWarnC := bits v 0 8 }
    s.takeLive new (which.val == 0) (which.val == 2) (0x00200100 + 8 * which.val) v

end Sys2Proof.Machine
end

