-- ==== Sys2Proof/Machine/Rounds.lean ====
section
/-! DEFINITION. Machine/Rounds.lean: shards, handlers and round memory (R37 to R41, R261 to R268), opening a round, its
deadlines, the start of collection, the freeze (R230 to R243, R250, R260, R344 to R347, R368), and bindings with their batches
(R264 to R267, R271). -/

namespace Sys2Proof.Machine

/-! ### Shards and handlers (R37 to R41, R369) -/

/-- Elements of a chunk (R38). -/
def chunkElems : Nat := 16384
/-- Chunks of the vector, C (R38). -/
def Round.chunks (r : Round) : Nat := ceilDiv r.l chunkElems
/-- The client limit N_max (R231). -/
def Round.nMax (r : Round) : Nat := r.sizes.sum
/-- First client of cohort `c`, F_c (R231). -/
def Round.first (r : Round) (c : Nat) : Nat := (r.sizes.take c).sum
/-- Size of cohort `c`. -/
def Round.size (r : Round) (c : Nat) : Nat := r.sizes.getD c 0
/-- Clients of cohort `c`, ascending. -/
def Round.members (r : Round) (c : Nat) : List Nat := (List.range (r.size c)).map (· + r.first c)
/-- Element bytes (R251). -/
def Round.elemBytes (r : Round) : Nat := if r.format = 1 then 8 else 4
/-- Bytes of a slot of a bin, and of a tile (R261). -/
def Round.slotBytes (r : Round) : Nat := chunkElems * r.elemBytes
/-- Bytes of a bin. -/
def Round.binBytes (r : Round) : Nat := r.batch * r.slotBytes
/-- Shards, S (R37). -/
def Round.s (r : Round) : Nat := r.shards.length
/-- Shard `i` holds the chunks from the first number up to, and not with, the second (R38). -/
def Round.shardChunks (r : Round) (i : Nat) : Nat × Nat := (i * r.chunks / r.s, (i + 1) * r.chunks / r.s)
/-- The shard that member `m` holds (R37). -/
def Round.shardOf (r : Round) (m : Nat) : Option Nat := r.shards.findIdx? (fun l => l.contains m)
/-- The shard of a chunk. -/
def Round.shardOfChunk (r : Round) (j : Nat) : Option Nat :=
  (List.range r.s).find? (fun i => decide ((r.shardChunks i).1 ≤ j) && decide (j < (r.shardChunks i).2))
/-- The chunks of member `m`'s shard: none in a repair round whose ranges do not cover it (R38, R48). -/
def Round.range (r : Round) (m : Nat) : Nat × Nat :=
  match r.shardOf m with
  | some i => if r.repair && !r.repaired.contains i then (0, 0) else r.shardChunks i
  | none => (0, 0)
/-- Member `m` sums chunk `j` of cohort `c` (R266, R369). -/
def Round.sums (r : Round) (m c j : Nat) : Bool :=
  if r.robust then (match r.shardOf m with | some i => c % r.s == i | none => false) && decide (j < r.chunks)
  else decide ((r.range m).1 ≤ j) && decide (j < (r.range m).2)
/-- Chunks that member `m` sums of cohort `c`. -/
def Round.chunksOf (r : Round) (m c : Nat) : List Nat := (List.range r.chunks).filter (r.sums m c)

/-- Live holders of shard `i` (R39, R45). -/
def State.holders (s : State) (r : Round) (i : Nat) : List Nat := (r.shards.getD i []).filter (s.takesPart r)
/-- The ingest twin for cohort `c` of shard `i`; none where both twins are lost (R39). -/
def State.ingestTwin (s : State) (r : Round) (i c : Nat) : Option Nat :=
  match s.holders r i with
  | [] => none
  | [m] => some m
  | a :: b :: _ => some (if c % 2 = 0 then min a b else max a b)
/-- The home engine of cohort `c` (R40). -/
def State.home (s : State) (r : Round) (c : Nat) : Option Nat := s.ingestTwin r (c % r.s) c
/-- This member is the home engine of cohort `c`. -/
def State.isHome (s : State) (r : Round) (c : Nat) : Bool := s.home r c == some s.jig.me
/-- This member's live twin in a round (R36). -/
def State.twin (s : State) (r : Round) : Option Nat :=
  match r.shardOf s.jig.me with
  | some i => (s.holders r i).find? (fun m => m != s.jig.me)
  | none => none
/-- The handler of a client message: `none` where it names no handler, `some none` where both twins are lost (R39 to R41,
R369). -/
def State.handler (s : State) (r : Round) (m : MsgHeader) : Option (Option Nat) :=
  if r.sizes.length ≤ m.cohort then none
  else if m.type = 2 && !r.robust then (r.shardOfChunk m.chunk).map (fun i => s.ingestTwin r i m.cohort)
  else some (s.home r m.cohort)

/-! ### Elements (R235, R345) -/

/-- The limb stride S_l of M ciphertexts of 2 polynomials of degree N (R345). -/
def limbStride (m logN : Nat) : Nat := ceilDiv (2 * m * 2 ^ logN) chunkElems * chunkElems
/-- The modulus of vector element `n`: of its limb in an encrypted round (R235, R345). -/
def State.elemMod (s : State) (r : Round) (n : Nat) : Nat :=
  match r.psid with
  | some p => (s.params p).primes.getD (n / limbStride r.ctCount (s.params p).logN) r.q
  | none => match r.format with | 0 => 2 ^ 32 | 1 => 2 ^ 64 | _ => r.q

/-! ### Round memory (R263, R268, R399); its layout is a DESIGN CHOICE (16) -/

/-- Tiles that member `m` holds. -/
def Round.tileCount (r : Round) (m : Nat) : Nat :=
  if r.robust then ceilDiv r.sizes.length r.s * r.chunks else r.sizes.length * ((r.range m).2 - (r.range m).1)
/-- Place of the tile of cohort `c` and chunk `j` among member `m`'s tiles. -/
def Round.tileIndex (r : Round) (m c j : Nat) : Nat :=
  if r.robust then c / r.s * r.chunks + j else c * ((r.range m).2 - (r.range m).1) + (j - (r.range m).1)
/-- Bytes of round memory on member `m` (R268). -/
def State.roundBytes (s : State) (r : Round) (m : Nat) : Nat :=
  let homes := (List.range r.sizes.length).filter (fun c => s.home r c == some m)
  let chunks := if r.robust then r.chunks else (r.range m).2 - (r.range m).1
  r.staging + 2 ^ 20 + r.tileCount m * r.slotBytes + ceilDiv (r.nMax * chunks) 8 + 64 * r.nMax + 64 * (homes.map r.size).sum
/-- The virtual address of a bin. -/
def Round.binVa (r : Round) (h idx : Nat) : Nat := roundBase h + idx * r.binBytes
/-- The virtual address of tile number `i`. -/
def Round.tileVa (r : Round) (h i : Nat) : Nat := roundBase h + r.staging + 2 ^ 20 + i * r.slotBytes

/-- Map round memory, sealed, with the R and W rights (R399); none where the pool is short of frames. -/
def State.mapRound (s : State) (t h units : Nat) : Option State :=
  match s.takeFrames t 1 1 units (s.firstFrame 1) with
  | none => none
  | some (fs, s) =>
    let ep := (s.tierKey t 0).epoch
    let s := s.setUsed t 0 (s.usedUnits t 0 + units)
    some (s.each fs.zipIdx (fun s x =>
      s.updPage (pageKey t (roundBase h + 65536 * x.2)) fun _ =>
        { tier := 1, r := true, w := true, sealed_ := true, epoch := ep, frame := x.1 }))

/-- Zero whole pages of round memory. -/
def State.zeroVA (s : State) (t va n : Nat) : State :=
  s.each (pagesOf va n) (fun s a => let p := s.page t a; { s with ram := ramZero s.ram p.tier p.frame 1 })

/-- The bytes of elements (R251). -/
def Round.bytesOf (r : Round) (es : List Nat) : List Byte := es.flatMap (leBytes r.elemBytes)
/-- The elements that a tile's bytes hold. -/
def Round.elemsOf (r : Round) (bs : List Byte) : List Nat := (List.range chunkElems).map (fun i => field bs (r.elemBytes * i) r.elemBytes)

/-! ### Statements that the coordinator signs (R237, R298, R477) -/

/-- `n` bytes of a number, most significant first. -/
def beBytes (n v : Nat) : List Byte := (leBytes n v).reverse

/-- The round statement (R239); `zero` leaves REVISION, P_DEADLINE and P_SHARE_END zero, as the key digest takes it. -/
def State.roundStatement (s : State) (r : Round) (zero : Bool) : List Byte :=
  let z := fun (v : Nat) => if zero then 0 else v
  let key := fun (i : Nat) => s.key (r.keyEntries.getD i 1024)
  leBytes 4 0x444E5258 ++ leBytes 1 1 ++ leBytes 1 (z r.revision) ++ leBytes 1 r.tenant ++ leBytes 1 r.format ++
  leBytes 6 r.number ++ leBytes 2 r.sizes.length ++ leBytes 4 r.nMax ++ leBytes 1 r.b ++ leBytes 1 r.k ++ leBytes 1 r.t ++
  leBytes 1 (b2n r.repair) ++ leBytes 8 r.l ++ leBytes 2 r.s ++ leBytes 2 0 ++ leBytes 4 r.q ++ leBytes 8 r.pCollect ++
  leBytes 8 (z r.pDeadline) ++ leBytes 8 (z r.pShareEnd) ++ leBytes 32 r.graphSeed ++
  leBytes 48 (Config.digest "cohorts" (r.sizes.flatMap (leBytes 4))) ++
  leBytes 48 r.assemblyDigest ++
  leBytes 1184 (Config.publicKey 5 (key 0).value) ++ leBytes 97 (Config.publicKey 4 (key 1).value) ++ leBytes 15 0

/-- The key digest of a round (R239). -/
def State.keyDigest (s : State) (r : Round) : Digest := Config.digest "statement" (s.roundStatement r true)

/-! ### ROUND_OPEN (R230 to R238, R299, R344 to R347, R368) -/

/-- The release parameters of the block (R299). -/
def parseRelease (b : List Byte) : Release :=
  { target := field b 0 1, noise := field b 1 1, flags := field b 2 1, sigma := field b 4 4, address := field b 8 8,
    region := field b 16 4, endpoint := field b 20 2, noiseKey := field b 22 2 }

/-- The round that a command, its parameter block and its cohort table describe (R233, R238, R534), with the policy floors, the replication
factor, the shard map and the assembly descriptor as they stand when ROUND_OPEN is accepted, and the notice of it reaches a member (R117,
R239; DESIGN CHOICE for a swap that falls between there and B_open: notes/assumptions/44.md). -/
def State.parseRound (s : State) (c : Cmd) (t : Nat) (b tb : List Byte) (bOpen : Nat) (repaired : List Nat) : Round :=
  let ps := bits c.a0 0 16
  let rep := field b 14 1 != 0xFF
  { ({} : Round) with
    tenant := t, repair := rep, number := field b 0 6, format := field b 6 1, b := field b 7 1, k := field b 10 1,
    t := field b 11 1, batch := if field b 12 2 = 0 then 256 else field b 12 2, parent := field b 14 1, l := field b 16 8,
    q := field b 24 4, pCollect := if rep then bOpen else field b 32 8, pDeadline := field b 40 8, pShareEnd := field b 48 8,
    staging := field b 56 8, cohortTable := field b 64 8, directory := field b 72 8, statement := field b 80 8,
    release := parseRelease (slice b 88 40), sizes := (List.range (tb.length / 4)).map (fun i => field tb (4 * i) 4),
    cohortMin := (s.policy t).cohortMin, roundMin := (s.policy t).roundMin, r := s.jig.cfg.assembly.r,
    shards := s.routeSet.shards, assemblyDigest := Config.digest "descriptor" (s.jig.cfg.assembly, s.routeSet.shards), psid := if ps = 0xFFFF then none else some ps, keyset := bits c.a0 16 32,
    clientLevel := bits c.a0 48 8, robust := bitAt c.a0 56, test := bits c.a0 57 1, ctCount := bits c.a1 0 32,
    clientNoise := bits c.a1 32 16, scale := bits c.a1 48 16, checkPlan := bits c.a2 0 8, exitBind := bits c.a2 8 8,
    lweKey := bits c.a2 16 16, brKey := bits c.a2 32 16, testPoly := bits c.a2 48 16, bOpen := some bOpen, repaired := repaired }

/-- B_open of a round accepted now (R234). -/
def State.bOpenNow (s : State) : Nat := s.boundaryFrom (s.pos + 150000 + 2 ^ (s.spn.k + 1))

/-- A record is FREE and no open is pending on it. -/
def Round.unused (r : Round) : Bool := r.state == .free && r.bOpen.isNone
/-- The lowest handle that is FREE on this member, and on every other but for those of a list (R230). -/
def State.freeHandle (s : State) (busy : List Nat) : Option Nat :=
  (List.range 64).find? (fun h => (s.round h).unused && !busy.contains h)
/-- A tenant's rounds that are not FREE, opens that are pending among them. -/
def State.roundsOf (s : State) (t : Nat) : Nat := ((List.range 64).filter (fun h => !(s.round h).unused && (s.round h).tenant == t)).length

/-- Shards of a COMMITTED round whose status is not OK and that no committed repair round has put right (R48; DEDUCED). -/
def State.uncovered (s : State) (h : Nat) : List Nat :=
  let r := s.round h
  (List.range r.s).filter (fun i => r.shardSt.getD i .ok != .ok &&
    !(s.repairsOf h).any (fun k => (s.round k).repaired.contains i && (s.round k).shardSt.getD i .ok == .ok))

/-- PARENT names a repair parent for the round: COMMITTED, with shards to repair, with the same number, and with no other repair
round that is other than FREE or ABORTED (R48, R236). -/
def State.repairParent (s : State) (r : Round) : Bool :=
  let p := s.round r.parent
  decide (r.parent < 64) && p.tenant == r.tenant && p.state == .committed && !p.repair && p.number == r.number &&
  !(s.uncovered r.parent).isEmpty &&
  !(List.range 64).any (fun h => let x := s.round h
    x.repair && x.parent == r.parent && x.tenant == r.tenant && !x.unused &&
      x.state != .aborted)

/-- The fields of the release parameters are in range (R299). -/
def State.releaseOk (s : State) (r : Round) (b : List Byte) : Bool :=
  let x := r.release
  let fl := (s.policy r.tenant).noiseFloor
  decide (x.target ≤ 1) && decide (x.noise ≤ 1) && (x.noise == 1 || fl == 0) && decide (x.flags ≤ 1) && zeroAt b 91 1 &&
  decide (fl ≤ x.sigma) && decide (x.sigma ≤ 0x10000000) && (decide (x.noiseKey < 1024) || x.noiseKey == 0xFFFF) &&
  (if x.target = 0 then x.region == 0 && x.endpoint == 0 else decide (x.endpoint < 8192)) && zeroAt b 112 16

/-- Every field is in its range (R231, R233); a robust round ignores K and T (R369), and an encrypted round's Q and L are
judged by R344. -/
def State.fieldsOk (s : State) (r : Round) (b : List Byte) : Bool :=
  let enc := r.psid.isSome
  decide (1 ≤ r.b) && decide (r.b ≤ 63) && decide (1 ≤ field b 8 2) && decide (field b 8 2 ≤ 4096) &&
  (r.robust || (decide (1 ≤ r.t) && decide (r.t ≤ r.k) && decide (r.k ≤ 64) && r.sizes.all (fun n => decide (r.k + 1 ≤ n)))) &&
  [16, 32, 64, 128, 256, 512, 1024].contains r.batch && zeroAt b 15 1 && zeroAt b 28 4 &&
  (enc || (decide (1 ≤ r.l) && decide (r.l < 2 ^ 48) &&
    (if r.format = 2 then r.q % 2 == 1 && decide (3 ≤ r.q) && decide (r.q < 2 ^ 31) else r.q == 0))) &&
  r.staging % 2 ^ 21 == 0 && r.sizes.all (fun n => decide (16 ≤ n) && decide (n ≤ 65536)) && decide (r.nMax ≤ 2 ^ 24) &&
  s.releaseOk r b

/-- The width w of R235. -/
def Round.width (r : Round) : Nat := match r.format with | 0 => 32 | 1 => 64 | _ => log2Floor r.q

/-- What an encrypted round's command and block must agree on (R344, R347, R368). -/
def State.encryptedOk (s : State) (r : Round) : Bool :=
  match r.psid with
  | none => true
  | some p =>
    let x := s.params p
    let d := fun i => Tab.look ({} : RingDesc) s.ring.descs i
    let e := fun i => Tab.look ({} : Evk) s.ring.evks i
    let pl := Tab.look ({} : Plan) s.ring.plans r.checkPlan
    decide (p < 64) && x.valid && x.owner == r.tenant && !x.detached && decide (r.clientLevel < x.limbs) &&
    decide (1 ≤ r.ctCount) && decide (r.ctCount ≤ 65536) && decide (x.fresh ≤ r.clientNoise) && r.format == 2 &&
    r.q == x.primes.getD 0 0 && r.l == (r.clientLevel + 1) * limbStride r.ctCount x.logN && r.release.noise == 0 &&
    (s.policy r.tenant).noiseFloor == 0 &&
    (!r.robust || (decide (r.checkPlan < 16) && pl.valid && pl.owner == r.tenant && pl.check && !pl.detached && pl.psid == p &&
      pl.inputs == r.ctCount && pl.inLevel == r.clientLevel && pl.keyset == r.keyset && decide (r.clientNoise ≤ pl.inNoiseMax) &&
      (if r.test = 0 then decide (r.exitBind < 4) && (Tab.look ({} : ExitBind) s.ring.exits (4 * r.tenant + r.exitBind)).valid
       else (e r.lweKey).valid && (e r.lweKey).owner == r.tenant && (e r.lweKey).kind == 2 && (e r.lweKey).psid == p &&
         (e r.brKey).valid && (e r.brKey).owner == r.tenant && (e r.brKey).kind == 3 &&
         (e r.brKey).psid == (e r.lweKey).targetPsid && (d r.testPoly).valid && (d r.testPoly).owner == r.tenant &&
         (d r.testPoly).type == 1 && (d r.testPoly).psid == (e r.lweKey).targetPsid)))

/-- The headroom rule: R235, or the three checks of R346 for an encrypted round. -/
def State.headroom (s : State) (r : Round) : Option Status :=
  let n := log2Ceil r.nMax
  match r.psid with
  | none => if r.b + n + 1 ≤ r.width then none else some .headroom
  | some p =>
    let x := s.params p
    let prod := (x.primes.take (r.clientLevel + 1)).foldl (· * ·) 1
    firstFail [
      (if x.exact then decide (log2Floor x.plainT < r.b + n + 1)
       else decide ((log2Floor prod : Int) < r.b + n + 1 + toSigned 16 r.scale / 256), .headroom),
      (decide (x.thresh.getD r.clientLevel 0 < r.clientNoise + 256 * n), .ctNoiseExhausted)]

/-- The positions of R238. -/
def State.positionsOk (s : State) (r : Round) (bOpen : Nat) : Bool :=
  let kk := 2 ^ s.spn.k
  (r.repair || (r.pCollect % kk == 0 && decide (bOpen + kk ≤ r.pCollect))) && r.pDeadline % kk == 0 &&
  decide (r.pCollect + 16 * kk ≤ r.pDeadline) && r.pShareEnd % kk == 0 && decide (r.pDeadline + 32 * kk ≤ r.pShareEnd)

/-- Fabric-role ports that lead to a member's own port (R36). -/
def State.portsTo (s : State) (m : Nat) : List Nat :=
  (List.range 16).filter (fun p => let x := (s.jig.cfg.ports.getD s.jig.me []).getD p {}
    x.role == 1 && x.peerMember == m)
/-- The tenant owns a SCHEDULED slot of a port (R63). -/
def State.ownsScheduled (s : State) (p t : Nat) : Bool := (s.slotTable .port p).any (fun e => e % 16 == t && e / 16 % 2 == 0)
/-- Check 8 of R236 on this member. -/
def State.roundSlots (s : State) (r : Round) : Bool :=
  (List.range 8).any (fun e => s.ownsSlot .ingest e r.tenant) &&
  (r.r != 2 || (match s.twin r with
    | some m => (s.portsTo m).any (fun p => s.ownsScheduled p r.tenant && s.linkBudgetFull r.tenant p != 0)
    | none => true))

/-- Round memory fits the tenant's HBM quota, and a robust round's staging pool its clients (R268, R369). -/
def State.memoryOk (s : State) (r : Round) : Bool :=
  let homes := (List.range r.sizes.length).filter (fun c => r.sums s.jig.me c 0)
  decide (s.usedUnits r.tenant 0 + ceilDiv (s.roundBytes r s.jig.me) 65536 ≤ s.limitUnits r.tenant 0) &&
  (!r.robust || decide ((homes.map r.size).sum * (r.chunks * 65536) ≤ r.staging))

/-- The checks of R236 that a member runs on a round, in order, after check 1. -/
def State.roundChecks (s : State) (r : Round) (b : List Byte) (bOpen : Nat) : Option Status :=
  let bad := if r.psid.isSome then Status.ctParams else .cfgMismatch
  firstFail [
    (decide (16 ≤ s.roundsOf r.tenant) || (s.freeHandle []).isNone, .quotaExceeded),
    (if r.psid.isSome then r.format != 2 else decide (2 < r.format), bad),
    (if r.repair then !s.repairParent r else decide (r.number < Tab.look 0 s.agg.lastRound r.tenant), .cfgMismatch),
    (!s.encryptedOk r, .ctParams),
    (!s.fieldsOk r b, .bounds),
    ((s.headroom r).isSome, (s.headroom r).getD .headroom),
    (!s.positionsOk r bOpen, .barrierTimeout),
    (!s.memoryOk r, .quotaExceeded),
    (!s.roundSlots r, .budget)]

/-- The key-register entries that a round takes: the round key pair and the wrapping key (R237, R467, R468). -/
def roundKeys : List (Nat × Nat) := [(5, 2 ^ 4), (4, 2 ^ 3), (1, 2 ^ 6 + 2 ^ 7)]

/-- The round takes its handle, keys and memory on this member, and waits for B_open (R234, R237, R268); the keys are drawn on the
coordinator and come with the notice to the others. A repair round inherits its parent's keys, graph seed, sets and seeds (R48). None
where the key register or the pool has no room. -/
def State.startRound (s : State) (h : Nat) (r : Round) (seed : Nat) (keys : Option (List Nat)) : Option State :=
  let p := s.round r.parent
  let need := if r.repair then 0 else 3
  if s.keyLimit r.tenant < s.keysHeld r.tenant + need || s.freeTenantKeys.length < need then none
  else
    match s.mapRound r.tenant h (ceilDiv (s.roundBytes r s.jig.me) 65536) with
    | none => none
    | some s =>
      if r.repair then
        some (s.setRound h { r with
          keyEntries := p.keyEntries.take 3, graphSeed := p.graphSeed, unverified := (s.twin r).isNone,
          clients := p.clients.map (fun e => (e.1, { e.2 with aborted := false, shared := false })),
          cohorts := p.cohorts.map (fun e => (e.1, { e.2 with settled := false, published := false, streams := 0, shares := [] })) })
      else
        let (ks, s) := match keys with
          | none => s.newKeys r.tenant 0 960 roundKeys
          | some vs => s.storeKeys r.tenant 0 960 (roundKeys.zip vs)
        let s := s.setRound h { r with keyEntries := ks, graphSeed := seed, unverified := (s.twin r).isNone }
        some { s with agg := { s.agg with lastRound := Tab.put 0 s.agg.lastRound r.tenant (r.number + 1) } }

/-- Check 1 of R236 for one block: mapped, with the R right. -/
def State.readFail (s : State) (t va n : Nat) : Option Status :=
  (s.blockFail t va n (fun p => p.r)).map (fun st => if st = .memUe then .memUe else .xlateFault)

/-- The open is pending on this member under its handle, with the verdict of its checks (R234): where they pass, the round takes its keys
and memory; QUOTA_EXCEEDED where it finds no room for them. -/
def State.pendOpen (s : State) (h : Nat) (r : Round) (seed : Nat) (keys : Option (List Nat)) (own : Status) : State :=
  match (if own = .ok then s.startRound h r seed keys else none) with
  | some s1 => s1
  | none => s.setRound h { r with openOwn := if own = .ok then .quotaExceeded else own }

/-- ROUND_OPEN: the coordinator reads the block and the table, takes the lowest handle that is free everywhere, runs the checks of R236,
draws the keys and sends the notice; the open then waits for verdicts, decision and B_open (R113, R230, R234, R237). A block that cannot
be read, no handle and a noise source that has failed end the command at once. `busyElsewhere` lists the handles that are not FREE on
another member; the bytes of a HOST page follow one another in `host`, the block first and the cohort table after it. -/
def execRoundOpen (c : Cmd) (busyElsewhere : List Nat) (s : State) : Host.Outcome State Fault Refusal :=
  .next <| s.command 0x50 c fun s =>
    let t := cmdActs c
    let plain := bits c.a0 0 16 == 0xFFFF
    match firstFail [(decide (2 ≤ s.bigE) && !s.isCoord, .cfgLocked),
        (c.len != 128 || (plain && (c.a0 / 65536 != 0 || c.a1 != 0 || c.a2 != 0)), .bounds)], s.readFail t c.addr 128 with
    | some st, _ => s.fail c st
    | none, some st => s.fail c st
    | none, none =>
      let b := s.readVA t c.addr 128 c.host
      let n := field b 8 2
      let tn := if 1 ≤ n ∧ n ≤ 4096 then 4 * n else 0
      match (if tn = 0 then none else s.readFail t (field b 64 8) tn) with
      | some st => s.fail c st
      | none =>
        let tb := s.readVA t (field b 64 8) tn (c.host.drop 128)
        let r := s.parseRound c t b tb s.bOpenNow []
        let r := { r with repaired := if r.repair then s.uncovered r.parent else [] }
        match s.freeHandle busyElsewhere with
        | none => s.fail c .quotaExceeded
        | some h =>
          if s.sec.healthFail then s.fail c .internal
          else
            let own := (s.roundChecks r b s.bOpenNow).getD .ok
            let (seed, s) := s.draw
            let s := s.pendOpen h { r with openCmd := some c } (seed % 2 ^ 256) none own
            let x := s.round h
            if 2 ≤ s.bigE then
              s.sendDevice (.roundNotice c b tb (Fin.ofNat 64 h) x.graphSeed s.bOpenNow r.repaired (x.ownKeys.map (fun i => (s.key i).value)))
            else s.setRound h { x with openDecision := some x.openOwn }

/-- The notice of an open reaches a member: it runs the checks on what the coordinator read (R234, R236); a handle that is not free here
is refused at once. -/
def State.takeRoundNotice (s : State) (c : Cmd) (block table : List Byte) (h : Handle) (seed bOpen : Nat) (repaired keys : List Nat) :
    State :=
  if (s.round h.val).unused then
    let r := s.parseRound c (cmdActs c) block table bOpen repaired
    s.pendOpen h.val r seed (some keys) ((s.roundChecks r block bOpen).getD .ok)
  else s.sendDevice (.roundVerdict s.jig.me h .quotaExceeded)

/-- A round's statement is written by the coordinator (R237, R242). -/
def State.writeStatement (s : State) (h : Nat) : State :=
  let r := s.round h
  if s.isCoord then s.writeSigned r.tenant r.statement (s.roundStatement r false) else s

/-- ROUND_OPEN_BOUNDARY: at B_open the round becomes ARMED, its tiles are zero and its statement is written; the completion
carries the handle. A refused open leaves no round, and completes with the status of the decision, or with BARRIER_TIMEOUT where none has
come (R114, R234, R237, R240, R263; DESIGN CHOICE for no decision: notes/assumptions/44.md). -/
def execRoundOpenBoundary (h : Handle) (s : State) : Host.Outcome State Fault Refusal :=
  let r := s.round h.val
  match r.bOpen with
  | none => .next s
  | some p =>
    if !(r.state == .free && s.due p) then .next s
    else if r.openDecision != some .ok then .next (s.cancelOpen h.val (r.openDecision.getD .barrierTimeout))
    else
      let s := s.zeroVA r.tenant (r.tileVa h.val 0) (r.tileCount s.jig.me * r.slotBytes)
      let s := s.updRound h.val fun r => { r with state := .armed, bOpen := none, openCmd := none }
      let s := s.writeStatement h.val
      .next (s.each r.openCmd.toList (fun s c => s.complete c .ok h.val 0 flagVaried))

/-! ### Deadlines (R242) -/

/-- What a command that names a round by its handle is checked for first (R454, R532). -/
def State.roundCmd (s : State) (c : Cmd) : Option Status :=
  let r := s.round c.a0
  firstFail [(decide (63 < c.a0), .bounds), (!r.unused && r.tenant != cmdActs c, .rights), (r.state == .free, .roundClosed)]

/-- As `roundCmd`, for a command that only the coordinator takes; elsewhere CFG_LOCKED (R234; DEDUCED for the others). -/
def State.coordCmd (s : State) (c : Cmd) : Option Status :=
  match s.roundCmd c with
  | some st => some st
  | none => if 2 ≤ s.bigE && !s.isCoord then some .cfgLocked else none

/-- The round is ARMED or COLLECTING. -/
def RoundState.early (st : RoundState) : Bool := match st with | .armed => true | .collecting => true | _ => false

/-- The deadline as it will stand once the changes accepted have applied. -/
def Round.lastDeadline (r : Round) : Nat := match r.newDeadlines.getLast? with | some x => x.2.1 | none => r.pDeadline

/-- ROUND_SET_DEADLINE (R242). -/
def execRoundSetDeadline (c : Cmd) (s : State) : Host.Outcome State Fault Refusal :=
  .next <| s.command 0x51 c fun s =>
    let r := s.round c.a0
    match s.coordCmd c, firstFail [
        (!r.state.early, .roundClosed),
        (c.a1 % s.turnTicks != 0 || decide (c.a1 ≤ r.lastDeadline), .bounds),
        (decide (c.a1 < s.pos + 150000 + 2 ^ (s.spn.k + 1)), .barrierTimeout)] with
    | some st, _ => s.fail c st
    | none, some st => s.fail c st
    | none, none =>
      let b := s.boundaryFrom (s.pos + 150000)
      let s1 := s.updRound c.a0 fun r => { r with newDeadlines := r.newDeadlines ++ [(b, c.a1, some c)] }
      if 2 ≤ s.bigE then s1.sendDevice (.deadlineNotice (Fin.ofNat 64 c.a0) c.a1 b) else s1

/-- DEADLINE_CHANGE: the first change accepted applies at its boundary, and the coordinator writes the statement with REVISION
raised; a round that has left COLLECTING by then ends the command with ROUND_CLOSED (R242). -/
def execDeadlineChange (h : Handle) (s : State) : Host.Outcome State Fault Refusal :=
  match (s.round h.val).newDeadlines with
  | [] => .next s
  | (b, d, c) :: rest =>
    if s.due b then
      let s := s.updRound h.val fun r => { r with newDeadlines := rest }
      if (s.round h.val).state.early then
        let s := s.updRound h.val fun r => { r with
          pShareEnd := r.pShareEnd + (d - r.pDeadline), pDeadline := d, revision := wrapAdd 8 r.revision 1 }
        .next ((s.writeStatement h.val).each c.toList State.ok)
      else .next (s.each c.toList (fun s c => s.fail c .roundClosed))
    else .next s

/-! ### Collection (R240, R250, R266) -/

/-- A binding covers a cohort and chunk of round `h` for its tenant (R266). -/
def State.covers (s : State) (h : Nat) (b : Bind) (c j : Nat) : Bool :=
  b.enable && b.round == h && decide (b.cohortFirst ≤ c) && decide (c < b.cohortFirst + b.cohortCount) &&
  decide (b.chunkFirst ≤ j) && decide (j < b.chunkFirst + b.chunkCount) && s.cellTenant b.cell == (s.round h).tenant &&
  s.cellGroup b.cell != 0xFF

/-- This member's bindings cover its shard (R266). -/
def State.covered (s : State) (h : Nat) : Bool :=
  let r := s.round h
  (List.range r.sizes.length).all (fun c => (r.chunksOf s.jig.me c).all (fun j =>
    (s.agg.binds.filter (fun e => s.covers h e.2 c j)).length == 1))

/-- A client of a round as this member holds it. -/
def Round.client (r : Round) (x : Nat) : ClientRec := Tab.look {} r.clients x
/-- Replace a client. -/
def Round.setClient (r : Round) (x : Nat) (v : ClientRec) : Round := { r with clients := Tab.put {} r.clients x v }
/-- A cohort of a round as this member holds it. -/
def Round.cohort (r : Round) (c : Nat) : CohortRec := Tab.look {} r.cohorts c
/-- Replace a cohort. -/
def Round.setCohort (r : Round) (c : Nat) (v : CohortRec) : Round := { r with cohorts := Tab.put {} r.cohorts c v }
/-- The clients that cohort `c`'s directory lists (R250). -/
def Round.listed (r : Round) (c : Nat) : List Nat := (r.members c).filter (fun x => (r.client x).keyHeld)

/-- The directory entry of a client: its index, mask key and tag; the tag of R250 is a MAC under its session key. -/
def directoryEntry (r : Round) (c x : Nat) (digest : Digest) : List Byte :=
  leBytes 3 x ++ leBytes 1 0 ++ beBytes 64 (r.client x).maskKey ++
  leBytes 16 (Config.digest "directory tag" ((r.client x).wrapped, r.number, c, digest)) ++ leBytes 12 0

/-- A cohort's directory: the entries listed, in ascending client order, then zeros (R250). -/
def Round.directoryBytes (r : Round) (c : Nat) : List Byte :=
  let l := r.listed c
  let digest := Config.digest "directory" (l.map (fun x => (x, (r.client x).maskKey)))
  l.flatMap (fun x => directoryEntry r c x digest) ++ List.replicate (96 * (r.size c - l.length)) 0

/-- The home engine writes the directories of its cohorts (R250); a repair round takes its parent's (R270). -/
def State.writeDirectories (s : State) (h : Nat) : State :=
  let r := s.round h
  if r.repair then s
  else s.each ((List.range r.sizes.length).filter (s.isHome r)) (fun s c =>
    s.writeVA r.tenant (r.directory + 96 * r.first c) (r.directoryBytes c) (96 * r.size c / 64 + 2))

/-- COLLECT_START: at P_COLLECT every member checks coverage; the round becomes COLLECTING with its directories written, or
ABORTED with CFG_MISMATCH (R240, R250, R266). -/
def execCollectStart (h : Handle) (peersCover : Bool) (s : State) : Host.Outcome State Fault Refusal :=
  let r := s.round h.val
  if r.state == .armed && s.due r.pCollect then
    if s.covered h.val && peersCover then
      .next ((s.writeDirectories h.val).updRound h.val fun r => { r with state := .collecting })
    else .next (s.abortRound h.val .cfgMismatch true)
  else .next s

/-- Every open bin becomes a batch, oldest first (R262). -/
def Round.flush (r : Round) : Round := { r with batches := r.batches ++ r.bins, bins := [] }

/-- DEADLINE: at P_DEADLINE the round becomes FROZEN and every open bin a batch (R240, R262). -/
def execDeadline (h : Handle) (s : State) : Host.Outcome State Fault Refusal :=
  let r := s.round h.val
  if r.state == .collecting && s.due r.pDeadline then
    .next (s.updRound h.val fun r => { r.flush with state := .frozen, drained := r.mirrorQueue.isEmpty })
  else .next s

/-- Every other member that holds a shard of a round (R249, R260, R288). -/
def State.others (s : State) (r : Round) : List Nat := (r.shards.flatten.filter (fun m => s.takesPart r m && m != s.jig.me)).dedup

/-! ### The freeze exchange (R49, R260) -/

/-- Key of a contribution bit (R257). -/
def bitKey (x j : Nat) : Nat := x * 2 ^ 34 + j
/-- The contribution bit of a client and chunk (R257). -/
def Round.bit (r : Round) (x j : Nat) : Bool := Tab.look false r.bitmap (bitKey x j)

/-- The sets of one cohort: survivors, dropped clients, and whether some client is partial (R260). -/
def Round.freezeSets (r : Round) (me c : Nat) (incomplete some_ : List Nat) : List Nat × List Nat × Bool :=
  let js := r.chunksOf me c
  let whole := fun x => js.all (r.bit x) && !incomplete.contains x && !(r.client x).aborted
  let any := fun x => js.any (r.bit x) || some_.contains x
  let l := r.listed c
  (l.filter whole, l.filter (fun x => !whole x && !any x), l.any (fun x => !whole x && any x))

/-- The freeze of one cohort on its home engine: its sets, and PARTIAL where a client is partial (R260). In a repair round the sets are the
parent's, and a cohort of which a survivor has not re-sent is REPAIR_MISSING (R49, R270). -/
def Round.freeze (r : Round) (me c : Nat) (incomplete some_ : List Nat) : Round :=
  let k := r.cohort c
  if r.repair then
    let missing := k.s.any (fun x => !(r.chunksOf me c).all (r.bit x) || incomplete.contains x)
    r.setCohort c { k with published := true, reason := if k.reason = 0 && missing then 6 else k.reason }
  else
    let (sv, dr, part) := r.freezeSets me c incomplete some_
    r.setCohort c { k with s := sv, d := dr, published := true, reason := if part then 2 else 0 }

/-- The sets of a cohort as its home engine publishes them, taken on another member (R260). -/
def Round.takeSets (r : Round) (x : HomeSets) : Round :=
  let k := r.cohort x.cohort
  r.setCohort x.cohort { k with
    s := if r.repair then k.s else x.survivors, d := if r.repair then k.d else x.dropped, reason := if k.reason = 0 then x.reason else k.reason,
    published := true }

/-- The sets of every cohort: worked out where this member is its home engine, as published where another is, and discarded with HOME_LOST
where no home engine is left (R260, R288). -/
def State.freezeAll (s : State) (r : Round) (incompleteElsewhere someElsewhere : List Nat) (homes : List HomeSets) : Round :=
  (List.range r.sizes.length).foldl (fun r c =>
    match s.home r c with
    | none => r.setCohort c { r.cohort c with published := true, reason := if (r.cohort c).reason = 0 then 5 else (r.cohort c).reason }
    | some m =>
      if m = s.jig.me then r.freeze s.jig.me c incompleteElsewhere someElsewhere
      else match homes.find? (fun x => x.cohort == c) with | some x => r.takeSets x | none => r) { r.flush with drained := true }

/-- What the freeze exchange sends, in SCHEDULED frames of the tenant: a completeness bit for each client to the cohort's home engine, and the
sets of the cohorts of which this member is the home engine to every other member (R260). -/
def State.sendFreeze (s : State) (h : Nat) : State :=
  let r := s.round h
  s.each (List.range r.sizes.length) (fun s c =>
    match s.home r c with
    | none => s
    | some m =>
      if m = s.jig.me then
        let k := r.cohort c
        let x : HomeSets := { cohort := c, survivors := k.s, dropped := k.d, reason := k.reason }
        s.each (s.others r) (fun s o => s.sendData r.tenant o ((k.s ++ k.d).flatMap (leBytes 3)) (fun p _ _ => .sets p o h x))
      else
        let l := (r.members c).map (fun x => (r.chunksOf s.jig.me c).all (r.bit x))
        s.sendData r.tenant m (List.replicate (ceilDiv l.length 8) 0) (fun p _ _ => .completeness p m h c l))

/-- FREEZE_EXCHANGE: from P_DEADLINE + 2^(k+2) ticks, once both twins' mirror queues are empty, the survivor and dropout sets of every
cohort are worked out and published (R260). The operands say that the twin's queue is empty, which clients other shards report incomplete,
and which with some chunk, and what the home engines of other cohorts have published. -/
def execFreezeExchange (h : Handle) (incompleteElsewhere someElsewhere : List Nat) (s : State) (twinDrained : Bool := true)
    (homes : List HomeSets := []) : Host.Outcome State Fault Refusal :=
  let r := s.round h.val
  let known := (List.range r.sizes.length).all (fun c => match s.home r c with
    | some m => m == s.jig.me || homes.any (fun x => x.cohort == c)
    | none => true)
  if r.state == .frozen && s.due (r.pDeadline + 2 ^ (s.spn.k + 2)) && r.mirrorQueue.isEmpty && (twinDrained || (s.twin r).isNone) &&
      !(r.cohort 0).published && known then
    .next ((s.updRound h.val fun r => s.freezeAll r incompleteElsewhere someElsewhere homes).sendFreeze h.val)
  else .next s

/-! ### Bindings (R264 to R267, R271) -/

/-- BAR0 offset of AGG_BIND_CTL of an element. -/
def bindOffset (e : Nat) : Nat := 0x00601000 + 0x20 * e

/-- The three SRAM areas of a binding, as start and length: tile block, descriptor block, batch buffer (R264, R271). -/
def Bind.areas (b : Bind) (r : Round) : List (Nat × Nat) :=
  [(b.tile * 4096, r.slotBytes), (b.desc * 64, r.binBytes / 2 ^ 20 * 64), (b.buf * 4096, 2 ^ 21)]

/-- The areas lie within the SRAM and do not overlap. -/
def areasOk (l : List (Nat × Nat)) : Bool :=
  l.all (fun x => decide (x.1 + x.2 ≤ sramBytes)) &&
  l.zipIdx.all (fun x => l.zipIdx.all (fun y => x.2 == y.2 || decide (x.1.1 + x.1.2 ≤ y.1.1) || decide (y.1.1 + y.1.2 ≤ x.1.1)))

/-- Two ranges share an element. -/
def rangesMeet (a n b m : Nat) : Bool := decide (a < b + m) && decide (b < a + n)

/-- The checks of ENABLE, in the order of AGG_BIND_CTL (R271). -/
def State.bindFail (s : State) (e : Nat) (b : Bind) : Option Status :=
  let t := e / 32
  let r := s.round b.round
  let me := s.jig.me
  let inShard := if r.robust then
      (List.range b.cohortCount).all (fun i => r.sums me (b.cohortFirst + i) 0) && decide (b.chunkFirst + b.chunkCount ≤ r.chunks)
    else decide ((r.range me).1 ≤ b.chunkFirst) && decide (b.chunkFirst + b.chunkCount ≤ (r.range me).2)
  firstFail [
    (r.state == .free || r.tenant != t, .rights), (r.state != .armed, .roundClosed),
    (s.cellTenant b.cell != t || s.cellGroup b.cell == 0xFF || s.dmaFeeds b.engine != s.cellGroup b.cell, .budget),
    (decide (b.token < 48), .bounds), (!areasOk (b.areas r), .bounds),
    (b.chunkCount == 0 || b.cohortCount == 0 || decide (r.sizes.length < b.cohortFirst + b.cohortCount) || !inShard, .bounds),
    (s.agg.binds.any (fun x => x.1 != e && x.2.enable && x.2.round == b.round &&
      rangesMeet x.2.chunkFirst x.2.chunkCount b.chunkFirst b.chunkCount &&
      rangesMeet x.2.cohortFirst x.2.cohortCount b.cohortFirst b.cohortCount), .cfgMismatch)]

/-- The descriptor that moves a tile between round memory and the tile block (R264). -/
def State.tileDesc (s : State) (h : Nat) (b : Bind) (i : Nat) (toCell : Bool) : Desc :=
  let r := s.round h
  let at_ := s.rank b.cell * 2 ^ 24 + b.tile * 4096
  { op := 0, v := false, srcCell := !toCell, dstCell := toCell, format := 0, q := 0,
    src := if toCell then r.tileVa h i else at_, dst := if toCell then at_ else r.tileVa h i,
    length := r.slotBytes, tag := 0, formOk := true }

/-- Run a descriptor of the aggregation controller whole, for a round (R264). -/
def State.runDesc (s : State) (t d h : Nat) (x : Desc) : State × Option DmaStop :=
  let w : DmaWork := { source := .batch 0 h, descs := [x], idx := 0, off := 0, preempted := false, resumed := false,
                       varied := false, begun := true, round := some h }
  let (s, _, stop) := State.dmaBeats t d w x [] none {} (x.length / 64 + 1) s 0 true (128 * (x.length / 64 + 1))
  (s, stop)

/-- Write the placed tile of a binding back to round memory (R264, R265, R292). -/
def State.writeTile (s : State) (e : Nat) : State × Option DmaStop :=
  let b := s.bind e
  if b.placed = 0 then (s, none)
  else
    let (s, stop) := s.runDesc (s.round b.round).tenant b.engine b.round (s.tileDesc b.round b (b.placed - 1) false)
    (if stop.isNone then s.setBind e { b with placed := 0 } else s, stop)

/-- Place tile number `i` in the tile block of a binding, after writing the old one back (R264). -/
def State.placeTile (s : State) (e i : Nat) : State × Option DmaStop :=
  let b := s.bind e
  if b.placed = i + 1 then (s, none)
  else
    match s.writeTile e with
    | (s, some stop) => (s, some stop)
    | (s, none) =>
      let (s, stop) := s.runDesc (s.round b.round).tenant b.engine b.round (s.tileDesc b.round b i true)
      (if stop.isNone then s.setBind e { s.bind e with placed := i + 1 } else s, stop)

/-- The tenant's DMA budget covers the moves of a placement: the tile in, and a placed one out (R69). -/
def State.tileBudget (s : State) (e i : Nat) : Bool :=
  let b := s.bind e
  let r := s.round b.round
  let n := if b.placed = i + 1 then 0 else if b.placed = 0 then 1 else 2
  decide (n * r.slotBytes ≤ (s.dmaBudget r.tenant).remaining)

/-- The fields that a write to AGG_BIND_CTL sets (R271). -/
def Bind.ctl (b : Bind) (v : Nat) : Bind :=
  { b with cell := bits v 1 6, token := bits v 7 6, round := bits v 13 6, engine := bits v 19 5 }

/-- AGG_BIND_ENABLE: a write of 1 to ENABLE checks the binding and puts it into effect, a resident one with its tile placed; a
failing check is recorded in STATUS (R265, R271). -/
def execAggBindEnable (fn : FnId) (e : Fin 256) (value : Word64) (s : State) : Host.Outcome State Fault Refusal :=
  .next <| s.ifWritable fun s =>
    let b := s.bind e.val
    if fn.val != 0 && e.val / 32 != fn.val then s.windowMiss fn.val (bindOffset e.val) true
    else if b.enable then s.discarded fn.val (bindOffset e.val) value.toNat
    else
      let b := b.ctl value.toNat
      match s.bindFail e.val b with
      | some st => s.setBind e.val { b with status := st }
      | none =>
        let res := b.cohortCount == 1 && b.chunkCount == 1
        let s := s.setBind e.val { b with
          enable := true, status := .ok, busy := false, resident := res, taken := false, streams := 0, delivered := 0,
          placed := 0, copies := [], current := none }
        if res then (s.placeTile e.val ((s.round b.round).tileIndex s.jig.me b.cohortFirst b.chunkFirst)).1 else s

/-- AGG_BIND_DISABLE: a write of 0 to ENABLE ends the binding while its round is ARMED; at any other time it is discarded
(R271). -/
def execAggBindDisable (fn : FnId) (e : Fin 256) (s : State) : Host.Outcome State Fault Refusal :=
  .next <| s.ifWritable fun s =>
    let b := s.bind e.val
    if fn.val != 0 && e.val / 32 != fn.val then s.windowMiss fn.val (bindOffset e.val) true
    else if !b.enable then s
    else if (s.round b.round).state == .armed then s.setBind e.val { b with enable := false, placed := 0, resident := false }
    else s.discarded fn.val (bindOffset e.val) 0

/-- The bytes of a batch descriptor: 1 MiB of consecutive slots into one half of the buffer (R264, R390). TAG is not stated. -/
def batchDescBytes (r : Round) (b : Bind) (rank h idx n : Nat) : List Byte :=
  leBytes 1 0 ++ leBytes 1 4 ++ leBytes 6 0 ++ leBytes 8 (r.binVa h idx + n * 2 ^ 20) ++
  leBytes 8 (rank * 2 ^ 24 + b.buf * 4096 + n % 2 * 2 ^ 20) ++ leBytes 8 (2 ^ 20) ++
  leBytes 2 (Config.unstated "batch tag" [h, idx, n]) ++ leBytes 30 0

/-- The first batch of a binding's range, in the order in which they became batches (R264). -/
def State.nextBatch (s : State) (e : Nat) : Option Bin :=
  let b := s.bind e
  (s.round b.round).batches.find? (fun x => s.covers b.round b x.cohort x.chunk)

/-- BATCH_DISPATCH: the tile is placed, the batch's descriptors are written to the descriptor block with the controller's copies,
and the binding's token is raised (R264, R267). It waits for a free cell, an owned slot and DMA budget. -/
def execBatchDispatch (e : Fin 256) (s : State) : Host.Outcome State Fault Refusal :=
  let b := s.bind e.val
  let h := b.round
  let r := s.round h
  match (if b.enable && !b.busy then s.nextBatch e.val else none) with
  | none => .next s
  | some x =>
    let i := r.tileIndex s.jig.me x.cohort x.chunk
    if s.mayIssue r.tenant .dma b.engine && s.tileBudget e.val i then
      match s.placeTile e.val i with
      | (s1, some stop) => .next (if stop.waits then s else s1.shardFail h .memUe)
      | (s, none) =>
        let ds := (List.range (r.binBytes / 2 ^ 20)).map (batchDescBytes r b (s.rank b.cell) h x.idx)
        let s := s.setBind e.val { s.bind e.val with
          busy := true, taken := false, copies := ds.map parseDesc, current := some x }
        let s := s.updRound h fun r => { r with batches := r.batches.erase x, batchCount := wrapAdd 24 r.batchCount 1 }
        let bs := ds.flatten
        let s := s.updCell b.cell fun y => if y.sealedRange (b.desc * 64) bs.length none then y else y.write (b.desc * 64) bs
        .next (s.signalToken b.cell b.token 1)
    else .next s

end Sys2Proof.Machine
end

