-- ==== Sys2Proof/Machine/Ingest.lean ====
section
/-! DEFINITION. Machine/Ingest.lean: client messages: the checks of an ingest engine, key exchange, contributions with their
bins and mirrors, and aborts (R241, R244 to R259, R261, R262, R270, R369). -/

namespace Sys2Proof.Machine

/-- Ingest engines in which a tenant owns slots, ascending (R255). -/
def State.ingestEngines (s : State) (t : Nat) : List Nat := (List.range 8).filter (fun e => decide (t < 8) && s.ownsSlot .ingest e t)
/-- The ingest engine of a client's messages (R255). -/
def State.ingestEngine (s : State) (t client : Nat) : Option Nat :=
  let l := s.ingestEngines t
  l[client % l.length]?

/-- Change the counters of an ingest engine. -/
def State.updIngest (s : State) (e : Nat) (f : Ingest → Ingest) : State :=
  { s with agg := { s.agg with ingest := Tab.put {} s.agg.ingest e (f (Tab.look {} s.agg.ingest e)) } }
/-- A message is dropped at check 1 or 2 (R256). -/
def State.dropMessage (s : State) (e : Nat) : State := s.updIngest e fun x => { x with dropped := satAdd 16 x.dropped 1 }

/-- The header of a client message: its fields at their offsets (R244). -/
def msgHeader (x : ClientMsg) : MsgHeader :=
  let f := field x.head
  { magic := f 0 4, version := f 4 1, type := f 5 1, tenant := f 6 1, format := f 7 1, round := f 8 6, cohort := f 0x0E 2, client := f 0x10 3,
    count := f 0x14 4, chunk := f 0x18 6, offset := f 0x20 6, nonce := f 0x28 12, payloadLength := f 0x34 4,
    reservedZero := zeroAt x.head 0x13 1 && zeroAt x.head 0x1E 2 && zeroAt x.head 0x26 2 && zeroAt x.head 0x38 8,
    totalLength := x.totalLength, tagOk := x.tagOk, sender := x.sender, forwarded := x.forwarded }

/-- Check 1 of R256 for a message of type `ty`. -/
def headerOk (ty : Nat) (m : MsgHeader) : Bool :=
  m.magic == 0x4D474158 && m.version == 1 && m.type == ty && m.reservedZero && m.totalLength == 64 + m.payloadLength + 16

/-- The round that a message names: of a parent and its repair round, the repair round while it is ARMED, COLLECTING or FROZEN
(R256). -/
def State.matchRound (s : State) (t number : Nat) : Option Nat :=
  let hs := (List.range 64).filter (fun h => (s.round h).state != .free && (s.round h).tenant == t && (s.round h).number == number)
  let rep := hs.find? (fun h => (s.round h).repair &&
    (match (s.round h).state with | .armed => true | .collecting => true | .frozen => true | _ => false))
  match rep, hs.find? (fun h => !(s.round h).repair) with
  | some h, _ => some h
  | none, some h => some h
  | none, none => hs.head?

/-- The 32 bytes of a receipt (R254): FLAGS bit 0 FORWARDED, bit 1 MIRRORED. -/
def receiptBytes (type : Nat) (st : Status) (tenant round cohort client flags chunk engine : Nat) : List Byte :=
  leBytes 4 0x52474158 ++ leBytes 1 1 ++ leBytes 1 type ++ leBytes 1 st.code ++ leBytes 1 tenant ++ leBytes 6 round ++ leBytes 2 cohort ++
  leBytes 3 client ++ leBytes 1 flags ++ leBytes 6 chunk ++ leBytes 2 engine ++ leBytes 4 0

/-- The receipt of a message goes to its sender (R254). -/
def State.receipt (s : State) (m : MsgHeader) (st : Status) (mirrored : Bool) : State :=
  s.emit (.receipt m.sender
    (receiptBytes m.type st m.tenant m.round m.cohort m.client (b2n m.forwarded + 2 * b2n mirrored) m.chunk s.jig.me))

/-- Forward a client message to its handler in the fabric transport class, in packets of up to 4,096 bytes (R41, R426). -/
def State.forward (s : State) (x : ClientMsg) (owner member : Nat) : State :=
  match (s.routeTo member).bind (fun r => r.ports.head?) with
  | none => s
  | some p =>
    let n := ceilDiv x.totalLength 4096
    s.each (List.range n) (fun s i =>
      s.sendFrame { port := p, owner := owner, sched := false, len := etkaiCharge false (min 4096 (x.totalLength - 4096 * i)),
                    dest := some member, out := .forward p member i n x })

/-- The field of AGG_REFUSE that counts a status. -/
def refuseField (st : Status) : Nat :=
  match st with | .duplicateContrib => 0 | .aeadFail => 1 | .roundClosed => 2 | _ => 3

/-- Count a refusal in AGG_REFUSE. -/
def State.countRefuse (s : State) (h : Nat) (st : Status) : State :=
  s.updRound h fun r => { r with refused := Tab.put 0 r.refused (refuseField st) (satAdd 16 (Tab.look 0 r.refused (refuseField st)) 1) }
/-- A message is refused: counted, and answered with the status (R254, R256). -/
def State.refuse (s : State) (h : Nat) (m : MsgHeader) (st : Status) : State := (s.countRefuse h st).receipt m st false

/-- An ingest engine takes a message of type `ty` in its tenant's slots: checks 1 to 3 of R256, then the rest. A message that no
slot serves now is held (R64, R255). -/
def State.ingest (s : State) (p : PortId) (x : ClientMsg) (ty : Nat) (rest : State → Nat → State) : State :=
  let m := msgHeader x
  let y := s.port p.val
  if y.state != 1 || (if m.forwarded then y.role != 1 else y.role != 2) then s
  else
    match s.ingestEngine m.tenant m.client with
    | none => s.dropMessage 0
    | some e =>
      if !s.mayIssue m.tenant .ingest e then s
      else
        let s1 := s.updIngest e fun x => { x with bytes := wrapAdd 48 x.bytes m.totalLength }
        if !headerOk ty m then s1.dropMessage e
        else
          match s1.matchRound m.tenant m.round with
          | none => s1.dropMessage e
          | some h =>
            match s1.handler (s1.round h) m with
            | some none => s1.refuse h m .roundClosed
            | some (some k) => if k = s.jig.me then rest s1 h else s1.forward x m.tenant k
            | none => rest s1 h

/-- The window of a message (R241, R253, R270, R369). -/
def State.inWindow (s : State) (r : Round) (m : MsgHeader) (ty : Nat) : Bool :=
  match ty with
  | 1 => r.state == .armed && decide (s.pos < r.pCollect) && !r.repair
  | 2 => r.state == .collecting && decide (s.pos < r.pDeadline) && !(r.client m.client).aborted
  | 3 => r.state == .unmasking && decide (s.pos < r.pShareEnd) && !r.repair && !r.robust
  | _ => r.state.early && decide (s.pos < r.pDeadline)

/-- The client index lies in its cohort (R231). -/
def Round.clientOk (r : Round) (c x : Nat) : Bool :=
  decide (c < r.sizes.length) && decide (r.first c ≤ x) && decide (x < r.first c + r.size c)

/-- Elements of chunk `j` (R251). -/
def Round.countOf (r : Round) (j : Nat) : Nat := if j + 1 = r.chunks then r.l - chunkElems * j else chunkElems

/-- The fields of check 5 of R256 but for the payload (R244, R246, R251 to R253). -/
def State.fieldsFit (s : State) (r : Round) (m : MsgHeader) (ty : Nat) : Bool :=
  r.clientOk m.cohort m.client &&
  (if ty = 2 then
    m.format == r.format && r.sums s.jig.me m.cohort m.chunk && m.offset == m.chunk * chunkElems && m.count == r.countOf m.chunk &&
    m.payloadLength == m.count * r.elemBytes
   else
    m.format == 0xFF && m.chunk == 0 && m.offset == 0 &&
    (match ty with
     | 1 => m.count == 0 && m.payloadLength == 1264
     | 3 => decide (1 ≤ m.count) && decide (m.count ≤ r.k) && m.payloadLength == 40 * m.count
     | _ => m.count == 0 && m.payloadLength == 16))

/-- The nonce of R245. -/
def nonceOf (m : MsgHeader) (ty : Nat) : Nat := (if ty = 2 then m.chunk % 2 ^ 48 else 0) + ty * 2 ^ 48

/-- Checks 4 to 8 of R256; `payload` is what check 5 says of a payload in the clear, `dup` what check 8 looks for. -/
def State.messageFail (s : State) (r : Round) (m : MsgHeader) (ty : Nat) (payload dup : Bool) : Option Status :=
  firstFail [
    (!s.inWindow r m ty, .roundClosed), (!(s.fieldsFit r m ty && payload), .bounds),
    (ty != 1 && !(r.client m.client).keyHeld, .keyAbsent), (m.nonce != nonceOf m ty || !m.tagOk, .aeadFail),
    (dup, .duplicateContrib)]

/-! ### KEYEX (R246 to R249) -/

/-- The parts of a KEYEX payload (R246): the ML-KEM-768 ciphertext, the client's ephemeral P-384 key, and its P-256 mask key without the
byte that says it is uncompressed. -/
def keyexCiphertext (b : List Byte) : List Byte := slice b 0 1088
def keyexPoint (b : List Byte) : List Byte := slice b 1088 97
def keyexMaskKey (b : List Byte) : Nat := leNat (slice b 1186 64).reverse

/-- What a KEYEX payload must be (R246, R248): the mask key uncompressed and a point of the curve, and zero bytes at the end. -/
def keyexOk (b : List Byte) (maskKeyValid : Bool) : Bool := maskKeyValid && field b 1185 1 == 4 && zeroAt b 1250 14

/-- The session key of R247: HKDF over the ML-KEM shared secret and the P-384 shared point, each a function of a private key and what the
client sent, with the statement's key digest as salt and header bytes 0x00 to 0x27 as info. -/
def State.sessionKey (s : State) (r : Round) (x : ClientMsg) : Nat :=
  let key := fun (i : Nat) => (s.key (r.keyEntries.getD i 1024)).value
  Config.digest "XNL7264-SESSION" (s.keyDigest r, Config.digest "ML-KEM-768 decapsulation" (key 0, keyexCiphertext x.payload),
    Config.digest "P-384 shared point" (key 1, keyexPoint x.payload), x.head.take 0x28) % 2 ^ 256

/-- A key under AES-256 key wrap (RFC 3394), of 40 bytes. -/
def wrapKey (wrap v : Nat) : Nat := Config.digest "AES-256 key wrap" (wrap, v) % 2 ^ 320

/-- The round wrapping key (R237). -/
def State.wrappingKey (s : State) (r : Round) : Nat := (s.key (r.keyEntries.getD 2 1024)).value

/-- An accepted KEYEX: the session key is held wrapped under the round wrapping key, and sent to the twins of every shard in SCHEDULED
frames; the round keys count a use (R247 to R249, R471). -/
def State.acceptKeyex (s : State) (h : Nat) (x : ClientMsg) : State :=
  let r := s.round h
  let m := msgHeader x
  let w := wrapKey (s.wrappingKey r) (s.sessionKey r x)
  let s := s.each (r.keyEntries.take 2) State.countKey
  let s := s.updRound h fun r => { r.setClient m.client { r.client m.client with
    keyex := true, keyHeld := true, wrapped := w, maskKey := keyexMaskKey x.payload } with keyexAccepted := r.keyexAccepted + 1 }
  let n := scheduledCharge (40 + Config.unstated "frame of a wrapped session key" [])
  (s.each (s.others r) (fun s k => s.sendTo r.tenant k n (fun p => .wrapped p k h m.client w))).receipt m .ok false

/-- KEYEX: a client's key exchange (R246, R248, R256). -/
def execKeyex (p : PortId) (head payload : List Byte) (seen : MsgSeen) (maskKeyValid : Bool) (s : State) : Host.Outcome State Fault Refusal :=
  let x : ClientMsg := { head := head, payload := payload, toMsgSeen := seen }
  .next <| s.ingest p x 1 fun s h =>
    let r := s.round h
    let m := msgHeader x
    match s.messageFail r m 1 (keyexOk x.payload maskKeyValid) (r.client m.client).keyHeld with
    | some st => s.refuse h m st
    | none => s.acceptKeyex h x

/-- WRAPPED_SESSION_KEY: a member receives a client's key from its home engine (R249). -/
def execWrappedSessionKey (h : Handle) (client wrapped : Nat) (s : State) : Host.Outcome State Fault Refusal :=
  let r := s.round h.val
  if r.state.isOpen && decide (client < r.nMax) && !s.frozen then
    .next (s.updRound h.val fun r => r.setClient client { r.client client with keyHeld := true, wrapped := wrapped })
  else .next s

/-! ### CONTRIB (R251, R257 to R262, R369) -/

/-- Places of the staging pool that bins, batches and dispatched batches take (R261). -/
def State.poolUsed (s : State) (h : Nat) : List Nat :=
  let r := s.round h
  (r.bins ++ r.batches).map (fun b => b.idx) ++
    (s.agg.binds.filter (fun e => e.2.enable && e.2.round == h)).filterMap (fun e => e.2.current.map (fun b => b.idx))

/-- The lowest free place of the staging pool (DESIGN CHOICE 16). -/
def State.poolFree (s : State) (h : Nat) : Option Nat :=
  (List.range ((s.round h).staging / (s.round h).binBytes)).find? (fun i => !(s.poolUsed h).contains i)

/-- The bin that takes a chunk: the open one of its cohort and chunk, or a new one, zero-filled; none while the pool is full
(R261). -/
def State.takeBin (s : State) (h c j : Nat) : Option (Bin × State) :=
  let r := s.round h
  match r.bins.find? (fun b => b.cohort == c && b.chunk == j) with
  | some b => some (b, s)
  | none =>
    match s.poolFree h with
    | none => none
    | some i =>
      let b : Bin := { cohort := c, chunk := j, idx := i, count := 0 }
      some (b, (s.zeroVA r.tenant (r.binVa h i) r.binBytes).updRound h fun r => { r with bins := r.bins ++ [b] })

/-- Of two bins the one that a pressure flush takes: more slots claimed, then the lower cohort, then the lower chunk (R262). -/
def Bin.before (a b : Bin) : Bool :=
  decide (b.count < a.count) || (a.count == b.count && (decide (a.cohort < b.cohort) || (a.cohort == b.cohort && decide (a.chunk < b.chunk))))

/-- Pressure flushes: while the open bins claim 7/8 of STAGING, the fullest becomes a batch (R262). -/
def Round.relieve : Nat → Round → Round
  | 0, r => r
  | fuel + 1, r =>
    if 7 * r.staging ≤ 8 * (r.bins.length * r.binBytes) then
      match r.bins with
      | [] => r
      | b :: l =>
        let x := l.foldl (fun m y => if y.before m then y else m) b
        Round.relieve fuel { r with
          bins := r.bins.erase x, batches := r.batches ++ [x], pressure := satAdd 16 r.pressure 1 }
    else r

/-- A chunk claims the next slot of its bin, which becomes a batch with its last slot (R257, R261, R262). -/
def State.fillBin (s : State) (h : Nat) (b : Bin) (elements : List Nat) : State :=
  let r := s.round h
  let s := s.writeVA r.tenant (r.binVa h b.idx + b.count * r.slotBytes) (r.bytesOf elements) (r.slotBytes / 64 + 1)
  let b' := { b with count := b.count + 1 }
  s.updRound h fun r =>
    let r := if b'.count = r.batch then { r with bins := r.bins.erase b, batches := r.batches ++ [b'] }
      else { r with bins := r.bins.map (fun x => if x = b then b' else x) }
    Round.relieve r.bins.length r

/-- A chunk is accepted: its bit is set and its slot claimed; a robust round holds it per client instead. None while it must wait
for the pool (R257, R261, R369). -/
def State.takeChunk (s : State) (h : Nat) (m : MsgHeader) (elements : List Nat) : Option State :=
  let mark := fun (r : Round) => { r with
    bitmap := Tab.put false r.bitmap (bitKey m.client m.chunk) true, chunksAccepted := r.chunksAccepted + 1 }
  if (s.round h).robust then
    some (s.updRound h fun r => mark { r with heldChunks := r.heldChunks ++ [(m.client, m.chunk, elements)] })
  else (s.takeBin h m.cohort m.chunk).map (fun x => (x.2.fillBin h x.1 elements).updRound h mark)

/-- Most bytes of the mirror queue: four turns of the tenant's SCHEDULED link budget towards the twin (R259). -/
def State.mirrorLimit (s : State) (r : Round) (m : Nat) : Nat := 4 * ((s.portsTo m).map (s.linkBudgetFull r.tenant)).sum

/-- The elements of a CONTRIB's payload (R251). -/
def Round.elements (r : Round) (m : MsgHeader) (b : List Byte) : List Nat :=
  (List.range m.count).map (fun i => field b (r.elemBytes * i) r.elemBytes)

/-- A message accepted here goes to the twin, header first, in SCHEDULED frames, and its receipt waits for the acknowledgement (R258,
R283). -/
def State.mirror (s : State) (h twin chunk : Nat) (x : ClientMsg) : State :=
  let m := msgHeader x
  let s := s.updRound h fun r => { r with mirrorQueue := r.mirrorQueue ++ [
    { client := m.client, chunk := chunk, bytes := 64 + m.payloadLength, sender := m.sender, forwarded := m.forwarded }] }
  s.sendData (s.round h).tenant twin (x.head ++ x.payload) (fun p bs last => .mirror p twin bs last)

/-- The acknowledgement of a mirrored message goes to the twin in the tenant's next SCHEDULED slot (R258). -/
def State.mirrorAck (s : State) (h client chunk : Nat) : State :=
  let r := s.round h
  match s.twin r with
  | some k => s.sendTo r.tenant k (scheduledCharge (Config.unstated "frame of a mirror acknowledgement" [])) (fun p => .mirrorAck p h client chunk)
  | none => s

/-- CONTRIB: a masked chunk is accepted into its bin and mirrored to a live twin, whose acknowledgement the receipt awaits; it is
held while the pool or the mirror queue is full (R42, R251, R256 to R259). `abortedElsewhere` says that the client's home engine, where
it is another member, has accepted an ABORT, after which a CONTRIB is refused with ROUND_CLOSED (R253). -/
def execContrib (p : PortId) (x : ClientMsg) (abortedElsewhere : Bool) (s : State) : Host.Outcome State Fault Refusal :=
  .next <| s.ingest p x 2 fun s1 h =>
    let r := s1.round h
    let m := msgHeader x
    let elements := r.elements m x.payload
    match (if abortedElsewhere then some .roundClosed else s1.messageFail r m 2 true (r.bit m.client m.chunk)) with
    | some st => s1.refuse h m st
    | none =>
      let bytes := 64 + m.payloadLength
      match (if r.r = 2 then s1.twin r else none) with
      | none => (match s1.takeChunk h m elements with | some s2 => s2.receipt m .ok false | none => s)
      | some k =>
        if s1.mirrorLimit r k < (r.mirrorQueue.map (fun x => x.bytes)).sum + bytes then s
        else match s1.takeChunk h m elements with
          | none => s
          | some s2 => s2.mirror h k m.chunk x

/-- CONTRIB_MIRROR: the other twin checks its bitmap, writes the chunk to its own bin and acknowledges; a duplicate is acknowledged
too (R257, R258). A mirror may land after the deadline; its bin then becomes a batch with the freeze exchange. -/
def execContribMirror (head payload : List Byte) (s : State) : Host.Outcome State Fault Refusal :=
  let m := msgHeader { head := head, payload := payload }
  match (if s.frozen then none else s.matchRound m.tenant m.round) with
  | none => .next s
  | some h =>
    let r := s.round h
    let open_ := match r.state with | .collecting => true | .frozen => true | _ => false
    if !open_ || !r.clientOk m.cohort m.client || !r.sums s.jig.me m.cohort m.chunk then .next s
    else if r.bit m.client m.chunk then .next ((s.countRefuse h .duplicateContrib).mirrorAck h m.client m.chunk)
    else
      .next (match s.takeChunk h m (r.elements m payload) with
        | some s1 => s1.mirrorAck h m.client m.chunk
        | none => s)

/-- The cohort of a client. -/
def Round.cohortOf (r : Round) (x : Nat) : Nat := ((List.range r.sizes.length).find? (fun c => r.clientOk c x)).getD 0

/-- Chunk number that marks a SHARE in the mirror queue. -/
def shareMark : Nat := 2 ^ 34

/-- MIRROR_ACK: the twin has acknowledged a mirrored message; the receipt goes out with MIRRORED set (R42, R258, R283). -/
def execMirrorAck (h : Handle) (client chunk : Nat) (s : State) : Host.Outcome State Fault Refusal :=
  let r := s.round h.val
  match (if s.frozen then none else r.mirrorQueue.find? (fun x => x.client == client && x.chunk == chunk)) with
  | none => .next s
  | some x =>
    let s := s.updRound h.val fun r => { r with
      mirrorQueue := r.mirrorQueue.erase x,
      drained := r.drained || ((r.mirrorQueue.erase x).isEmpty && decide (r.pDeadline ≤ s.pos)) }
    let sh := chunk == shareMark
    .next (s.emit (.receipt x.sender (receiptBytes (if sh then 3 else 2) .ok r.tenant r.number (r.cohortOf client) client
      (b2n x.forwarded + 2) (if sh then 0 else chunk) s.jig.me)))

/-! ### ABORT (R253) -/

/-- ABORT: the client goes to the dropout set at the freeze, and its reason is reported to the tenant (R253). `elsewhere` says that
another member has accepted a chunk of the client. -/
def execAbortMsg (p : PortId) (head payload : List Byte) (seen : MsgSeen) (elsewhere : Bool) (s : State) : Host.Outcome State Fault Refusal :=
  let x : ClientMsg := { head := head, payload := payload, toMsgSeen := seen }
  .next <| s.ingest p x 4 fun s h =>
    let r := s.round h
    let m := msgHeader x
    let reason := field x.payload 0 4
    let padZero := zeroAt x.payload 4 12
    let any := elsewhere || r.bitmap.any (fun e => e.1 / 2 ^ 34 == m.client)
    match s.messageFail r m 4 true (padZero && any) with
    | some st => s.refuse h m st
    | none =>
      if !padZero then s.refuse h m .bounds
      else
        let s := s.updRound h fun r => r.setClient m.client { r.client m.client with aborted := true }
        (s.event (r.tenant + 1) 4 0 r.tenant (s.roundDetail h + reason % 2 ^ 32 * 2 ^ 64)).receipt m .ok false

end Sys2Proof.Machine
end

