-- ==== Sys2Proof/Machine/Unmask.lean ====
section
/-! DEFINITION. Machine/Unmask.lean: the neighbour graph and mask streams, the protocol guard and its shares, seed reconstruction,
delivery, and the gate pass (R272 to R296). -/

namespace Sys2Proof.Machine

/-! ### Mask streams (R275, R276) -/

/-- The counter block of a stream: ROUND, PURPOSE and BLOCK (R275). -/
def counterBlock (number purpose block : Nat) : Nat := number % 2 ^ 48 + purpose * 2 ^ 48 + block * 2 ^ 64

/-- `w` keystream bytes from byte `j` of a stream, `w` dividing 16, as a little-endian number; the stream starts at block
`first` (R275). -/
def keystream (seed number purpose first w j : Nat) : Nat :=
  bits (Config.streamBlock seed (counterBlock number purpose (first + j / 16))) (8 * (j % 16)) (8 * w)

/-- Element `n` of a mask stream, before reduction: 4 bytes in Z32, 8 in Z64 and ZQ (R276). -/
def maskElement (seed number purpose format n : Nat) : Nat :=
  let w := if format = 0 then 4 else 8
  keystream seed number purpose 0 w (w * n)

/-! ### The neighbour graph (R278) -/

/-- Exchange two places of a list. -/
def swapAt (l : List Nat) (i j : Nat) : List Nat := (l.set i (l.getD j 0)).set j (l.getD i 0)

/-- The shuffle of R278: for i from n - 1 down to 1 the next 8 bytes of the graph stream say what `at[i]` is exchanged with; `i`
steps are left of `n - 1`. -/
def shuffle (seed number c n : Nat) : Nat → List Nat → List Nat
  | 0, l => l
  | i + 1, l =>
    let w := keystream seed number 3 (c * 2 ^ 48) 8 (8 * (n - 2 - i))
    shuffle seed number c n i (swapAt l (i + 1) (w % (i + 2)))

/-- Member at each position, for cohort `c` of `n` members (R278). -/
def graphAt (seed number c n : Nat) : List Nat := shuffle seed number c n (n - 1) (List.range n)

/-- Positions `p` and `q` of `n` are neighbours at degree `k` (R278). -/
def adjacent (n k p q : Nat) : Bool :=
  let d := (q + n - p) % n
  let h := n / 2
  p != q && ((decide (1 ≤ d) && decide (d ≤ k / 2)) || (decide (1 ≤ n - d) && decide (n - d ≤ k / 2)) ||
    (k % 2 == 1 && decide (p < 2 * h) && q == (if p < h then p + h else p - h)))

/-- The degree of the member at position `p` (R278). -/
def degreeAt (n k p : Nat) : Nat := if k % 2 = 1 && n % 2 = 1 && p + 1 = n then k - 1 else k

/-- Position of a client in its cohort's graph. -/
def Round.position (r : Round) (c x : Nat) : Nat := (graphAt r.graphSeed r.number c (r.size c)).idxOf (x - r.first c)
/-- Clients `x` and `y` of cohort `c` are neighbours. -/
def Round.neighbours (r : Round) (c x y : Nat) : Bool := adjacent (r.size c) r.k (r.position c x) (r.position c y)
/-- The threshold t_a of a client (R279). -/
def Round.threshold (r : Round) (c x : Nat) : Nat :=
  if degreeAt (r.size c) r.k (r.position c x) = r.k then r.t else min r.t (r.k - 1)

/-! ### Streams of a cohort (R289) -/

/-- A stream: the self stream of a survivor, or the pairwise stream of a dropped client and a surviving neighbour. -/
inductive MaskStream where
  | self (x : Nat)
  | pair (u v : Nat)
  deriving DecidableEq, Repr

/-- The stream list of a cohort, for each of its tiles (R289). -/
def Round.streamList (r : Round) (c : Nat) : List MaskStream :=
  let k := r.cohort c
  k.s.map MaskStream.self ++ k.d.flatMap (fun u => (k.s.filter (r.neighbours c u)).map (MaskStream.pair u))

/-- The seed of a stream, where it is held (R285, R288). -/
def Round.seedOf (r : Round) (c : Nat) : MaskStream → Option Nat
  | .self x => if (r.client x).secret = 0 then none else some ((r.client x).secret - 1)
  | .pair u v => ((r.cohort c).pairs.find? (fun p => p.1 == u && p.2.1 == v)).map (fun p => p.2.2)

/-- The element that a stream delivers at vector element `n`: −s, or −σ(v, u) · p_uv, modulo the element's modulus (R277, R289). -/
def State.streamElement (s : State) (r : Round) (st : MaskStream) (seed n : Nat) : Nat :=
  let m := s.elemMod r n
  let (v, neg) := match st with
    | .self _ => (maskElement seed r.number 1 r.format n % m, true)
    | .pair u v => (maskElement seed r.number 2 r.format n % m, decide (v < u))
  if neg then (m - v) % m else v

/-- The elements of a stream for chunk `j`: 0 at or beyond L, and all zero for a discarded cohort (R289, R290). -/
def State.streamChunk (s : State) (r : Round) (c j : Nat) (st : MaskStream) : Option (List Nat) :=
  if (r.cohort c).discarded then some (List.replicate chunkElems 0)
  else (r.seedOf c st).map (fun seed => (List.range chunkElems).map (fun i =>
    let n := j * chunkElems + i
    if n < r.l then s.streamElement r st seed n else 0))

/-- The tiles of a binding in ascending cohort and chunk, without those of cohorts discarded at UNMASKING entry (R289). -/
def Bind.tiles (b : Bind) (r : Round) : List (Nat × Nat) :=
  ((List.range b.cohortCount).map (· + b.cohortFirst)).filter (fun c => (r.cohort c).streams != 0) |>.flatMap (fun c =>
    (List.range b.chunkCount).map (fun j => (c, j + b.chunkFirst)))

/-- Stream number `n` of a binding: its tile and its place in the cohort's list (R289). -/
def nthStream (r : Round) : List (Nat × Nat) → Nat → Option (Nat × Nat × Nat)
  | [], _ => none
  | (c, j) :: l, n => let k := (r.cohort c).streams; if n < k then some (c, j, n) else nthStream r l (n - k)

/-! ### UNMASKING entry and settlement (R280, R284, R290, R369 to R372) -/

/-- Survivors and dropped clients that neighbour a client: whom its shares name (R282). -/
def Round.shareNames (r : Round) (c x : Nat) : List Nat :=
  let k := r.cohort c
  (r.members c).filter (fun y => (k.s.contains y || k.d.contains y) && r.neighbours c x y)

/-- Every survivor of a cohort has sent its SHARE, or has none to send (R283, R284). -/
def Round.allShared (r : Round) (c : Nat) : Bool :=
  (r.cohort c).s.all (fun x => (r.client x).shared || (r.shareNames c x).isEmpty)

/-- A cohort settles (R284). -/
def Round.settle (r : Round) (c : Nat) : Round :=
  let k := r.cohort c
  if k.discarded then r else r.setCohort c { k with settled := true }

/-- Every survivor that this member's home cohorts keep has a verdict (R370). -/
def State.verdictsIn (s : State) (r : Round) : Bool :=
  !r.robust || (List.range r.sizes.length).all (fun c =>
    !s.isHome r c || (r.cohort c).discarded || (r.cohort c).s.all (fun x => (r.client x).verdict != 0))

/-- A robust cohort without the clients that failed their check, which join neither set, and whose held chunks are zeroed
(R371). -/
def Round.dropFailed (r : Round) (c : Nat) : Round :=
  let k := r.cohort c
  let bad := k.s.filter (fun x => (r.client x).verdict == 1)
  { r.setCohort c { k with s := k.s.filter (fun x => !bad.contains x) } with
    heldChunks := r.heldChunks.filter (fun x => !bad.contains x.1) }

/-- UNMASKING entry of one cohort: PARTIAL and below-minimum cohorts are discarded, the guard states of a kept one are set, and its
stream count fixed (R280, R289, R290). A robust or repair round asks for no share: its cohorts settle at once (R48, R270, R369). -/
def Round.enterCohort (r : Round) (c : Nat) : Round :=
  let r := if r.robust then r.dropFailed c else r
  let k := r.cohort c
  let k := { k with reason := if k.reason = 0 && decide (k.s.length < r.cohortMin) then 1 else k.reason }
  let r := r.setCohort c { k with streams := if k.discarded || r.robust then 0 else (r.streamList c).length }
  if k.discarded then r
  else
    let r := if r.repair then r else
      k.d.foldl (fun r x => r.setClient x { r.client x with guard := 2 })
        (k.s.foldl (fun r x => r.setClient x { r.client x with guard := 1 }) r)
    if r.robust || r.repair then r.setCohort c { r.cohort c with settled := true, rebuilt := true }
    else if r.allShared c then r.settle c else r

/-- One batch of held chunks goes to its slots (R372). -/
def State.gatherBatch (s : State) (h c j : Nat) (l : List (List Nat)) : State :=
  let r := s.round h
  let i := (s.poolFree h).getD 0
  let s := s.zeroVA r.tenant (r.binVa h i) r.binBytes
  let s := s.writeVA r.tenant (r.binVa h i) (l.flatMap r.bytesOf) (r.binBytes / 64 + 1)
  s.updRound h fun r => { r with batches := r.batches ++ [{ cohort := c, chunk := j, idx := i, count := l.length }] }

/-- Split a list into groups of `n`. -/
def splitEvery {α : Type} (n : Nat) : Nat → List α → List (List α)
  | 0, _ => []
  | fuel + 1, l => if l.isEmpty then [] else l.take n :: splitEvery n fuel (l.drop n)

/-- The held chunks of a robust round become batches of BATCH clients in ascending client order (R372). -/
def State.gatherHeld (s : State) (h : Nat) : State :=
  let r := s.round h
  if !r.robust then s
  else s.each (List.range r.sizes.length) (fun s c =>
    s.each (if (r.cohort c).discarded then [] else r.chunksOf s.jig.me c) (fun s j =>
      let chunks := (r.cohort c).s.filterMap (fun x => (r.heldChunks.find? (fun y => y.1 == x && y.2.1 == j)).map (fun y => y.2.2))
      s.each (splitEvery r.batch chunks.length chunks) (fun s l => s.gatherBatch h c j l)))

/-- Delivery is armed (R291). -/
def State.armDelivery (s : State) (h : Nat) : State := s.updRound h fun r => { r with unmaskArmed := true, armAt := none }

/-- UNMASKING_ENTRY: once the sets are published, and in a robust round every verdict is in, the round becomes UNMASKING: guard
states are set and stream counts published. A coordinator in HOST_LOST arms delivery (R240, R280, R290, R370, R512). -/
def execUnmaskingEntry (h : Handle) (s : State) : Host.Outcome State Fault Refusal :=
  let r := s.round h.val
  if r.state == .frozen && (r.cohort 0).published && s.due (r.pDeadline + 2 ^ (s.spn.k + 4)) && s.verdictsIn r then
    let s := s.updRound h.val fun r => { (List.range r.sizes.length).foldl Round.enterCohort r with state := .unmasking }
    let r := s.round h.val
    let s := s.each (s.agg.binds.filter (fun e => e.2.enable && e.2.round == h.val)) (fun s e =>
      s.setBind e.1 { e.2 with streams := ((e.2.tiles r).map (fun x => (r.cohort x.1).streams)).sum, delivered := 0 })
    let s := s.gatherHeld h.val
    .next (if s.dbg.host.lost && s.isCoord then
      (s.armDelivery h.val).event (r.tenant + 1) 4 0 r.tenant (s.roundDetail h.val)
    else s)
  else .next s

/-- SHARE_END: at P_SHARE_END every cohort that has not settled settles (R284). -/
def execShareEnd (h : Handle) (s : State) : Host.Outcome State Fault Refusal :=
  let r := s.round h.val
  if r.state == .unmasking && s.due r.pShareEnd then
    .next (s.updRound h.val fun r => (List.range r.sizes.length).foldl Round.settle r)
  else .next s

/-! ### SHARE (R252, R282, R283) -/

/-- The entries of a SHARE payload, of 40 bytes each (R252). -/
def shareEntries (m : MsgHeader) (b : List Byte) : List ShareEntry :=
  (List.range m.count).map (fun i =>
    { client := field b (40 * i) 3, kind := field b (40 * i + 3) 1, rsvd := field b (40 * i + 4) 4, value := field b (40 * i + 8) 32 })

/-- The prime of the share field (R272). -/
def gfP : Nat := 2 ^ 256 - 189

/-- The checks of R282, in order. -/
def Round.shareFail (r : Round) (m : MsgHeader) (entries : List ShareEntry) : Option Status :=
  let k := r.cohort m.cohort
  firstFail [
    (k.discarded, .cohortBelowMin), (k.settled, .roundClosed), ((r.client m.client).guard != 1, .guardRefused),
    ((r.client m.client).shared, .duplicateContrib),
    (entries.map (fun e => e.client) != r.shareNames m.cohort m.client || entries.any (fun e => e.rsvd != 0), .bounds),
    (entries.any (fun e => e.kind != (if k.s.contains e.client then 1 else 2)), .guardRefused)]

/-- A refusal under R282: counted in AGG_SHARES and answered. -/
def State.refuseShare (s : State) (h : Nat) (m : MsgHeader) (st : Status) : State :=
  (s.updRound h fun r =>
    if st = .guardRefused then { r with sharesGuard := satAdd 16 r.sharesGuard 1 }
    else { r with sharesOther := satAdd 16 r.sharesOther 1 }).receipt m st false

/-- The shares of an accepted message: sender, client named, kind, value. -/
def Round.addShares (r : Round) (m : MsgHeader) (entries : List ShareEntry) : Round :=
  let k := r.cohort m.cohort
  let r := r.setCohort m.cohort { k with shares := k.shares ++ entries.map (fun e => (m.client, e.client, e.kind, e.value)) }
  let r := r.setClient m.client { r.client m.client with shared := true }
  if r.allShared m.cohort then r.settle m.cohort else r

/-- SHARE: the guard takes a survivor's shares; the receipt follows at once, or after the twin's acknowledgement where r = 2
(R252, R256, R282 to R284). -/
def execShare (p : PortId) (text : MsgText) (seen : MsgSeen) (s : State) : Host.Outcome State Fault Refusal :=
  let x : ClientMsg := { toMsgText := text, toMsgSeen := seen }
  .next <| s.ingest p x 3 fun s h =>
    let r := s.round h
    let m := msgHeader x
    let entries := shareEntries m x.payload
    match (match s.messageFail r m 3 true false with
        | some st => some st
        | none => if entries.all (fun e => decide (e.value < gfP)) then none else some .bounds) with
    | some st => s.refuse h m st
    | none =>
      match r.shareFail m entries with
      | some st => s.refuseShare h m st
      | none =>
        let s1 := s.updRound h fun r => { r.addShares m entries with sharesAccepted := wrapAdd 32 r.sharesAccepted 1 }
        match (if r.r = 2 then s.twin r else none) with
        | none => s1.receipt m .ok false
        | some k => s1.mirror h k shareMark x

/-- SHARE_MIRROR: the home engine's twin takes a mirrored SHARE and acknowledges it (R283). -/
def execShareMirror (head payload : List Byte) (s : State) : Host.Outcome State Fault Refusal :=
  let m := msgHeader { head := head, payload := payload }
  match (if s.frozen then none else s.matchRound m.tenant m.round) with
  | none => .next s
  | some h =>
    let r := s.round h
    if r.state == .unmasking && r.clientOk m.cohort m.client && !(r.client m.client).shared then
      .next ((s.updRound h fun r => r.addShares m (shareEntries m payload)).mirrorAck h m.client shareMark)
    else .next s

/-! ### Seed reconstruction (R285 to R288) -/

/-- `b ^ e` modulo `p`, by squaring; `fuel` bounds the bits of `e`. -/
def powMod (p : Nat) : Nat → Nat → Nat → Nat
  | 0, _, _ => 1 % p
  | fuel + 1, b, e =>
    if e = 0 then 1 % p
    else (if e % 2 = 1 then b * powMod p fuel (b * b % p) (e / 2) else powMod p fuel (b * b % p) (e / 2)) % p

/-- The inverse modulo the share prime. -/
def gfInv (a : Nat) : Nat := powMod gfP 257 (a % gfP) (gfP - 2)

/-- The value at `z` of the polynomial through the points, modulo the share prime: at 0 the sum of R285. -/
def interpolate (pts : List (Nat × Nat)) (z : Nat) : Nat :=
  (pts.map (fun x => (pts.filter (fun y => y.1 != x.1)).foldl (fun a y =>
    a * ((y.1 + gfP - z % gfP) % gfP) % gfP * gfInv ((y.1 + gfP - x.1) % gfP) % gfP) x.2)).sum % gfP

/-- The accepted shares of a client's secret of one kind, by rising x = b + 1 (R279, R285). -/
def Round.points (r : Round) (c x kind : Nat) : List (Nat × Nat) :=
  let k := r.cohort c
  (r.members c).filterMap (fun b => (k.shares.find? (fun e => e.1 == b && e.2.1 == x && e.2.2.1 == kind)).map (fun e =>
    (b - r.first c + 1, e.2.2.2)))

/-- Rebuild one secret: its value, or the reason for discarding the cohort: 3 SHARES_SHORT, 4 SHARE_INCONSISTENT (R285, R286).
`keyOk` is the check d·G = Q of a pairwise key. -/
def Round.rebuild (r : Round) (c x kind : Nat) (keyOk : Bool) : Except Nat Nat :=
  let t := r.threshold c x
  let pts := r.points c x kind
  if t = 0 || decide (pts.length < t) then .error 3
  else
    let base := pts.take t
    let v := interpolate base 0
    if (pts.drop t).any (fun q => interpolate base q.1 != q.2) then .error 4
    else if kind = 2 && (v == 0 || decide (p256Order ≤ v) || !keyOk) then .error 4
    else .ok v

/-- The self seeds of a cohort's survivors, in order, counting those rebuilt (R285). -/
def Round.rebuildSelf (r : Round) (c : Nat) : List Nat → Round × Nat
  | [] => (r, 0)
  | x :: l =>
    match r.rebuild c x 1 true with
    | .error e => (r, e)
    | .ok v => Round.rebuildSelf { r.setClient x { r.client x with secret := v + 1 } with reconSelf := wrapAdd 32 r.reconSelf 1 } c l

/-- The pairwise seed of R273 between a dropped client, whose key is rebuilt, and a survivor. -/
def State.pairSeed (s : State) (r : Round) (c u v d : Nat) : Nat :=
  let a := min u v - r.first c
  let b := max u v - r.first c
  Config.digest "pair" (s.keyDigest r, Config.agree d (r.client v).maskKey, r.number, c, a, b) % 2 ^ 256

/-- The pairwise keys of dropped clients that have a surviving neighbour, and their seeds, counting the keys rebuilt (R285). -/
def State.rebuildPairs (s : State) (c : Nat) (keyOk : Bool) : List Nat → Round → Round × Nat
  | [], r => (r, 0)
  | u :: l, r =>
    let vs := (r.cohort c).s.filter (r.neighbours c u)
    if vs.isEmpty then State.rebuildPairs s c keyOk l r
    else
      match r.rebuild c u 2 keyOk with
      | .error e => (r, e)
      | .ok d =>
        let k := r.cohort c
        let r := r.setCohort c { k with pairs := k.pairs ++ vs.map (fun v => (u, v, s.pairSeed r c u v d)) }
        State.rebuildPairs s c keyOk l { r with reconPair := wrapAdd 16 r.reconPair 1 }

/-- The seeds that a home engine has rebuilt for a cohort: of its survivors, then of its dropped clients' pairs (R285, R288). -/
def Round.seedList (r : Round) (c : Nat) : List Nat :=
  (r.cohort c).s.filterMap (fun x => r.seedOf c (.self x)) ++ (r.cohort c).pairs.map (fun p => p.2.2)

/-- Seeds, wrapped under the round wrapping key, or the decision to discard the cohort, go to both twins of every shard in SCHEDULED frames
(R288). -/
def State.sendSeeds (s : State) (h c : Nat) : State :=
  let r := s.round h
  let k := r.cohort c
  let bs := if k.discarded then [] else (r.seedList c).flatMap (fun v => leBytes 40 (wrapKey (s.wrappingKey r) v))
  s.each (s.others r) (fun s m => s.sendData r.tenant m bs (fun p x last => .seeds p m h c k.reason x last))

/-- SEED_RECONSTRUCTION: the home engine rebuilds the secrets of a settled cohort, or discards it, and sends seeds or discard to
every member (R285, R286, R288). `keysMatch` is the verdict d·G = Q on its pairwise keys. -/
def execSeedReconstruction (h : Handle) (cohort : Nat) (keysMatch : Bool) (s : State) : Host.Outcome State Fault Refusal :=
  let r := s.round h.val
  let k := r.cohort cohort
  if r.state == .unmasking && decide (cohort < r.sizes.length) && s.isHome r cohort && k.settled && !k.rebuilt && !k.discarded then
    let (r1, e1) := r.rebuildSelf cohort k.s
    let (r2, e) := if e1 = 0 then s.rebuildPairs cohort keysMatch k.d r1 else (r1, e1)
    .next ((s.setRound h.val (r2.setCohort cohort { r2.cohort cohort with rebuilt := e == 0, reason := e })).sendSeeds h.val cohort)
  else .next s

/-- SEED_DISTRIBUTION: a member receives the seeds of a cohort, a self seed naming its client twice, or the decision to discard it
with its reason (R288). -/
def execSeedDistribution (h : Handle) (cohort : Nat) (seeds : List (Nat × Nat × Nat)) (discard : Option Nat) (s : State) :
    Host.Outcome State Fault Refusal :=
  let r := s.round h.val
  let k := r.cohort cohort
  if r.state == .unmasking && decide (cohort < r.sizes.length) && !k.rebuilt && !k.discarded then
    .next (s.updRound h.val fun r =>
      match discard with
      | some e => r.setCohort cohort { k with settled := true, reason := e }
      | none =>
        let r := seeds.foldl (fun r x => if x.1 = x.2.1 then r.setClient x.1 { r.client x.1 with secret := x.2.2 + 1 } else r) r
        r.setCohort cohort { k with settled := true, rebuilt := true, pairs := seeds.filter (fun x => x.1 != x.2.1) })
  else .next s

/-! ### ROUND_UNMASK and delivery (R291, R292) -/

/-- ROUND_UNMASK (R291). -/
def execRoundUnmask (c : Cmd) (s : State) : Host.Outcome State Fault Refusal :=
  .next <| s.command 0x52 c fun s =>
    let r := s.round c.a0
    match s.coordCmd c, firstFail [(r.state != .unmasking, .roundClosed),
        (r.unmaskCmd.isSome || r.unmaskArmed || r.armAt.isSome, .cfgLocked)] with
    | some st, _ => s.fail c st
    | none, some st => s.fail c st
    | none, none =>
      let b := s.boundaryAfter s.pos
      let s := s.updRound c.a0 fun r => { r with unmaskCmd := some c, armAt := some b }
      if 2 ≤ s.bigE then s.sendDevice (.unmaskNotice (Fin.ofNat 64 c.a0) b) else s

/-- DELIVERY_ARM: at the first turn boundary after ROUND_UNMASK every member arms delivery (R291). -/
def execDeliveryArm (h : Handle) (s : State) : Host.Outcome State Fault Refusal :=
  match (s.round h.val).armAt with
  | some b => if (s.round h.val).state == .unmasking && s.due b then .next (s.armDelivery h.val) else .next s
  | none => .next s

/-- STREAM_DELIVERY: the binding's next stream, once its seed is held and the cell has finished the one before, is bound to stream
binding 0 of the cell and notified; after the last one of a non-resident binding the tile is written back (R289, R290, R292). -/
def execStreamDelivery (e : Fin 256) (s : State) : Host.Outcome State Fault Refusal :=
  let b := s.bind e.val
  let h := b.round
  let r := s.round h
  if !b.enable || b.busy || r.state != .unmasking || !r.unmaskArmed || (s.nextBatch e.val).isSome ||
      !s.mayIssue r.tenant .dma b.engine then .next s
  else
    match nthStream r (b.tiles r) b.delivered with
    | none =>
      if b.resident || b.placed = 0 || !s.tileBudget e.val b.placed then .next s
      else
        match s.writeTile e.val with
        | (s1, some stop) => .next (if stop.waits then s else s1.shardFail h .memUe)
        | (s1, none) => .next s1
    | some (c, j, n) =>
      let i := r.tileIndex s.jig.me c j
      match ((r.streamList c)[n]?).bind (s.streamChunk r c j) with
      | none => .next s
      | some l =>
        if !s.tileBudget e.val i then .next s
        else
          match s.placeTile e.val i with
          | (s1, some stop) => .next (if stop.waits then s else s1.shardFail h .memUe)
          | (s, none) =>
            let s := s.setBind e.val { s.bind e.val with busy := true, taken := false, delivered := wrapAdd 32 b.delivered 1 }
            let s := s.updCell b.cell fun x => { x with streams := Tab.put none x.streams 0 (some { elements := l }) }
            .next (s.signalToken b.cell b.token 1)

/-! ### The gate pass (R294 to R296) -/

/-- Every cohort is settled and reconstructed, or discarded (R294). -/
def Round.cohortsDone (r : Round) : Bool := (List.range r.sizes.length).all (fun c => (r.cohort c).discarded || (r.cohort c).rebuilt)

/-- Every binding of the round has delivered its streams and batches, and its cell has finished the last one (R294). -/
def State.bindsDone (s : State) (h : Nat) : Bool :=
  (s.agg.binds.filter (fun e => e.2.enable && e.2.round == h)).all (fun e =>
    e.2.delivered == e.2.streams && !e.2.busy && (s.nextBatch e.1).isNone)

/-- The binding whose tile block holds a tile (R265, R294). -/
def State.holderOf (s : State) (h i : Nat) : Option Bind :=
  ((s.agg.binds.find? (fun e => e.2.enable && e.2.round == h && e.2.placed == i + 1))).map (fun e => e.2)

/-- The bytes of a tile, read where it lies (R294). -/
def State.tileBytes (s : State) (h c j : Nat) : List Byte :=
  let r := s.round h
  let i := r.tileIndex s.jig.me c j
  match s.holderOf h i with
  | some b => (s.cell b.cell).read (b.tile * 4096) r.slotBytes
  | none => s.readVA r.tenant (r.tileVa h i) r.slotBytes []

/-- The digest of a tile (R294). -/
def State.tileDigest (s : State) (h c j : Nat) : Digest :=
  Config.digest "tile" ((s.round h).number, c, j, (s.round h).format, s.tileBytes h c j)

/-- Kept cohorts whose tiles of chunk `j` this member sums. -/
def Round.keptFor (r : Round) (me j : Nat) : List Nat :=
  (List.range r.sizes.length).filter (fun c => r.sums me c j && !(r.cohort c).discarded)

/-- Chunks of which this member holds tiles. -/
def Round.myChunks (r : Round) (me : Nat) : List Nat :=
  (List.range r.chunks).filter (fun j => (List.range r.sizes.length).any (fun c => r.sums me c j))

/-- The total of a chunk over the kept cohorts (R294). -/
def State.chunkTotal (s : State) (h j : Nat) : List Nat :=
  let r := s.round h
  let tiles := (r.keptFor s.jig.me j).map (fun c => r.elemsOf (s.tileBytes h c j))
  (List.range chunkElems).map (fun i => (tiles.map (fun t => t.getD i 0)).sum % s.elemMod r (j * chunkElems + i))

/-- The chunk totals go over the tiles of the lowest-numbered kept cohorts (R294). -/
def State.writeTotal (s : State) (h : Nat) (x : Nat × List Nat) : State :=
  let r := s.round h
  match r.keptFor s.jig.me x.1 with
  | [] => s
  | c :: _ =>
    let i := r.tileIndex s.jig.me c x.1
    match s.holderOf h i with
    | some b => s.updCell b.cell fun y => y.write (b.tile * 4096) (r.bytesOf x.2)
    | none => s.writeVA r.tenant (r.tileVa h i) (r.bytesOf x.2) (r.slotBytes / 64 + 1)

/-- In a robust round each pair sends its totals to the pair that holds the chunk, which adds them: another pair's part is not
determined here, and stands as an open value (R372). -/
def State.robustTotals (s : State) (h : Nat) (l : List (Nat × List Nat)) : List (Nat × List Nat) :=
  let r := s.round h
  if !r.robust || r.s ≤ 1 then l
  else
    let (lo, hi) := match r.shardOf s.jig.me with | some i => r.shardChunks i | none => (0, 0)
    (l.filter (fun x => decide (lo ≤ x.1) && decide (x.1 < hi))).map (fun x =>
      (x.1, x.2.zipIdx.map (fun y =>
        (y.1 + Config.unstated "robust totals of other pairs" [h, x.1, y.2]) % s.elemMod r (x.1 * chunkElems + y.2))))

/-- The gate reads in the tenant's owned slots of the bindings' engines (R294). -/
def State.gateSlot (s : State) (h : Nat) : Bool :=
  let l := s.agg.binds.filter (fun e => e.2.enable && e.2.round == h)
  l.isEmpty || l.any (fun e => s.mayIssue (s.round h).tenant .dma e.2.engine)

/-- The bytes that the gate reads are charged to the tenant's DMA budget (R294); the pass is one step here, so a budget that they exceed is
spent whole (DESIGN CHOICE: notes/assumptions/44.md). -/
def State.chargeGate (s : State) (h n : Nat) : State :=
  let r := s.round h
  let b := s.dmaBudget r.tenant
  s.setDmaBudget r.tenant { b with remaining := b.remaining - n * r.slotBytes }

/-- GATE_PASS: the gate reads every tile of the shard, takes its digest, adds the kept ones into chunk totals and writes these over
the tiles of the lowest kept cohorts; a shard that has failed is only reported. A live twin is sent the digests; with r = 1 or a lost twin
the replica condition is met (R43, R269, R294 to R296). -/
def execGatePass (h : Handle) (s : State) : Host.Outcome State Fault Refusal :=
  let r := s.round h.val
  let me := s.jig.me
  if r.state != .unmasking || r.gateDone || s.frozen || !r.cohortsDone then .next s
  else if r.shardStatus != .ok then
    .next ((s.updRound h.val fun r => { r with gateDone := true, replicaOk := true }).reportGate h.val)
  else if !s.bindsDone h.val || !s.gateSlot h.val then .next s
  else
    let js := r.myChunks me
    let ds := (List.range r.sizes.length).flatMap (fun c => (r.chunksOf me c).map (fun j => s.tileDigest h.val c j))
    let totals := s.robustTotals h.val (js.map (fun j => (j, s.chunkTotal h.val j)))
    let s1 := (s.chargeGate h.val ds.length).each totals (fun s x => s.writeTotal h.val x)
    let alone := r.r != 2 || (s.twin r).isNone
    let s2 := s1.updRound h.val fun r => { r with
      gateDone := true, digests := ds, totals := totals, replicaOk := alone, unverified := r.unverified || alone }
    .next (match (if alone then none else s.twin r) with
      | none => s2.reportGate h.val
      | some k => s2.sendData r.tenant k (ds.flatMap (leBytes 48)) (fun p x last => .digests p k h.val x last))

/-- REPLICA_COMPARE: twins compare their digest lists; any difference ends the shard with REPLICA_MISMATCH (R43, R295). -/
def execReplicaCompare (h : Handle) (twin : List Digest) (s : State) : Host.Outcome State Fault Refusal :=
  let r := s.round h.val
  if r.state == .unmasking && r.gateDone && !r.replicaOk && r.shardStatus == .ok then
    let s := if twin = r.digests then s.updRound h.val fun r => { r with replicaOk := true } else s.shardFail h.val .replicaMismatch
    .next (s.reportGate h.val)
  else .next s

/-- SUMMED_ANNOUNCE: in slot 0 of a turn after the last report of a live member the coordinator announces SUMMED, in effect at the
next turn boundary (R296). -/
def execSummedAnnounce (h : Handle) (s : State) : Host.Outcome State Fault Refusal :=
  let r := s.round h.val
  let all := (List.range (max s.bigE 1)).all (fun m => !s.takesPart r m || r.reports.any (fun x => x.1 == m))
  if r.state == .unmasking && s.decides && all && !r.announced && s.slotOf s.pos == 0 && decide (r.reportTurn < s.turn) &&
      !s.frozen then
    let b := s.boundaryAfter s.pos
    .next ((s.updRound h.val fun r => { r with
      announced := true, change := match r.change with | some (p, .aborted) => some (p, .aborted) | _ => some (b, .summed) }).sendDevice
      (.summed h))
  else .next s

end Sys2Proof.Machine
end

