-- ==== Sys2Proof/Machine/Release.lean ====
section
/-! DEFINITION. Machine/Release.lean: commit, release with its noise, abort, and the end of a round (R297 to R305, R240, R243,
R399). -/

namespace Sys2Proof.Machine

/-- ROUND_COMMIT (R297, R298): in SUMMED, on the coordinator. One that meets an abort already accepted ends with ROUND_CLOSED. -/
def execRoundCommit (c : Cmd) (s : State) : Host.Outcome State Fault Refusal :=
  .next <| s.command 0x53 c fun s =>
    let r := s.round c.a0
    match s.coordCmd c, firstFail [(r.state != .summed, .roundClosed)] with
    | some st, _ => s.fail c st
    | none, some st => s.fail c st
    | none, none =>
      match r.change with
      | none => s.acceptCommit c.a0 (some c)
      | some (_, st') =>
        let st : Status := if st' = .committed then .ok else if r.changeStatus = .cohortBelowMin then .cohortBelowMin else .roundClosed
        s.updRound c.a0 fun r => { r with changeCmds := r.changeCmds ++ [(c, st, 0)] }

/-- ROUND_ABORT: the round becomes ABORTED at the next turn boundary, and the completion carries OK; a RELEASED round is refused with
ROUND_CLOSED, and an ABORTED one is left as it is (R240, R243). -/
def execRoundAbort (c : Cmd) (s : State) : Host.Outcome State Fault Refusal :=
  .next <| s.command 0x55 c fun s =>
    let r := s.round c.a0
    match s.roundCmd c, firstFail [(r.state == .released, .roundClosed)] with
    | some st, _ => s.fail c st
    | none, some st => s.fail c st
    | none, none =>
      if r.state = .aborted then s.ok c
      else
        let old := r.changeCmds.map (fun x => match r.change with | some (_, .aborted) => x | _ => (x.1, .roundClosed, 0))
        let b := s.boundaryAfter s.pos
        let s := s.updRound c.a0 fun r => { r with
          change := some (b, .aborted), changeStatus := match r.change with | some (_, .aborted) => r.changeStatus | _ => .ok,
          changeCmds := old ++ [(c, .ok, 0)] }
        if 2 ≤ s.bigE then s.sendDevice (.roundEnds (Fin.ofNat 64 c.a0) false b .ok []) else s

/-- The round whose memory is kept: counters that the host driver still reads once a handle is FREE (R271). -/
def Round.counts (r : Round) : Round :=
  { ({} : Round) with
    chunksAccepted := r.chunksAccepted, keyexAccepted := r.keyexAccepted, refused := r.refused, batchCount := r.batchCount,
    pressure := r.pressure, sharesAccepted := r.sharesAccepted, sharesGuard := r.sharesGuard, sharesOther := r.sharesOther,
    reconSelf := r.reconSelf, reconPair := r.reconPair }

/-- ROUND_FREE: at the first turn boundary after the sealed clear ended, the round becomes FREE and its entries are destroyed
(R190, R237, R240, R243). -/
def execRoundFree (h : Handle) (s : State) : Host.Outcome State Fault Refusal :=
  let r := s.round h.val
  match r.clearedAt with
  | none => .next s
  | some p =>
    if (r.state == .released || r.state == .aborted) && s.due (s.boundaryAfter p) then
      .next ((s.each (r.ownKeys.filter (fun i => (s.key i).owner == r.tenant)) State.zeroKey).setRound h.val r.counts)
    else .next s

/-- ROUND_MEMORY_ZEROING: after the sealed clear, in slots of DEVICE, the frames that were the round's memory are zeroed, leave the hold and
USED, and return to the pool (R243, R399, R412). -/
def execRoundMemoryZeroing (h : Handle) (s : State) : Host.Outcome State Fault Refusal :=
  let mine := fun (x : HeldFrame) => x.round == some h.val && !x.stuck
  let clears := ((s.round h.val).state == .released || (s.round h.val).state == .aborted) && (s.round h.val).clearedAt.isNone
  if s.deviceEngines.isEmpty || s.frozen || clears then .next s
  else
    let s := s.each (s.mem.held.filter mine) (fun s x =>
      { s.setUsed x.tenant (x.tier - 1) (s.usedUnits x.tenant (x.tier - 1) - x.units) with ram := ramZero s.ram x.tier x.frame x.units })
    .next { s with mem := { s.mem with held := s.mem.held.filter (fun x => !mine x) } }

/-! ### Release (R301 to R305) -/

/-- The releasing twin of shard `i`: the lower-indexed live twin (R301). -/
def State.releaser (s : State) (r : Round) (i : Nat) : Option Nat :=
  match s.holders r i with
  | [] => none
  | m :: l => some (l.foldl min m)

/-- This member releases its shard. -/
def State.iRelease (s : State) (r : Round) : Bool :=
  match r.shardOf s.jig.me with | some i => s.releaser r i == some s.jig.me | none => false

/-- A named noise key is the tenant's and permits noise seeding (R303). -/
def State.noiseKeyOk (s : State) (r : Round) : Bool :=
  let i := r.release.noiseKey
  i == 0xFFFF || ((s.key i).type != 0 && (s.key i).owner == r.tenant && bitAt (s.key i).uses 12)

/-- Every page of the target that this member writes is in the HOST tier with the W right (R303). -/
def State.hostTargetOk (s : State) (r : Round) : Bool :=
  r.release.target != 0 ||
  (s.mapped r.tenant r.release.address (r.l * r.elemBytes) &&
    s.allPages r.tenant r.release.address (r.l * r.elemBytes) (fun p => p.tier == 3 && p.w))

/-- Obtain the noise seed of this member's shard, where noise is drawn and none is held: from the DRBG, or from the named key, which
counts a use; it is held in the key register until FREE (R301, R304). None where the register has no room. -/
def State.obtainSeed (s : State) (h : Nat) : Option State :=
  let r := s.round h
  if r.release.noise = 0 || r.noiseSeed != 0 then some s
  else
    match s.freeTenantKeys with
    | [] => none
    | i :: _ =>
      if s.keyLimit r.tenant ≤ s.keysHeld r.tenant then none
      else
        let k := r.release.noiseKey
        let (v, s) := if k = 0xFFFF then (let (v, s) := s.draw; (v % 2 ^ 256, s))
          else (Config.digest "noise seed" ((s.key k).value, r.number, r.shardOf s.jig.me) % 2 ^ 256, s.countKey k)
        let s := s.setKey i { type := 8, owner := r.tenant, uses := 2 ^ 12, value := v }
        some (s.updRound h fun r => { r with noiseSeed := v + 1, keyEntries := r.keyEntries ++ [i] })

/-- The rounds whose shards a release writes: the parent and its committed repair rounds (R305). -/
def State.releaseSet (s : State) (h : Nat) : List Nat := h :: s.repairsOf h
/-- This member holds a shard of round `k` whose status is OK. -/
def State.holdsGood (s : State) (k : Nat) : Bool :=
  match (s.round k).shardOf s.jig.me with | some i => (s.round k).shardSt.getD i .ok == .ok | none => false

/-- The noisy total of a chunk of round `h` on this member, under the release parameters of `target`: each element with its discrete
Gaussian draw, modulo 2^w or q; none beyond L (R302). -/
def State.noisyChunk (s : State) (target : Round) (h : Nat) (x : Nat × List Nat) : List Nat :=
  let r := s.round h
  let lo := chunkElems * (r.range s.jig.me).1
  (x.2.take (r.countOf x.1)).zipIdx.map (fun y =>
    let n := x.1 * chunkElems + y.2
    let z := if target.release.noise = 0 then 0 else Config.gaussian (target.noiseSeed - 1) target.release.sigma (n - lo)
    (((y.1 : Int) + z) % (s.elemMod r n : Int)).toNat)

/-- The digest of this member's noisy shard totals, in element order (R303). -/
def State.noisyDigest (s : State) (h : Nat) : Digest :=
  Config.digest "noisy shard total" (((s.releaseSet h).filter s.holdsGood).flatMap (fun k =>
    (s.round k).totals.flatMap (fun x => (s.round k).bytesOf (s.noisyChunk (s.round h) k x))))

/-- The noise of a release can be drawn: none is asked for, or the seed is held (R301). -/
def Round.seedReady (r : Round) : Bool := r.release.noise = 0 || r.noiseSeed != 0

/-- This member's digest and its twin's are both known: they are compared (R303). -/
def State.compareNoise (s : State) (h : Nat) : State :=
  let r := s.round h
  match r.twinDigest with
  | some d =>
    if r.releasing && !r.agreed && r.seedReady then
      if d = s.noisyDigest h then s.reportAgree h .ok else (s.shardFail h .replicaMismatch).reportAgree h .replicaMismatch
    else s
  | none => s

/-- This member can compute its noisy totals: it sends their digest to its twin; without a live twin it agrees at once (R303). -/
def State.sendNoiseDigest (s : State) (h : Nat) : State :=
  match s.twin (s.round h) with
  | none => s.reportAgree h .ok
  | some k => (s.sendDevice (.noiseDigest k (Fin.ofNat 64 h) (s.noisyDigest h))).compareNoise h

/-- A release starts on this member: the releasing twin of a shard obtains the noise seed and sends it to its twin; a member without a shard
to release has nothing to agree on (R301, R303). -/
def State.startRelease (s : State) (h : Nat) : State :=
  let s := s.updRound h fun r => { r with releasing := true }
  let ks := (s.releaseSet h).filter s.holdsGood
  if ks.isEmpty then s.reportAgree h .ok
  else if ks.any (fun k => s.iRelease (s.round k)) then
    match s.obtainSeed h with
    | none => s.reportAgree h .quotaExceeded
    | some s =>
      let s := match s.twin (s.round h) with
        | some k => if (s.round h).noiseSeed = 0 then s else s.sendDevice (.noiseSeed k (Fin.ofNat 64 h) ((s.round h).noiseSeed - 1))
        | none => s
      s.sendNoiseDigest h
  else if (s.round h).seedReady then s.sendNoiseDigest h
  else s

/-- The noise seed comes from the releasing twin: it is held in the key register until the round is FREE (R301). -/
def State.takeNoiseSeed (s : State) (h seed : Nat) : State :=
  let r := s.round h
  if r.noiseSeed != 0 then s
  else
    match s.freeTenantKeys with
    | [] => s.reportAgree h .quotaExceeded
    | i :: _ =>
      if s.keyLimit r.tenant ≤ s.keysHeld r.tenant then s.reportAgree h .quotaExceeded
      else
        let s := (s.setKey i { type := 8, owner := r.tenant, uses := 2 ^ 12, value := seed }).setRound h { r with
          noiseSeed := seed + 1, keyEntries := r.keyEntries ++ [i] }
        if r.releasing then s.sendNoiseDigest h else s

/-- ROUND_RELEASE (R303): on the coordinator in COMMITTED. RELEASE_REFUSED where a shard is not covered, the target is not a HOST page
with W on every releasing member, or the noise key will not do; `peersRefuse` is the verdict of the other members. The release then starts
on every member. -/
def execRoundRelease (c : Cmd) (peersRefuse : Bool) (s : State) : Host.Outcome State Fault Refusal :=
  .next <| s.command 0x54 c fun s =>
    let r := s.round c.a0
    match s.coordCmd c, firstFail [
        (r.state != .committed, .roundClosed), (r.releaseCmd.isSome || r.change.isSome, .cfgLocked),
        (r.repair || !(s.uncovered c.a0).isEmpty || (s.iRelease r && !s.hostTargetOk r) || !s.noiseKeyOk r || peersRefuse,
          .releaseRefused)] with
    | some st, _ => s.fail c st
    | none, some st => s.fail c st
    | none, none =>
      let s := s.updRound c.a0 fun r => { r.clearRelease with releaseCmd := some c }
      (if 2 ≤ s.bigE then s.sendDevice (.releaseNotice (Fin.ofNat 64 c.a0)) else s).startRelease c.a0

/-- A packet that carries part `i` of `n` of a chunk of a total to a remote region, through the round's endpoint (R299, R303,
R426). Where it goes is not a release parameter. -/
def releasePacket (r : Round) (me msgId j n i : Nat) (bs : List Byte) : Packet :=
  { op := 1, tenant := r.tenant, srcEp := r.release.endpoint, pktIndex := i, pktCount := n, regionKey := r.release.region, msgId := msgId,
    offset := r.release.address + r.elemBytes * (j * chunkElems) + 4096 * i, srcMember := me, payload := (bs.drop (4096 * i)).take 4096 }

/-- Send a chunk of a total as one message of the round's endpoint. -/
def State.sendTotal (s : State) (r : Round) (j : Nat) (bs : List Byte) : State :=
  let e := r.release.endpoint
  let n := ceilDiv bs.length 4096
  let id := (s.ep e).nextMsg
  let s := s.each (List.range n) (fun s i => let y := releasePacket r s.jig.me id j n i bs
    s.emit (.packet none (packetHeader y 1 0 ++ y.payload)))
  s.setEp e { s.ep e with nextMsg := id + 1 }

/-- Write the noisy total of this member's shard of a round to the target of the release (R303). -/
def State.writeShard (s : State) (target : Round) (h : Nat) : State :=
  let r := s.round h
  s.each r.totals (fun s x =>
    let bs := r.bytesOf (s.noisyChunk target h x)
    if target.release.target = 0 then
      s.writeVA r.tenant (target.release.address + r.elemBytes * (x.1 * chunkElems)) bs (bs.length / 64 + 2)
    else s.sendTotal target x.1 bs)

/-- RELEASE_WRITE: after writing is announced a releasing twin writes its shards, repaired ranges from the repair rounds, and every member
reports to the coordinator, which ends the release; `failure` is what became of this member's write where it failed. In HOST_LOST a host
target, or a remote one without REMOTE_IN_HOST_LOST, waits (R303 to R305). -/
def execReleaseWrite (h : Handle) (failure : Option Status) (s : State) : Host.Outcome State Fault Refusal :=
  let r := s.round h.val
  if r.state != .committed || !r.writing || r.written || r.change.isSome || s.frozen then .next s
  else if s.dbg.host.lost && (r.release.target == 0 || r.release.flags == 0) then
    .next (s.updRound h.val fun r => { r with heldWrite := true })
  else
    let ks := (s.releaseSet h.val).filter (fun k => s.holdsGood k && s.iRelease (s.round k))
    match (if ks.isEmpty then none else failure) with
    | some st => .next (s.reportWrite h.val st)
    | none => .next ((s.each ks (fun s k => s.writeShard r k)).reportWrite h.val .ok)

end Sys2Proof.Machine
end

