-- ==== Sys2Proof/Machine/Fabric.lean ====
section
/-! DEFINITION. Machine/Fabric.lean: ports and their service, link keys and replay, and the frames that arrive on fabric ports (R45,
R47, R415 to R424, R449 to R452). -/

namespace Sys2Proof.Machine

/-! ### Ports in and out of service (R421 to R423) -/

/-- The PORT event (R515). -/
def State.portEvent (s : State) (p : Nat) : State :=
  s.event 0 6 0 deviceOwner (p + (s.port p).state * 2 ^ 8 + (s.port p).reason * 2 ^ 16)

/-- A port leaves service: OUT with a reason; a readmission in hand ends, and an upstream port in use is lost (R57, R421 to R423). -/
def State.portOut (s : State) (p reason : Nat) : State :=
  let s := (s.updPort p fun x => { x with state := 2, reason := reason, readmit := false, upAt := none }).portEvent p
  let up := if s.spn.source = .secondary then s.upstream.2 else s.upstream.1
  if up = some p then s.loseUpstream else s

/-- A cause of R421 on a port with a role: it takes the port out of service, or ends its readmission. -/
def State.portCause (s : State) (p reason : Nat) : State :=
  let x := s.port p
  if x.role = 0 || x.state == 0 || (x.state == 2 && !x.readmit) then s else s.portOut p reason

/-- Uncorrectable codewords of a turn above which a lane has failed (R421). -/
def uncorrLimit : Nat := 16

/-- LANE_FAILURE: the lane loses signal or lock, where no codewords are given; or uncorrectable codewords are counted, and more than 16
of a turn take the port out (R421). -/
def execLaneFailure (p : PortId) (lane : Fin 4) (fecUncorr : Nat) (s : State) : Host.Outcome State Fault Refusal :=
  let s := s.updPort p.val fun x => { x with
    fecUncorr := satAdd 16 x.fecUncorr fecUncorr
    lanesOk := if fecUncorr = 0 && bitAt x.lanesOk lane.val then x.lanesOk - 2 ^ lane.val else x.lanesOk }
  .next (if fecUncorr = 0 || uncorrLimit < fecUncorr then s.portCause p.val 1 else s)

/-- LASER_INPUT_LOW: the optical engine's input falls below its limit, and every lane of the port loses its signal (R421, R545). -/
def execLaserInputLow (p : PortId) (s : State) : Host.Outcome State Fault Refusal :=
  .next ((s.updPort p.val fun x => { x with lanesOk := 0 }).portCause p.val 1)

/-- Laser module `m` (R453). -/
def State.laser (s : State) (m : Nat) : Laser := Tab.look {} s.fab.lasers m
/-- Replace laser module `m`. -/
def State.setLaser (s : State) (m : Nat) (v : Laser) : State := s.updFab fun x => { x with lasers := Tab.put {} x.lasers m v }

/-- LASm_EN of a module: firmware is RUNNING and one of the module's ports has a role in the committed jig (R560). -/
def State.laserEnable (s : State) (m : Nat) : Bool :=
  s.dbg.fw.state == .running && s.sec.lifecycle != .tampered &&
  (List.range 4).any (fun i => (s.port (4 * m + i)).role != 0)

/-- LASER_FAULT: the module's four ports go out at once (R28, R421). -/
def execLaserFault (m : Fin 4) (s : State) : Host.Outcome State Fault Refusal :=
  let l := s.laser m.val
  let s := s.setLaser m.val { l with fault := true, faults := satAdd 8 l.faults 1 }
  .next (s.each [4 * m.val, 4 * m.val + 1, 4 * m.val + 2, 4 * m.val + 3] (fun s p => s.portCause p 2))

/-- BAR0 offset of FAB_PORT_CTL of a port (R453). -/
def portCtl (p : Nat) : Nat := 0x00C00080 + 8 * p

/-- A write of FAB_PORT_CTL, which no VF reaches (R23, R453, R483). -/
def State.portWrite (s : State) (fn p : Nat) (f : State → State) : State :=
  s.ifWritable fun s => if fn != 0 then s.windowMiss fn (portCtl p) true else f s

/-- TAKE_OUT: a port in service leaves it with reason HOST (R421; DEDUCED for a port that is DOWN, which stays so). -/
def execTakeOut (fn : FnId) (p : PortId) (s : State) : Host.Outcome State Fault Refusal :=
  .next (s.portWrite fn.val p.val fun s => s.portCause p.val 4)

/-- READMIT: a port in OUT trains and sets its keys, and comes up at the first turn boundary after one whole turn (R423). -/
def execReadmit (fn : FnId) (p : PortId) (s : State) : Host.Outcome State Fault Refusal :=
  .next (s.portWrite fn.val p.val fun s =>
    if (s.port p.val).state = 2 then
      s.updPort p.val fun x => { x with readmit := true, keyed := false, upAt := some (s.boundaryAfter s.pos + s.turnTicks) }
    else s)

/-- The port may enter UP: it is DOWN with a role, or its readmission's boundary has come; a fabric port holds its keys (R415, R419,
R423). -/
def State.mayRise (s : State) (p : Nat) : Bool :=
  let x := s.port p
  x.role != 0 && (x.role != 1 || x.keyed) &&
  (x.state == 0 || (x.state == 2 && x.readmit && (match x.upAt with | some b => s.due b | none => false)))

/-- PORT_UP: the port is in service; a fabric port's delay is measured, and a follower's primary upstream gives it its tick (R56,
R57, R423). -/
def execPortUp (p : PortId) (delayPs : Nat) (s : State) : Host.Outcome State Fault Refusal :=
  if s.mayRise p.val then
    let x := s.port p.val
    let s := s.setPort p.val { x with state := 1, reason := 0, lanesOk := 0xF, readmit := false, upAt := none }
    let s := s.setLaser (p.val / 4) { s.laser (p.val / 4) with present := true, fault := false }
    let s := if x.role = 1 then s.updSpn fun y => { y with linkDelay := Tab.put none y.linkDelay p.val (some delayPs) } else s
    let s := if s.spn.role == .follower && s.spn.source == .primary && s.upstream.1 == some p.val then
      s.updSpn fun y => { y with locked := true } else s
    .next (s.portEvent p.val)
  else .next s

/-! ### Link keys and replay (R419, R420, R480) -/

/-- The transcript of a link key exchange: the record of the lower-indexed end, then that of the higher, then the turn (R480); the
ephemeral keys of the two ends stand in the shared value, of which they are the inputs. -/
def State.linkTranscript (s : State) (p shared : Nat) : Digest :=
  let x := s.jigPort s.jig.me p
  let mine := (s.jig.me, p)
  let theirs := (x.peerMember, x.peerPort)
  if s.jig.me < x.peerMember then Config.digest "XNL7264-LINK" (mine, theirs, s.turn, shared)
  else Config.digest "XNL7264-LINK" (theirs, mine, s.turn, shared)

/-- Two key-register entries of the device for a link's two directions, this member's first, with the values that R480 derives from the
transcript, the shared point and the sending member; none without room. -/
def State.linkKeys (s : State) (p shared : Nat) : List Nat × State :=
  let (l, s) := s.newKeys deviceOwner 960 1024 [(1, 2 ^ 10), (1, 2 ^ 10)]
  let from_ := [s.jig.me, (s.jigPort s.jig.me p).peerMember]
  (l, s.each (l.zip from_) (fun s x => s.setKey x.1 { s.key x.1 with
        value := Config.digest "XNL7264-LINK-TX" (s.linkTranscript p shared, shared, x.2) % 2 ^ 256 }))

/-- LINK_KEY_EXCHANGE: the peer's signatures and fingerprint are checked; a failure takes the port out with AUTH. At training the keys
hold at once; a refresh runs in slot 0, and its keys hold from the next turn boundary (R419, R471, R480). -/
def execLinkKeyExchange (p : PortId) (sig : SigPair) (fingerprint : Digest) (shared : Nat) (s : State) :
    Host.Outcome State Fault Refusal :=
  let x := s.port p.val
  let peer := (s.jigPort s.jig.me p.val).peerMember
  let known := (s.jig.cfg.assembly.members.find? (fun m => m.index == peer)).map (fun m => m.fingerprint)
  if x.role != 1 || (x.state == 2 && !x.readmit) || s.frozen || (x.state == 1 && s.slotOf s.pos != 0) then .next s
  else if !sig.ok || known != some fingerprint then
    .next ((s.updPort p.val fun x => { x with keyed := false, peer := 0xFFFF }).portOut p.val 3)
  else
    let s := (s.countKey 1022).countKey 1023
    let s := if x.state = 1 then s else s.each x.keys State.zeroKey
    let (l, s) := s.linkKeys p.val shared
    let s := s.updPort p.val fun y =>
      if x.state = 1 then { y with newKeys := l }
      else { y with keys := l, newKeys := [], keyed := true, peer := peer, keySeq := 0, txSeq := 0, rxSeq := 0, replay := [] }
    .next (s.emit (.linkKey p.val))

/-- Ticks that the oldest unacknowledged frame waits before a replay: 2 µs (R420). -/
def replayTicks : Nat := 200

/-- LINK_REPLAY: once the oldest unacknowledged frame has waited 2 µs, the frames from it on are sent again (R420). -/
def execLinkReplay (p : PortId) (s : State) : Host.Outcome State Fault Refusal :=
  let x := s.port p.val
  if x.role == 1 && x.state == 1 && !s.frozen && (match x.replay with | f :: _ => decide (f.at_ + replayTicks ≤ s.pos) | [] => false) then
    .next ((s.updPort p.val fun y => { y with
        replays := satAdd 8 y.replays 1, replay := y.replay.map (fun f => { f with at_ := s.pos }) }).each x.replay (fun s f =>
      s.emit (.frame p.val f.head)))
  else .next s

/-! ### Ethernet ports (R416, R417) -/

/-- The field of FAB_ETH_DROP that counts a drop. -/
def dropField : EthDrop → Nat
  | .format => 0 | .address => 1 | .checksum => 2 | .unknown => 3

/-- A received frame is dropped and counted in FAB_ETH_DROP (R417). -/
def State.dropFrame (s : State) (p : Nat) (why : EthDrop) : State :=
  s.updPort p fun x => { x with drops := Tab.put 0 x.drops (dropField why) (satAdd 16 (Tab.look 0 x.drops (dropField why)) 1) }

/-- An Ethernet port in service takes a frame (R422). -/
def State.ethRx (s : State) (p : Nat) (bytes : Nat) (f : State → State) : State :=
  if (s.port p).role == 2 && (s.port p).state == 1 then f (s.rxFrame p bytes) else s

/-- ETH_FRAME_DROP (R417). -/
def execEthFrameDrop (p : PortId) (why : EthDrop) (s : State) : Host.Outcome State Fault Refusal :=
  .next (s.ethRx p.val (s.otherBytes p.val) fun s => s.dropFrame p.val why)

/-- The port's own unicast address (R415). -/
def State.ownAddress (s : State) (p : Nat) : Nat := (s.jigPort s.jig.me p).ipv6

/-- NEIGHBOR_SOLICITATION: answered, in slot 0, for the port's own address; any other breaks R416 (R416, R417). -/
def execNeighborSolicitation (p : PortId) (target from_ : Nat) (s : State) : Host.Outcome State Fault Refusal :=
  .next (s.ethRx p.val (s.otherBytes p.val) fun s =>
    if target = s.ownAddress p.val then s.sendSlot0 (.icmp p.val from_ target []) else s.dropFrame p.val .format)

/-- ECHO_REQUEST: answered with its data, in slot 0; one to another address is dropped (R416, R417). -/
def execEchoRequest (p : PortId) (dst from_ : Nat) (data : List Byte) (s : State) : Host.Outcome State Fault Refusal :=
  .next (s.ethRx p.val (66 + data.length) fun s =>
    if dst = s.ownAddress p.val then s.sendSlot0 (.icmp p.val from_ dst data)
    else s.dropFrame p.val .address)

/-! ### Scheduled frames (R424, R449, R450, R452) -/

/-- The port by which a frame that crosses this member goes on: the next hop of its route in the route set that was active when it was
issued, or of the route from here for a single-hop frame (R121, R424). -/
def State.onwardPort (s : State) (f : SchedFrame) : Option Nat :=
  let (c, active) := if f.old then s.jig.prev.getD (s.jig.cfg, s.jig.active) else (s.jig.cfg, s.jig.active)
  let routes := ((c.routeSets.find? (fun p => p.1 == active)).map (fun p => p.2.routes)).getD []
  match routes[f.route]? with
  | some r => hopOf c r s.jig.me
  | none => (s.routeTo f.dstMember).bind (fun r => r.ports.head?)

/-- Send a frame onward to its destination in the next slot of its owner on the outgoing port (R121, R424). -/
def State.sendOnward (s : State) (f : SchedFrame) : State :=
  match s.onwardPort f with
  | some p => s.sendFrame { port := p, owner := f.owner, sched := true, len := scheduledCharge f.len, dest := some f.dstMember,
                            out := .onward p f.dstMember }
  | none => s

/-- A destination's answer to a PUSH or BCAST of endpoint `e`; the last one completes it, with OK or the status of the lowest-indexed
member that refused (R450). -/
def State.pushAnswer (s : State) (e member key : Nat) (st : Status) : State :=
  match (s.ep e).pushes.find? (fun q => q.waiting.contains member && q.req.regionKey == key) with
  | none => s
  | some q =>
    let q' : PushReq := { q with
      waiting := q.waiting.filter (fun m => m != member), refused := if st = .ok then q.refused else q.refused ++ [(member, st)] }
    if q'.waiting.isEmpty then
      let first := (List.range (max s.bigE 1)).find? (fun m => q'.refused.any (fun x => x.1 == m))
      let r : Status := match first.bind (fun m => q'.refused.find? (fun (x : Nat × Status) => x.1 == m)) with
        | some x => x.2
        | none => .ok
      ((s.updEp e fun x => { x with pushes := x.pushes.filter (fun y => y.id != q.id) }).reqDone e q.req r 0 (q.id + 1)).tryPark e
    else s.updEp e fun x => { x with pushes := x.pushes.map (fun y => if y.id == q.id then q' else y) }

/-- The data of a PUSH or BCAST lands, or is refused under R438 without checks 7 to 9 (R450). -/
def State.landPush (s : State) (f : SchedFrame) : Except Status State :=
  let copy := f.format == 0xFF
  match s.regionFail f.owner f.regionKey f.port.val 0 (if copy then 1 else 3) f.format 0 f.offset f.data.length false,
      s.region (f.regionKey / 4096) with
  | some st, _ => .error st
  | none, none => .error .keyAbsent
  | none, some r =>
    match s.landFail r.tenant (r.va + f.offset) f.data.length (!copy) with
    | some st => .error st
    | none => .ok (s.land r f.offset (!copy) f.format f.data)

/-- The first refusal noted on a request of which frames are still to come. -/
def State.refusedSoFar (s : State) (f : SchedFrame) : Option Status :=
  (s.fab.inbound.find? (fun x => x.1 == f.srcMember && x.2.1 == f.owner && x.2.2.1 == f.regionKey)).map (fun x => x.2.2.2)

/-- A frame of a PUSH or BCAST for this member: after the last one its verdict goes back (R450). -/
def State.takePush (s : State) (f : SchedFrame) : State :=
  let (s, now) := match s.landPush f with | .ok s1 => (s1, none) | .error st => (s, some st)
  let before := s.refusedSoFar f
  let first := match before with | some st => some st | none => now
  let others := s.fab.inbound.filter (fun x => !(x.1 == f.srcMember && x.2.1 == f.owner && x.2.2.1 == f.regionKey))
  if f.last then
    let n := scheduledCharge (Config.unstated "payload of a verdict" [f.srcMember])
    (s.updFab fun x => { x with inbound := others }).sendTo f.owner f.srcMember n
      (fun _ => .pushVerdict f.srcMember f.regionKey (first.getD .ok))
  else
    match before, now with
    | none, some st => s.updFab fun x => { x with inbound := x.inbound ++ [(f.srcMember, f.owner, f.regionKey, st)] }
    | _, _ => s

/-- SCHEDULED_FRAME: its tag and its place in the link's order, then onward to another member, or landing here; frames of a tenant
fenced away are discarded (R420, R424, R449 to R452). -/
def execScheduledFrame (f : SchedFrame) (s : State) : Host.Outcome State Fault Refusal :=
  let p := f.port.val
  let x := s.port p
  .next <|
    if x.role != 1 || x.state != 1 || s.frozen then s
    else if !f.tagOk then s.updPort p fun x => { x with tagFail := satAdd 8 x.tagFail 1 }
    else if f.seq != wrapAdd 32 x.rxSeq 1 then s
    else
      let s := (s.rxFrame p (32 + f.len)).updPort p fun x => { x with replay := x.replay.filter (fun y => decide (f.ackSeq < y.seq)) }
      if f.owner < 8 && (s.fabTenant f.owner).fenceRound == 17 then s.countGone f.owner
      else if f.dstMember != s.jig.me then s.sendOnward f
      else if 7 < f.owner then s
      else match f.answer with
        | some (e, st) => s.pushAnswer e f.srcMember f.regionKey st
        | none => s.takePush f

/-! ### DEVICE and FENCE frames (R47, R67, R451) -/

/-- A notice that only the coordinator sends, for a member. -/
def State.fromCoord (s : State) (f : State → State) : State := if s.isCoord then s else f s

/-- The announced end of a round: COMMITTED or ABORTED at a boundary; an abort that stands is not overtaken (R240, R297). -/
def Round.ends (r : Round) (commit : Bool) (b : Nat) (st : Status) : Round :=
  match commit, r.change with
  | true, some (_, .aborted) => r
  | _, _ => { r with change := some (b, if commit then .committed else .aborted), changeStatus := st }

/-- What a DEVICE frame's content does on the member that receives it (R45, R47, R85, R113, R234, R242, R291, R296, R297, R303, R459,
R460, R462, R463, R479). -/
def State.takeDevice (s : State) : DeviceMsg → State
  | .status c => s.updSpn fun x => { x with heardCoord := x.heardCoord || c, heardEither := true }
  | .member _ heard => s.updSpn fun x => { x with
      heardMember := x.heardMember || s.isCoord, heardVia := x.heardVia || (heard && s.jig.me == s.standby) }
  | .barrier pos t block cid =>
      let b := parseBarrier pos t.val block none cid
      if b.members.contains s.jig.me && !s.isCoord && s.spn.barriers.length < maxBarriers then s.armBarrier b else s
  | .commitNotice turn serial digest active => s.fromCoord fun s => s.takeNotice turn serial digest active
  | .commitVerdict m st check => s.takeVerdict m st check
  | .commitDecision swap back => s.takeDecision swap back
  | .roundNotice c block table h seed bOpen repaired keys => s.fromCoord fun s => s.takeRoundNotice c block table h seed bOpen repaired keys
  | .roundVerdict m h st => s.takeOpenVerdict h.val m st
  | .roundDecision h st => s.fromCoord fun s => s.updRound h.val fun r => { r with openDecision := some st }
  | .unmaskNotice h b => s.fromCoord fun s => s.updRound h.val fun r => { r with armAt := some b }
  | .deadlineNotice h d b => s.fromCoord fun s => s.updRound h.val fun r => { r with newDeadlines := r.newDeadlines ++ [(b, d, none)] }
  | .roundEnds h commit b st sts => s.updRound h.val fun r => { r.ends commit b st with shardSt := if commit then sts else r.shardSt }
  | .gateReport m h st =>
      if s.isCoord then
        s.updRound h.val fun r => { r with reports := r.reports.filter (fun x => x.1 != m) ++ [(m, st)], reportTurn := s.turn }
      else s
  | .summed h => s.fromCoord fun s => s.updRound h.val fun r => { r with
      change := match r.change with | some (p, .aborted) => some (p, .aborted) | _ => some (s.boundaryAfter s.pos, .summed) }
  | .releaseNotice h => s.fromCoord fun s => if (s.round h.val).state == .committed then s.startRelease h.val else s
  | .noiseSeed m h seed => if m = s.jig.me then s.takeNoiseSeed h.val seed else s
  | .noiseDigest m h d =>
      if m = s.jig.me then (s.updRound h.val fun r => { r with twinDigest := some d }).compareNoise h.val else s
  | .agreeReport m h st => if s.isCoord then s.noteAgree h.val m st else s
  | .writing h => s.fromCoord fun s => s.updRound h.val fun r => { r with writing := true }
  | .wrote m h st => if s.isCoord then s.noteWrite h.val m st else s
  | .releaseEnds h b st sts => s.fromCoord fun s => s.updRound h.val fun r =>
      if st = .ok then { r with writing := false, heldWrite := false, change := some (b, .released), shardSt := sts }
      else { r.clearRelease with shardSt := sts }
  | .lost m =>
      if m = s.coordinator then s.updSpn fun x => { x with coordLossAt := some (s.boundaryAfter s.pos) }
      else if s.spn.lost.contains m || s.spn.lossDue.contains m then s
      else s.updSpn fun x => { x with lossDue := x.lossDue ++ [m] }
  | .timeout m =>
      if s.decides && !s.spn.missedBy.contains m then
        (s.updSpn fun x => { x with missedBy := x.missedBy ++ [m] }).declareLost m
      else s
  | .tenantNotice t b => s.fromCoord fun s => s.takeTenantNotice t.val b
  | .tenantVerdict m t st => s.takeTenantVerdict t.val m st
  | .tenantDecision t st => s.fromCoord fun s => s.updCreating t.val fun x => { x with decision := some st }
  | .tenantRemove t b reset => s.fromCoord fun s => s.takeTenantRemove t.val b reset
  | .tenantFlr t => if s.decides then s.flrTenant t.val else s
  | .tenantGone m t st descs gone => if s.isCoord then s.noteRemoved t.val m st descs gone else s
  | .attested serial pos => s.fromCoord fun s => s.updSec fun x => { x with attSerial := serial, attPos := pos }
  | .aligned m =>
      if s.spn.lost.contains m && !s.spn.realigned.contains m then s.updSpn fun x => { x with realigned := x.realigned ++ [m] } else s

/-- DEVICE_FRAME: taken on a fabric port in service (R47, R67). -/
def execDeviceFrame (p : PortId) (m : DeviceMsg) (s : State) : Host.Outcome State Fault Refusal :=
  if (s.port p.val).role != 1 || (s.port p.val).state != 1 || s.frozen then .next s
  else .next ((s.rxFrame p.val (s.otherBytes p.val)).takeDevice m)

/-- FENCE_FRAME: returned once every earlier frame of the tenant on the link has landed or been sent on, as each has in its own step
(R451). -/
def execFenceFrame (p : PortId) (t : TenantId) (s : State) : Host.Outcome State Fault Refusal :=
  if (s.port p.val).role != 1 || (s.port p.val).state != 1 || s.frozen then .next s
  else .next ((s.rxFrame p.val (s.otherBytes p.val)).emit (.fence p.val t.val (s.fabTenant t.val).fenceRound))

end Sys2Proof.Machine
end

