-- ==== Sys2Proof/Machine/HostQueues.lean ====
section
/-! DEFINITION. Machine/HostQueues.lean: queue pairs, doorbells, fetching, the CXL link and the exchange window
(R522 to R542). -/

namespace Sys2Proof.Machine

/-- The queue pair holds an entry that the engine may fetch: it is enabled, an entry waits and a completion slot can be
reserved; a completion queue tells full from empty by keeping one entry free (R529; DEDUCED). -/
def QPair.fetchable (q : QPair) : Bool :=
  q.enable && q.sqHead != q.sqTail &&
  decide ((q.cqTail + q.cqEntries - q.cqHead) % q.cqEntries + q.inflight < q.cqEntries - 1)

/-- The queue of a function that the round-robin takes next (R529). -/
def State.nextOf (s : State) (f : Nat) : Option Nat :=
  ((List.range 16).map (fun i => (Tab.look 0 s.hif.nextQueue f + i) % 16)).find? (fun q => (s.queue f q).fetchable)

/-- The function and queue whose head entry is fetched next (R529). -/
def State.nextFetch (s : State) : Option (Nat × Nat) :=
  let fs := (List.range 8).map (fun i => (s.hif.nextFn + i) % 8)
  match fs.find? (fun f => (s.nextOf f).isSome) with
  | none => none
  | some f => (s.nextOf f).map (fun q => (f, q))

/-- The opcode and the fields that the 64 bytes of a submission-queue entry spell (R531); FLAGS and the reserved bytes make one number,
which R532 wants 0. -/
def cmdOfBytes (fn : FnId) (qp : PortId) (raw : List Byte) : Nat × Cmd :=
  (field raw 0 1,
   { fn := fn, qp := qp, cid := field raw 2 2, rsvd := field raw 1 1 + 2 ^ 8 * field raw 5 3, tenant := field raw 4 1,
     addr := field raw 0x08 8, len := field raw 0x10 8, a0 := field raw 0x18 8, a1 := field raw 0x20 8, a2 := field raw 0x28 8,
     a3 := field raw 0x30 8, a4 := field raw 0x38 8 })

/-- COMMAND_FETCH: the head entry of the queue whose turn it is is fetched, and refused at once where R532 refuses it; in
HOST_LOST only an ATTACH at the head of PF0 queue 0 is fetched, and while the engine is frozen nothing is (R90, R512, R529, R532). -/
def execCommandFetch (fn : FnId) (qp : PortId) (s : State) (raw : List Byte := []) : Host.Outcome State Fault Refusal :=
  let f := fn.val
  let n := qp.val
  let (opcode, c) := cmdOfBytes fn qp raw
  let q := s.queue f n
  let mayTake := if s.dbg.host.lost then f == 0 && n == 0 && opcode == 0x83 && q.fetchable
    else s.nextFetch == some (f, n)
  if !mayTake || s.frozen then .next s
  else
    let head := (q.sqHead + 1) % q.sqEntries
    let s := s.setQueue f n { q with sqHead := head, inflight := q.inflight + 1 }
    let hif := { s.hif with fetched := s.hif.fetched ++ [(f, n, c.cid, head)], nextFn := (f + 1) % 8,
                            nextQueue := Tab.put 0 s.hif.nextQueue f ((n + 1) % 16) }
    let s := { s with hif := hif }
    match s.general opcode c with
    | some st => .next (s.fail c st)
    | none => .next s

/-- BAR0 offset of a queue register of function `f`'s pair `n`. -/
def queueOffset (base f n : Nat) : Nat := base + 0x40 * (16 * f + n)

/-- A write of HIF_Q_CFG with ENABLE 1 to pair `n` of function `f`, by function `w`: discarded while ENABLE reads 1, and where
CQ_ENTRIES is smaller than SQ_ENTRIES, a size is out of range or a base is not 4 KiB-aligned; otherwise the pair is in use from its
first entry on, with phase 1 (R528, R530). -/
def State.queueEnable (s : State) (w f n v : Nat) : State :=
  let p := s.queue f n
  let sq := bits v 0 4
  let cq := bits v 4 4
  if p.enable || decide (cq < sq) || decide (sq < 4) || decide (12 < sq) || decide (cq < 4) || decide (12 < cq) ||
     p.sqUnaligned || p.cqUnaligned || p.draining then
    s.discarded w (queueOffset 0x1010 f n) v
  else
    s.setQueue f n { p with
      sqLog := sq, cqLog := cq, vector := bits v 8 6, ien := bitAt v 14, enable := true,
      sqHead := 0, sqTail := 0, cqTail := 0, cqHead := 0, phase := true }

/-- Fetching from a pair stops at once; DRAINING reads 1 until the last fetched command's completion has been posted (R530). -/
def State.queueDisable (s : State) (f n : Nat) : State :=
  let p := s.queue f n
  s.setQueue f n { p with enable := false, draining := decide (0 < p.inflight) }

/-- A new submission tail; one beyond SQ_ENTRIES − 1 is discarded with an event for the writer (R529). -/
def State.queueTail (s : State) (w f n v : Nat) : State :=
  let p := s.queue f n
  let t := v % 2 ^ 12
  if t < p.sqEntries then s.setQueue f n { p with sqTail := t } else s.discarded w (queueOffset 0x1018 f n) v

/-- A new completion head; one that passes the engine's tail is discarded with an event for the writer (R529). -/
def State.queueHead (s : State) (w f n v : Nat) : State :=
  let p := s.queue f n
  let h := v % 2 ^ 12
  let k := p.cqEntries
  if h < k && (h + k - p.cqHead) % k ≤ (p.cqTail + k - p.cqHead) % k then s.setQueue f n { p with cqHead := h }
  else s.discarded w (queueOffset 0x1020 f n) v

/-- HIF_Q_ENABLE (R528, R530). -/
def execHifQEnable (fn : FnId) (q : PortId) (value : Word64) (s : State) : Host.Outcome State Fault Refusal :=
  .next <| s.ifWritable fun s => s.queueEnable fn.val fn.val q.val value.toNat

/-- HIF_Q_DISABLE (R530). -/
def execHifQDisable (fn : FnId) (q : PortId) (s : State) : Host.Outcome State Fault Refusal :=
  .next <| s.ifWritable fun s => s.queueDisable fn.val q.val

/-- HIF_SQ_DOORBELL (R529). -/
def execHifSqDoorbell (fn : FnId) (q : PortId) (tail : Nat) (s : State) : Host.Outcome State Fault Refusal :=
  .next <| s.ifWritable fun s => s.queueTail fn.val fn.val q.val tail

/-- HIF_CQ_DOORBELL (R529). -/
def execHifCqDoorbell (fn : FnId) (q : PortId) (head : Nat) (s : State) : Host.Outcome State Fault Refusal :=
  .next <| s.ifWritable fun s => s.queueHead fn.val fn.val q.val head

/-- VECTOR_UNMASK: the vector is unmasked; a PBA bit that stands makes it fire (R539). -/
def execVectorUnmask (fn : FnId) (vector : Fin 64) (s : State) : Host.Outcome State Fault Refusal :=
  let k := 64 * fn.val + vector.val
  let s1 := { s with hif := { s.hif with unmasked := Tab.put false s.hif.unmasked k true } }
  if Tab.look false s.hif.pba k then
    .next (State.interrupt { s1 with hif := { s1.hif with pba := Tab.put false s1.hif.pba k false } } fn.val vector.val)
  else .next s1

/-- HEARTBEAT: a write from PF0 is a heartbeat; a VF's is discarded (R511, R542). -/
def execHeartbeat (fn : FnId) (s : State) : Host.Outcome State Fault Refusal :=
  .next <| s.ifWritable fun s =>
    if fn.val = 0 then { s with dbg := { s.dbg with host := { s.dbg.host with lastBeat := s.pos } } } else s

/-- HIF_RESET_COLD: with CONFIRM 0xC01D a COLD reset follows once the write has completed; any other value is discarded
with an event (R540). -/
def execHifResetCold (value : Word64) (s : State) : Host.Outcome State Fault Refusal :=
  .next <| s.ifWritable fun s =>
    if bits value.toNat 48 16 = 0xC01D then { s with coldDue := true } else s.discarded 0 0x8 value.toNat

/-- HIF_RESET_WARM: with CONFIRM 0xC01D a WARM reset takes effect at the next turn boundary (R540). -/
def execHifResetWarm (value : Word64) (s : State) : Host.Outcome State Fault Refusal :=
  .next <| s.ifWritable fun s =>
    if bits value.toNat 48 16 = 0xC01D then { s with warmAt := some (s.warmAt.getD (s.boundaryAfter s.pos)) }
    else s.discarded 0 0x8 value.toNat

/-- CXL_LINK_UP: the link has trained; the engine then waits in LOAD_WAIT until firmware runs (R497, R522, R552). Training
begins only once the alignment sequence has passed its check; a link that retrains drops both IDE streams (R524). -/
def execCxlLinkUp (width : Nat) (fast : Bool) (s : State) : Host.Outcome State Fault Refusal :=
  if s.spn.align == .done && !s.perst then
    .next { s with hif := { s.hif with linkUp := true, width := width, fast := fast, ideIo := false, ideCm := false } }
  else .next s

/-- CXL_LINK_DOWN: both IDE streams drop and stay inactive until IDE_KM sets them (R524); without PERST# a supervised engine
enters HOST_LOST at the next turn boundary (R511). -/
def execCxlLinkDown (s : State) : Host.Outcome State Fault Refusal :=
  let h := { s.hif with linkUp := false, ideIo := false, ideCm := false, spdm := false }
  let down := if s.dbg.host.supervised && !s.perst then some (s.dbg.host.downAt.getD s.pos) else s.dbg.host.downAt
  .next { s with hif := h, dbg := { s.dbg with host := { s.dbg.host with downAt := down } } }

/-- IDE_KM: inside an SPDM session the keys of a stream are programmed and the stream enabled (R524). -/
def execIdeKm (io cm : Bool) (s : State) : Host.Outcome State Fault Refusal :=
  if s.hif.spdm then .next { s with hif := { s.hif with ideIo := io, ideCm := cm } } else .next s

/-- The four measurement blocks of R523. -/
def State.measurements (s : State) : List Nat :=
  [Config.maskRom, s.dbg.fw.measurement, s.jig.measurement, Config.digest "state" (s.sec.stepping, s.sec.lifecycle.code)]

/-- SPDM_MESSAGE: PF0 answers a request; GET_MEASUREMENTS (0xE0) publishes the four blocks, FINISH (0xE5) opens the session
and END_SESSION (0xEC) closes it (R523; the request codes are PRESUMED, DSP0274). -/
def execSpdmMessage (request : Nat) (s : State) : Host.Outcome State Fault Refusal :=
  let s1 := s.emit (.spdm request (if request = 0xE0 then s.measurements else []))
  if request = 0xE5 then .next { s1 with hif := { s1.hif with spdm := true } }
  else if request = 0xEC then .next { s1 with hif := { s1.hif with spdm := false } }
  else .next s1

/-- Bytes of the exchange window. -/
def State.exchSize (s : State) : Nat := s.mem.exch * 2 ^ 21

/-- The leaf entry that maps an address of the exchange window, with its tenant. -/
def State.exchPage (s : State) (addr : Nat) : Option (Nat × Page) :=
  (s.mem.pages.find? (fun e => e.2.exch && decide (e.2.frame * 65536 ≤ s.exchBase + addr) &&
    decide (s.exchBase + addr < e.2.frame * 65536 + e.2.size))).map (fun e => (e.1 / 2 ^ 33, e.2))

/-- HOST_EXCH_WRITE: the host writes the exchange window; a write to a locked page is dropped, counted and raises a
DISCARDED event (R172, R526). BAR2 answers nothing beyond the window. -/
def execHostExchWrite (addr : Nat) (data : List Byte) (s : State) : Host.Outcome State Fault Refusal :=
  if s.exchSize < addr + data.length then .next s
  else
    match s.exchPage addr with
    | some (_, p) =>
      if p.locks != 0 then
        .next ({ s with hif := { s.hif with exchRefused := satAdd 32 s.hif.exchRefused 1 } }.discarded 0 addr (field data 0 8))
      else .next { s with ram := ramWrite s.ram (ramKey 2 (s.exchBase + addr)) data }
    | none => .next { s with ram := ramWrite s.ram (ramKey 2 (s.exchBase + addr)) data }

/-- HOST_EXCH_READ: the host reads the exchange window; a read that meets an uncorrectable error returns zeros, counts and
raises MEM_UE events (R410, R526). In TAMPERED the contents are unreadable: free values (R482). -/
def execHostExchRead (addr len : Nat) (ue : Bool) (s : State) : Host.Outcome State Fault Refusal :=
  if s.exchSize < addr + len then .next s
  else if s.sec.lifecycle == .tampered then
    .next (State.emit { s with freeCtr := s.freeCtr + len }
      (.exchRead addr ((List.range len).map (fun i => BitVec.ofNat 8 (Config.freeNat (s.freeCtr + i))))))
  else if ue then
    let s1 := { s with hif := { s.hif with exchUe := satAdd 32 s.hif.exchUe 1 } }
    let s2 := match s.exchPage addr with
      | some (t, _) => s1.memUe 2 (s.exchBase + addr) t false 0
      | none => s1.memUe 2 (s.exchBase + addr) 0 true 0
    .next (s2.emit (.exchRead addr (List.replicate len 0)))
  else
    .next (s.emit (.exchRead addr ((List.range len).map (fun i => s.ramByte (ramKey 2 (s.exchBase + addr + i))))))

end Sys2Proof.Machine
end

