-- ==== Sys2Proof/Machine/RegNames.lean ====
section
/-! DEFINITION. Machine/RegNames.lean: the registers of BAR0: their names, where each block's lie, and what an offset names for the host
driver and for a VF (R15 to R19, R525, R527). -/

namespace Sys2Proof.Machine

/-- A register, or an array of them, by its name in the spec. -/
inductive Reg where
  | hifStatus | hifReset | hifHeartbeat | hifExch | hifSqBase | hifCqBase | hifQCfg | hifSqDoorbell | hifCqDoorbell | hifQStatus
  | spnPosition | spnStatus | spnConfig | spnEpoch | spnTurn | spnPtpOffset | spnFreeze | spnBarrier | spnLinkDelay
  | spnBudgetDma | spnBudgetLink
  | jigStatus | jigSerial | jigMeasurement | jigShadowDigest | jigPending | jigCheck | jigRouteSet | jigShadowAddr
  | jigShadowData | jigLiveHost | jigLiveEvents | jigLiveThermal
  | celStatus | celWork | celErr | celArith | celErrAddr | celModulus | celModulusQinv | celModulusRsq | celLink | celGroup
  | celAccMap | celSealMap | celProg | celFault | celToken
  | aggRound | aggCollect | aggDeadline | aggShareEnd | aggAccept | aggRefuse | aggPool | aggMirror | aggBindCtl | aggBindChunks
  | aggBindCohorts | aggBindAddr | aggIngest | aggUnmask | aggShares | aggRecon | aggBindStreams
  | ringStatus | ringErr | ringTenant | ringMacroPos | ringParams | ringParamsDigest | ringPlan | ringRplan | ringRplanKeys
  | ringExit | ringDescSel | ringDescData
  | memHbmCap | memDdrCap | memExch | memScrub | memFaultLimit | memErr | memUeLog | memRetire | memRetireStatus | memReceiptSel
  | memReceiptData | memQuota | memKey | memMapVa | memMapArg | memMapCtl | memMapStatus | memWalkVa | memWalkPte | memFaultVa
  | memFaultOffset | memDma
  | fabPortStatus | fabPortCtl | fabPortErr | fabPortTx | fabPortRx | fabEthDrop | fabLaser | fabFlows | fabOpmap | fabTenant
  | fabEpCtx | fabEpDoorbell
  | secLifecycle | secIdentity | secOwner | secApproved | secTamper | secTrng | secChallengeCtl | secChallenge | secKeyStatus
  | secKeyQuota | secKeySel | secKeyInfo | secTenant | secCalSel | secCalUser | secCalValue
  | pwrStatus | pwrLimit | pwrPackage | pwrTrip | pwrTemp | pwrRail | pwrGrant
  | dbgFw | dbgFwMeasurement | dbgHost | dbgCalipers | dbgShvStatus | dbgShvConfig | dbgShvPop | dbgShvData
  deriving DecidableEq, Repr

/-- Where a register lies in its block: offset, number of elements and stride (R15, R16). -/
structure RegRow where
  reg : Reg
  off : Nat
  count : Nat
  stride : Nat
  deriving DecidableEq, Repr

/-- The HIF block (R542). -/
def hifRows : List RegRow := [
  ⟨.hifStatus, 0x0, 1, 0x8⟩, ⟨.hifReset, 0x8, 1, 0x8⟩, ⟨.hifHeartbeat, 0x10, 1, 0x8⟩, ⟨.hifExch, 0x18, 1, 0x8⟩,
  ⟨.hifSqBase, 0x1000, 128, 0x40⟩, ⟨.hifCqBase, 0x1008, 128, 0x40⟩, ⟨.hifQCfg, 0x1010, 128, 0x40⟩,
  ⟨.hifSqDoorbell, 0x1018, 128, 0x40⟩, ⟨.hifCqDoorbell, 0x1020, 128, 0x40⟩, ⟨.hifQStatus, 0x1028, 128, 0x40⟩]

/-- The SPN block (R95). -/
def spnRows : List RegRow := [
  ⟨.spnPosition, 0x0, 1, 0x8⟩, ⟨.spnStatus, 0x8, 1, 0x8⟩, ⟨.spnConfig, 0x10, 1, 0x8⟩, ⟨.spnEpoch, 0x18, 1, 0x8⟩,
  ⟨.spnTurn, 0x20, 1, 0x8⟩, ⟨.spnPtpOffset, 0x28, 1, 0x8⟩, ⟨.spnFreeze, 0x30, 1, 0x8⟩, ⟨.spnBarrier, 0x38, 1, 0x8⟩,
  ⟨.spnLinkDelay, 0x40, 16, 0x8⟩, ⟨.spnBudgetDma, 0x100, 8, 0x8⟩, ⟨.spnBudgetLink, 0x200, 128, 0x8⟩]

/-- The JIG block (R122). -/
def jigRows : List RegRow := [
  ⟨.jigStatus, 0x0, 1, 0x8⟩, ⟨.jigSerial, 0x8, 1, 0x8⟩, ⟨.jigMeasurement, 0x10, 6, 0x8⟩, ⟨.jigShadowDigest, 0x40, 6, 0x8⟩,
  ⟨.jigPending, 0x70, 1, 0x8⟩, ⟨.jigCheck, 0x78, 1, 0x8⟩, ⟨.jigRouteSet, 0x80, 1, 0x8⟩, ⟨.jigShadowAddr, 0x88, 1, 0x8⟩,
  ⟨.jigShadowData, 0x90, 1, 0x8⟩, ⟨.jigLiveHost, 0x100, 1, 0x8⟩, ⟨.jigLiveEvents, 0x108, 1, 0x8⟩,
  ⟨.jigLiveThermal, 0x110, 1, 0x8⟩]

/-- The CEL block (R153, R192, R229). -/
def celRows : List RegRow := [
  ⟨.celStatus, 0x0, 1, 0x8⟩, ⟨.celWork, 0x8, 1, 0x8⟩, ⟨.celErr, 0x10, 1, 0x8⟩, ⟨.celArith, 0x18, 1, 0x8⟩,
  ⟨.celErrAddr, 0x20, 1, 0x8⟩, ⟨.celModulus, 0x100, 16, 0x8⟩, ⟨.celModulusQinv, 0x180, 16, 0x8⟩,
  ⟨.celModulusRsq, 0x200, 16, 0x8⟩, ⟨.celLink, 0x300, 4, 0x8⟩, ⟨.celGroup, 0x400, 32, 0x8⟩, ⟨.celAccMap, 0x500, 1, 0x8⟩,
  ⟨.celSealMap, 0x600, 16, 0x8⟩, ⟨.celProg, 0x700, 1, 0x8⟩, ⟨.celFault, 0x708, 1, 0x8⟩, ⟨.celToken, 0x800, 64, 0x8⟩]

/-- The AGG block (R271, R306). -/
def aggRows : List RegRow := [
  ⟨.aggRound, 0x0, 64, 0x8⟩, ⟨.aggCollect, 0x200, 64, 0x8⟩, ⟨.aggDeadline, 0x400, 64, 0x8⟩, ⟨.aggShareEnd, 0x600, 64, 0x8⟩,
  ⟨.aggAccept, 0x800, 64, 0x8⟩, ⟨.aggRefuse, 0xA00, 64, 0x8⟩, ⟨.aggPool, 0xC00, 64, 0x8⟩, ⟨.aggMirror, 0xE00, 64, 0x8⟩,
  ⟨.aggBindCtl, 0x1000, 256, 0x20⟩, ⟨.aggBindChunks, 0x1008, 256, 0x20⟩, ⟨.aggBindCohorts, 0x1010, 256, 0x20⟩,
  ⟨.aggBindAddr, 0x1018, 256, 0x20⟩, ⟨.aggIngest, 0x3000, 8, 0x8⟩, ⟨.aggUnmask, 0x4000, 64, 0x8⟩, ⟨.aggShares, 0x4200, 64, 0x8⟩,
  ⟨.aggRecon, 0x4400, 64, 0x8⟩, ⟨.aggBindStreams, 0x5000, 256, 0x8⟩]

/-- The RING block (R349, R375). -/
def ringRows : List RegRow := [
  ⟨.ringStatus, 0x0, 1, 0x8⟩, ⟨.ringErr, 0x8, 1, 0x8⟩, ⟨.ringTenant, 0x40, 8, 0x8⟩, ⟨.ringMacroPos, 0x80, 8, 0x8⟩,
  ⟨.ringParams, 0x100, 64, 0x8⟩, ⟨.ringParamsDigest, 0x300, 64, 0x8⟩, ⟨.ringPlan, 0x500, 64, 0x8⟩, ⟨.ringRplan, 0x800, 16, 0x8⟩,
  ⟨.ringRplanKeys, 0x880, 16, 0x8⟩, ⟨.ringExit, 0x900, 8, 0x8⟩, ⟨.ringDescSel, 0x1000, 8, 0x80⟩]

/-- The MEM block (R414). -/
def memRows : List RegRow := [
  ⟨.memHbmCap, 0x0, 1, 0x8⟩, ⟨.memDdrCap, 0x8, 1, 0x8⟩, ⟨.memExch, 0x10, 1, 0x8⟩, ⟨.memScrub, 0x18, 1, 0x8⟩,
  ⟨.memFaultLimit, 0x20, 1, 0x8⟩, ⟨.memErr, 0x28, 1, 0x8⟩, ⟨.memUeLog, 0x30, 1, 0x8⟩, ⟨.memRetire, 0x38, 1, 0x8⟩,
  ⟨.memRetireStatus, 0x40, 1, 0x8⟩, ⟨.memReceiptSel, 0x48, 1, 0x8⟩, ⟨.memReceiptData, 0x50, 1, 0x8⟩, ⟨.memQuota, 0x100, 24, 0x8⟩,
  ⟨.memKey, 0x200, 16, 0x8⟩, ⟨.memMapVa, 0x400, 8, 0x20⟩, ⟨.memMapArg, 0x408, 8, 0x20⟩, ⟨.memMapCtl, 0x410, 8, 0x20⟩,
  ⟨.memMapStatus, 0x418, 8, 0x20⟩, ⟨.memWalkVa, 0x500, 8, 0x10⟩, ⟨.memWalkPte, 0x508, 8, 0x10⟩, ⟨.memFaultVa, 0x600, 256, 0x10⟩,
  ⟨.memFaultOffset, 0x608, 256, 0x10⟩, ⟨.memDma, 0x1600, 32, 0x8⟩]

/-- The FAB block (R453). -/
def fabRows : List RegRow := [
  ⟨.fabPortStatus, 0x0, 16, 0x8⟩, ⟨.fabPortCtl, 0x80, 16, 0x8⟩, ⟨.fabPortErr, 0x100, 16, 0x8⟩, ⟨.fabPortTx, 0x180, 16, 0x8⟩,
  ⟨.fabPortRx, 0x200, 16, 0x8⟩, ⟨.fabEthDrop, 0x280, 16, 0x8⟩, ⟨.fabLaser, 0x300, 4, 0x8⟩, ⟨.fabFlows, 0x400, 1, 0x8⟩,
  ⟨.fabOpmap, 0x480, 1, 0x8⟩, ⟨.fabTenant, 0x500, 8, 0x8⟩, ⟨.fabEpCtx, 0x1000, 8192, 0x8⟩, ⟨.fabEpDoorbell, 0x20000, 8192, 0x8⟩]

/-- The SEC block (R496). -/
def secRows : List RegRow := [
  ⟨.secLifecycle, 0x0, 1, 0x8⟩, ⟨.secIdentity, 0x8, 6, 0x8⟩, ⟨.secOwner, 0x38, 6, 0x8⟩, ⟨.secApproved, 0x80, 1, 0x8⟩,
  ⟨.secTamper, 0x88, 1, 0x8⟩, ⟨.secTrng, 0x90, 1, 0x8⟩, ⟨.secChallengeCtl, 0x98, 1, 0x8⟩, ⟨.secChallenge, 0xA0, 4, 0x8⟩,
  ⟨.secKeyStatus, 0x100, 1, 0x8⟩, ⟨.secKeyQuota, 0x140, 8, 0x8⟩, ⟨.secKeySel, 0x200, 8, 0x10⟩, ⟨.secKeyInfo, 0x208, 8, 0x10⟩,
  ⟨.secTenant, 0x300, 8, 0x8⟩, ⟨.secCalSel, 0x400, 1, 0x8⟩, ⟨.secCalUser, 0x408, 1, 0x8⟩, ⟨.secCalValue, 0x410, 1, 0x8⟩]

/-- The PWR block (R520). -/
def pwrRows : List RegRow := [
  ⟨.pwrStatus, 0x0, 1, 0x8⟩, ⟨.pwrLimit, 0x8, 1, 0x8⟩, ⟨.pwrPackage, 0x10, 1, 0x8⟩, ⟨.pwrTrip, 0x18, 1, 0x8⟩,
  ⟨.pwrTemp, 0x40, 16, 0x8⟩, ⟨.pwrRail, 0xC0, 8, 0x8⟩, ⟨.pwrGrant, 0x100, 64, 0x8⟩]

/-- The DBG block (R521). -/
def dbgRows : List RegRow := [
  ⟨.dbgFw, 0x0, 1, 0x8⟩, ⟨.dbgFwMeasurement, 0x8, 6, 0x8⟩, ⟨.dbgHost, 0x40, 1, 0x8⟩, ⟨.dbgCalipers, 0x80, 1, 0x8⟩,
  ⟨.dbgShvStatus, 0x100, 9, 0x8⟩, ⟨.dbgShvConfig, 0x180, 9, 0x8⟩, ⟨.dbgShvPop, 0x200, 9, 0x8⟩, ⟨.dbgShvData, 0x400, 36, 0x8⟩]

/-- The register and element of an offset in a block. -/
def findRow (rows : List RegRow) (o : Nat) : Option (Reg × Nat) :=
  match rows with
  | [] => none
  | r :: rest =>
    if r.off ≤ o ∧ (o - r.off) % r.stride = 0 ∧ (o - r.off) / r.stride < r.count then some (r.reg, (o - r.off) / r.stride)
    else findRow rest o

/-- RING: beside the rows, RING_DESC_DATA of tenant t at 0x1008 + 0x80 t, as element 8 t + i (R349). -/
def findRing (o : Nat) : Option (Reg × Nat) :=
  let x := o - 0x1008
  if 0x1008 ≤ o ∧ x / 0x80 < 8 ∧ x % 0x80 < 0x40 ∧ x % 8 = 0 then some (.ringDescData, 8 * (x / 0x80) + x % 0x80 / 8)
  else findRow ringRows o

/-- Size of BAR0 of PF0 (R525). -/
def bar0Size : Nat := 2 ^ 26

/-- What an offset of BAR0 names: the register, its element and, for CEL, the cell; none where no register is tabled (R19, R525). -/
def decodeReg (o : Nat) : Option (Reg × Nat × Nat) :=
  let plain := fun (x : Option (Reg × Nat)) => x.map (fun (r, i) => (r, i, 0))
  let b := o / 2 ^ 20
  let x := o % 2 ^ 21
  if b = 0 then plain (findRow hifRows o)
  else if b = 1 then plain (findRow spnRows (o - 2 ^ 20))
  else
    match o / 2 ^ 21 with
    | 1 => plain (findRow jigRows x)
    | 2 => if x < 2 ^ 20 then (findRow celRows (x % 0x4000)).map (fun (r, i) => (r, i, x / 0x4000)) else none
    | 3 => plain (findRow aggRows x)
    | 4 => plain (findRing x)
    | 5 => plain (findRow memRows x)
    | 6 => plain (findRow fabRows x)
    | 7 => plain (findRow secRows x)
    | 8 => plain (findRow pwrRows x)
    | 9 => plain (findRow dbgRows x)
    | _ => none

/-! ### The tenant window (R527) -/

/-- The first `n` elements of an array in a window stand for those from `first` on. -/
def ownElems (first n i : Nat) : Option Nat := if i < n then some (first + i) else none

/-- The element of a register that element `i` of VF `t`'s window shows; none where its chapter does not list the register as
tenant-visible or there is no such element of the tenant's. -/
def vfElem (t : Nat) (r : Reg) (i : Nat) : Option Nat :=
  match r with
  | .hifStatus | .hifHeartbeat | .spnPosition | .spnTurn | .jigMeasurement => some i
  | .hifSqBase | .hifCqBase | .hifQCfg | .hifSqDoorbell | .hifCqDoorbell | .hifQStatus | .spnBudgetLink => ownElems (16 * t) 16 i
  | .celStatus | .celWork | .celErr | .celArith | .celErrAddr | .celModulus | .celModulusQinv | .celModulusRsq | .celLink | .celGroup
  | .celAccMap | .celSealMap | .celProg | .celFault | .celToken => some i
  | .aggRound | .aggCollect | .aggDeadline | .aggShareEnd | .aggAccept | .aggRefuse | .aggPool | .aggMirror | .aggUnmask | .aggShares
  | .aggRecon => some i
  | .aggBindCtl | .aggBindChunks | .aggBindCohorts | .aggBindAddr | .aggBindStreams | .memFaultVa | .memFaultOffset =>
    ownElems (32 * t) 32 i
  | .ringParams | .ringParamsDigest | .ringPlan | .ringRplan | .ringRplanKeys | .fabPortStatus => some i
  | .spnBudgetDma | .ringTenant | .ringMacroPos | .ringExit | .ringDescSel | .memMapVa | .memMapArg | .memMapCtl | .memMapStatus
  | .memWalkVa | .memWalkPte | .fabTenant | .secKeyQuota | .secKeySel | .secKeyInfo | .secTenant => ownElems t 1 i
  | .ringDescData | .pwrGrant => ownElems (8 * t) 8 i
  | .memQuota => ownElems (3 * t) 3 i
  | .memKey => ownElems (2 * t) 2 i
  | .secLifecycle | .secIdentity | .secOwner | .secApproved | .pwrStatus | .pwrLimit | .pwrPackage | .dbgFw | .dbgFwMeasurement => some i
  | .dbgShvStatus | .dbgShvConfig | .dbgShvPop => ownElems (t + 1) 1 i
  | .dbgShvData => ownElems (4 * (t + 1)) 4 i
  | _ => none

/-- The register, element and cell of an offset in VF `t`'s window; none outside the registers mapped into it (R23, R527). -/
def State.vfReg (s : State) (t o : Nat) : Option (Reg × Nat × Nat) :=
  let own := fun (x : Option (Reg × Nat)) => x.bind (fun (r, i) => (vfElem t r i).map (fun j => (r, j, 0)))
  let ep := fun (r : Reg) (x : Nat) =>
    let e := x / 8
    if x % 8 = 0 ∧ e < 8192 ∧ (s.ep e).state ≠ 0 ∧ (s.ep e).tenant = t then some (r, e, 0) else none
  match o / 2 ^ 16 with
  | 0 => own (findRow hifRows o)
  | 1 =>
    if o < 0x11000 then own (findRow spnRows (o - 0x10000))
    else if o < 0x12000 then own (findRow jigRows (o - 0x11000)) else none
  | 2 | 3 | 4 | 5 =>
    let c := (o - 0x20000) / 0x1000
    if s.cellTenant c = t then (findRow celRows (o % 0x1000)).map (fun (r, i) => (r, i, c)) else none
  | 6 => own (findRow aggRows (o - 0x60000))
  | 7 => own (findRing (o - 0x70000))
  | 8 => own (findRow memRows (o - 0x80000))
  | 9 => own (findRow fabRows (o - 0x90000))
  | 10 => ep .fabEpCtx (o - 0xA0000)
  | 11 => ep .fabEpDoorbell (o - 0xB0000)
  | 12 => own (findRow secRows (o - 0xC0000))
  | 13 => own (findRow pwrRows (o - 0xD0000))
  | 14 => own (findRow dbgRows (o - 0xE0000))
  | _ => none

end Sys2Proof.Machine
end

