-- ==== Sys2Proof/Machine/Ring.lean ====
section
/-! DEFINITION. Machine/Ring.lean: RING_MACRO and its entries: the operations of R338 and the macros of R374 (R337 to R343, R355 to
R364). An entry's data moves in its last step (notes/assumptions/18.md). -/

namespace Sys2Proof.Machine

/-- Most RING_MACRO commands of a tenant that have not completed (R341). -/
def maxMacros : Nat := 16

/-- A parameter set that an entry's descriptors name is detached (R343). -/
def State.namesDetached (s : State) (e : RingEntry) : Bool := [e.dst, e.a, e.b].any (fun d => (s.desc d).valid && (s.params (s.desc d).psid).detached)

/-- RING_MACRO: the list is read and waits its turn; without a slot of the sequencer, or a DMA budget for the keys that it names, it is
refused with BUDGET (R71, R337, R341, R343). -/
def execRingMacro (c : Cmd) (s : State) : Host.Outcome State Fault Refusal :=
  .next <| s.command 0x72 c fun s =>
    let t := cmdActs c
    match firstFail [
        (c.len % 32 != 0 || c.len == 0 || decide (32 * 65536 < c.len), .bounds),
        (decide (maxMacros ≤ (s.macros t).length), .quotaExceeded)], s.blockFail t c.addr c.len (fun p => p.r) with
    | some st, _ => s.fail c st
    | none, some st => s.fail c st
    | none, none =>
      let es := parseEntries (s.readVA t c.addr c.len c.host) 0 (c.len / 32)
      if !s.ownsSlot .ring 0 t || (es.any (fun e => usesEvk e.op) && s.dmaBudgetFull t == 0) then s.fail c .budget
      else if es.any s.namesDetached then s.fail c .cfgMismatch
      else s.advanceMacros t (s.macros t ++ [{ cmd := c, entries := es, pos := 0, flags := 0, waiting := false }])

/-- The command at the head of tenant `t`, where its entry has this operation and may issue on the ring sequencer (R342). -/
def State.ringHead (s : State) (t op : Nat) : Option RingMacro :=
  match s.macros t with
  | m :: _ => if m.head.op == op && !m.waiting && s.mayIssue t .ring 0 then some m else none
  | [] => none

/-- Every page of the descriptors is mapped: an entry that meets a translation fault waits (R75, R342). -/
def State.ringMapped (s : State) (t : Nat) (l : List RingDesc) : Bool :=
  l.all (fun d => (s.extents d).all (fun x => s.mapped t x.1 x.2))

/-- Completion flags of a running entry (R342, R343, R538). -/
def ringFlags (v : RingEnv) : Nat := 33 * b2n v.resumed + 16 * b2n v.preempted

/-- The first byte at which an error is found stands somewhere in the operand: where, the model leaves free. -/
def State.ringUe (s : State) (t : Nat) (d : RingDesc) : State :=
  let va := d.base + Config.unstated "address of an uncorrectable error" [t, d.base] % 4096
  s.memUe (s.page t va).tier ((s.page t va).phys va) t false 0

/-- What ends an entry that has started: an error in an operand or a broken page, or a chunk whose digest differs (R331, R340). -/
def State.ringStop (s : State) (t : Nat) (l : List RingDesc) (evk : Bool) (v : RingEnv) : Option Status :=
  firstFail [
    (v.ue || l.any (fun d => (s.extents d).any (fun x => !s.allPages t x.1 x.2 (fun p => !p.broken))), .memUe),
    (evk && v.badChunk.isSome, .evkChunkDigest),
    (l.any (fun d => (s.extents d).any (fun x => !s.allPages t x.1 x.2 (fun p => p.r && p.w))), .rights)]

/-! ### Exchanges over the mesh (R319, R322, R325) -/

/-- Cells of a team (R307, R317). -/
def ParamSet.teamSize (p : ParamSet) : Nat := 2 ^ p.spread

/-- The teams of a ring group: P consecutive cells of the group each, in ascending cell order (R317; which cells form a team is DEDUCED,
notes/assumptions/46.md). -/
def State.teams (s : State) (p : ParamSet) : List (List Nat) :=
  let cs := s.groupCells p.group
  (List.range (cs.length / p.teamSize)).map (fun i => (cs.drop (i * p.teamSize)).take p.teamSize)

/-- Positions of a limb polynomial in a cell: n_c = N / P (R317). -/
def ParamSet.cellPositions (p : ParamSet) : Nat := p.n / p.teamSize

/-- The tenant's route from one cell to another: the lowest of which it owns a slot (R309, R319). -/
def State.ringRoute (s : State) (t src dst : Nat) : Option (Nat × JigRoute) :=
  (((s.jig.cfg.routes.getD s.jig.me []).zipIdx).find? (fun x => x.1.src == src && x.1.dst == dst && s.ownsSlot .meshRoute x.2 t)).map
    (fun x => (x.2, x.1))

/-- A transfer of an exchange counts on the links of its route (R149, R153, R319). -/
def State.ringTransfer (s : State) (t src dst n : Nat) : State :=
  match s.ringRoute t src dst with
  | some (i, r) => s.countLinks i n r.links
  | none => s

/-- An exchange over some cells: in phase `k`, from 1 on, the cell at place `r` sends `bytes r` bytes to the one at place r XOR k; a phase
begins when the transfers of the one before have landed (R319). -/
def State.exchange (s : State) (t : Nat) (cells : List Nat) (bytes : Nat → Nat) : State :=
  s.each ((List.range cells.length).drop 1) (fun s k =>
    s.each (List.range cells.length) (fun s r =>
      if bytes r = 0 then s else s.ringTransfer t (cells.getD r 0) (cells.getD (Nat.xor r k) 0) (bytes r)))

/-- The team of a limb: i mod (G / P) (R322). -/
def State.limbTeam (s : State) (p : ParamSet) (i : Nat) : Nat := i % max 1 (s.teams p).length

/-- One exchange of a limb over its team: n_c / P positions of 4 bytes in each transfer (R319). -/
def State.limbExchange (s : State) (t : Nat) (p : ParamSet) (i : Nat) : State :=
  s.exchange t ((s.teams p).getD (s.limbTeam p i) []) (fun _ => 4 * (p.cellPositions / p.teamSize))

/-- An NTT or INTT of a limb: its exchange and the exchange back (R317, R318). -/
def State.transformLimb (s : State) (t : Nat) (p : ParamSet) (i : Nat) : State := (s.limbExchange t p i).limbExchange t p i

/-- Basis conversion: between the teams, at each rank, every team's residues of the limbs given go to the others (R322, R327). -/
def State.convertBasis (s : State) (t : Nat) (p : ParamSet) (limbs : List Nat) : State :=
  s.each (List.range p.teamSize) (fun s r =>
    s.exchange t ((s.teams p).map (fun c => c.getD r 0))
      (fun u => 4 * p.cellPositions * (limbs.filter (fun i => s.limbTeam p i == u)).length))

/-- Limbs 0 to `l`, and the special limbs, as entries of the prime table (R307, R327). -/
def ParamSet.basis (p : ParamSet) (l : Nat) : List Nat := List.range (l + 1) ++ (List.range p.special).map (· + 64)

/-- What a key switch at level `l` exchanges: each digit is brought out of the evaluation domain, converted to the rest of the extended
basis and brought back; then the special limbs of both components are divided out in the same way (R327; the transforms of the last
step are DEDUCED, notes/assumptions/46.md). -/
def State.switchExchanges (s : State) (t : Nat) (p : ParamSet) (l : Nat) : State :=
  let special := (List.range p.special).map (· + 64)
  let s := s.each (List.range (ceilDiv (l + 1) p.alpha)) (fun s d =>
    let digit := (List.range (l + 1)).filter (fun i => i / p.alpha == d)
    let s := (s.each digit (fun s i => s.transformLimb t p i)).convertBasis t p digit
    s.each ((p.basis l).filter (fun i => !digit.contains i)) (fun s i => s.transformLimb t p i))
  s.each [0, 1] (fun s _ =>
    let s := (s.each special (fun s i => s.transformLimb t p i)).convertBasis t p special
    s.each (List.range (l + 1)) (fun s i => s.transformLimb t p i))

/-- Link counts that an entry raises by an amount that no rule states: free values (notes/assumptions/46.md). -/
def State.freeLinks (s : State) : State :=
  let (v, s) := s.draw
  s.each (List.range 64) (fun s c => s.updCell c fun x => { x with
    linkBytes := (List.range 4).foldl (fun m d =>
      Tab.put 0 m d (wrapAdd 48 (Tab.look 0 m d) (Config.ringData "link bytes" [v, c] d))) x.linkBytes
    linkRoute := (List.range 4).foldl (fun m d =>
      if Config.ringData "link used" [v, c] d % 2 = 0 then m
      else Tab.put 0 m d (Config.ringData "link route" [v, c] d % 256)) x.linkRoute })

/-- What an entry exchanges over the mesh: the transforms of NTT and INTT, the permutation of ROTATE (R325), key switching; for a rescale in
the evaluation domain and the composite macros no rule says how much. -/
def State.entryExchanges (s : State) (t : Nat) (e : RingEntry) : State :=
  let a := s.desc e.a
  let p := s.params a.psid
  let all := fun (s : State) (f : State → Nat → State) => s.each (List.range a.comps) (fun s _ => s.each (List.range (a.level + 1)) f)
  match e.op with
  | 0x0A => all s (fun s i => s.transformLimb t p i)
  | 0x0B => all s (fun s i => s.transformLimb t p i)
  | 0x08 => (all s (fun s i => s.limbExchange t p i)).switchExchanges t p a.level
  | 0x06 => s.switchExchanges t p a.level
  | 0x07 => if a.eval then s.freeLinks else s
  | op => if op < 0x40 then s else s.freeLinks

/-- The other resources of an operation: the cell group's slot, a DMA engine that feeds it, and a route of the tenant between any two cells
of the group (R319, R342). -/
def State.ringIssue (s : State) (t g : Nat) : Bool :=
  s.mayIssue t .cellGroup g && (List.range 32).any (fun d => s.dmaFeeds d == g && s.ownsSlot .dma d t) &&
  (s.groupCells g).all (fun a => (s.groupCells g).all (fun b => a == b || (s.ringRoute t a b).isSome))

/-! ### Running an entry (R339 to R343) -/

/-- Change the command at the head of a tenant. -/
def State.setHead (s : State) (t : Nat) (m : RingMacro) : State := s.setMacros t (m :: (s.macros t).drop 1)

/-- The head entry begins: it is noted as running, and the pages of its descriptors are locked (R341, R349). -/
def State.beginEntry (s : State) (t : Nat) (m : RingMacro) : State :=
  ((s.lockEntry t m.head true).setHead t { m with run := some (0, s.turn) }).updRing fun r => { r with
    tenant := t, macroPos := Tab.put (0, 0, 0) r.macroPos t (m.pos, m.head.op, 0) }

/-- The head entry that runs waits for owned slots or for budget, with `moved` bytes of its key streamed (R332, R343). -/
def State.pauseEntry (s : State) (t : Nat) (m : RingMacro) (moved turn : Nat) : State :=
  (s.setHead t { m with run := some (moved, turn) }).updRing fun r => { r with
    paused := Tab.put false r.paused t true, macroPos := Tab.put (0, 0, 0) r.macroPos t (m.pos, m.head.op, moved / 65536 % 2 ^ 32) }

/-- Run the head entry of tenant `t`: its checks; it begins once its group's resources allow; its evaluation key streams through the feed
engines, over several slots and turns where it must (R332); then its stop or its result. `opnds` are the descriptors whose data it
needs, `chunks` the key chunks, `body` the write of the result (R339 to R343). -/
def State.runEntry (s : State) (t op : Nat) (v : RingEnv) (checks : RingEntry → List (Bool × Status)) (opnds : RingEntry → List RingDesc)
    (psid : RingEntry → Nat) (chunks : RingEntry → Nat) (scratch : RingEntry → Nat × Nat) (body : State → RingEntry → State) : State :=
  match s.ringHead t op with
  | none => s
  | some m =>
    let e := m.head
    match (if m.run.isSome then none else firstFail (checks e)) with
    | some st => s.endEntry t st 0 0
    | none =>
      let p := s.params (psid e)
      if !s.ringIssue t p.group || !s.ringMapped t (opnds e) then s
      else
        let s := if m.run.isSome then s else s.beginEntry t m
        let (moved, turn) := m.run.getD (0, s.turn)
        let total := match v.badChunk with
          | some i => if i < chunks e && moved ≤ 65536 * i then 65536 * (i + 1) else 65536 * chunks e
          | none => 65536 * chunks e
        let n := s.feedMoves p.group t (total - moved)
        let s := s.chargeDma t n
        if moved + n < total then s.pauseEntry t m (moved + n) turn
        else
          let flags := Nat.lor (ringFlags v) (16 * b2n (turn != s.turn))
          let stop := s.ringStop t (opnds e) (total < 65536 * chunks e || (chunks e != 0 && v.badChunk == some (chunks e - 1))) v
          let s := (s.updRing fun r => { r with paused := Tab.put false r.paused t false }).lockEntry t e false
          match stop with
          | some st =>
            let s := if st = .memUe then s.ringUe t (s.desc e.a) else s
            let k := if st = .evkChunkDigest then v.badChunk.getD 0 else 0
            (s.ringLeaves t p (scratch e).1 (scratch e).2).endEntry t st flags k
          | none =>
            let s1 := body (s.entryExchanges t e) e
            (s1.ringLeaves t p (scratch e).1 (scratch e).2).endEntry t .ok flags (chunks e)

/-- The scratch area of a parameter set. -/
def State.setScratch (s : State) (p : Nat) : Nat × Nat := ((s.params p).scratch, (s.params p).scratchLen)

/-- A destination's descriptor after a result: the result's properties, where it stands, and GENERATION raised (R334, R340). -/
def RingDesc.holds (d r : RingDesc) : RingDesc :=
  { d with
    level := r.level, noise := r.noise, scale := r.scale, eval := r.eval, plain := r.plain, keyset := r.keyset
    fingerprint := r.fingerprint, generation := wrapAdd 32 d.generation 1 }

/-- Write the result of an operation of R338 (R340). -/
def State.ringResult (s : State) (t : Nat) (e : RingEntry) : State :=
  let a := s.desc e.a
  let p := s.params a.psid
  let b := if usesB e.op then s.desc e.b else {}
  let key := if usesEvk e.op then s.evkData t (s.evk e.evk) else []
  let x := ringCompute p e (s.readPoly t a) (if usesB e.op then s.readPoly t b else []) key
  let d := (s.desc e.dst).holds (resultDesc p e a b 0)
  (s.writePoly t d x).setDesc e.dst d

/-- An entry with an operation of R338. -/
def State.ringOp (s : State) (t op : Nat) (v : RingEnv) : State :=
  s.runEntry t op v (s.entryChecks t)
    (fun e => [s.desc e.dst, s.desc e.a] ++ (if usesB e.op then [s.desc e.b] else []))
    (fun e => (s.desc e.a).psid) (fun e => entryChunks (s.params (s.desc e.a).psid) e (s.desc e.a).level)
    (fun e => s.setScratch (s.desc e.a).psid) (fun s e => s.ringResult t e)

/-- ADD (R338). -/
def execRingAdd (t : TenantId) (env : RingEnv) (s : State) : Host.Outcome State Fault Refusal := .next (s.ringOp t.val 0x01 env)
/-- SUB (R338). -/
def execRingSub (t : TenantId) (env : RingEnv) (s : State) : Host.Outcome State Fault Refusal := .next (s.ringOp t.val 0x02 env)
/-- ADDP (R338). -/
def execRingAddp (t : TenantId) (env : RingEnv) (s : State) : Host.Outcome State Fault Refusal := .next (s.ringOp t.val 0x03 env)
/-- MULP (R338). -/
def execRingMulp (t : TenantId) (env : RingEnv) (s : State) : Host.Outcome State Fault Refusal := .next (s.ringOp t.val 0x04 env)
/-- MULC (R338). -/
def execRingMulc (t : TenantId) (env : RingEnv) (s : State) : Host.Outcome State Fault Refusal := .next (s.ringOp t.val 0x05 env)
/-- MUL (R338). -/
def execRingMul (t : TenantId) (env : RingEnv) (s : State) : Host.Outcome State Fault Refusal := .next (s.ringOp t.val 0x06 env)
/-- RESCALE (R338). -/
def execRingRescale (t : TenantId) (env : RingEnv) (s : State) : Host.Outcome State Fault Refusal := .next (s.ringOp t.val 0x07 env)
/-- ROTATE (R324, R338). -/
def execRingRotate (t : TenantId) (env : RingEnv) (s : State) : Host.Outcome State Fault Refusal := .next (s.ringOp t.val 0x08 env)
/-- LEVEL_DROP (R338). -/
def execRingLevelDrop (t : TenantId) (env : RingEnv) (s : State) : Host.Outcome State Fault Refusal := .next (s.ringOp t.val 0x09 env)
/-- NTT (R315, R317). -/
def execRingNtt (t : TenantId) (env : RingEnv) (s : State) : Host.Outcome State Fault Refusal := .next (s.ringOp t.val 0x0A env)
/-- INTT (R318). -/
def execRingIntt (t : TenantId) (env : RingEnv) (s : State) : Host.Outcome State Fault Refusal := .next (s.ringOp t.val 0x0B env)
/-- TO_MONT (R313, R338). -/
def execRingToMont (t : TenantId) (env : RingEnv) (s : State) : Host.Outcome State Fault Refusal := .next (s.ringOp t.val 0x0C env)
/-- COPY (R338). -/
def execRingCopy (t : TenantId) (env : RingEnv) (s : State) : Host.Outcome State Fault Refusal := .next (s.ringOp t.val 0x0D env)

/-! ### REFRESH (R355, R356) -/

/-- The checks of R355. -/
def State.refreshChecks (s : State) (t : Nat) (e : RingEntry) : List (Bool × Status) :=
  let a := s.desc e.a
  let d := s.desc e.dst
  let p := s.plan e.arg
  [(!s.ownsDesc t e.dst || !s.ownsDesc t e.a || d.type != 0 || !s.ownsPlan t e.arg || p.detached, .bounds),
   (p.check || a.type != 0 || a.plain || a.psid != p.psid || a.scale != p.inScale || a.keyset != p.keyset || d.psid != a.psid ||
     !e.unusedOk false false true false, .ctParams),
   (decide (p.inNoiseMax < a.noise), .ctNoiseExhausted), (decide (d.cap < p.outLevel + 1), .bounds),
   (p.keysNamed.any (fun k => (s.evk k).fingerprint != a.fingerprint), .evkMismatch)]

/-- A REFRESH writes its plan's output (R356). -/
def State.refreshResult (s : State) (t : Nat) (e : RingEntry) : State :=
  let a := s.desc e.a
  let ps := s.params a.psid
  let p := s.plan e.arg
  let x := (s.readPoly t { a with level := 0 }).limbs (fun i l => if a.eval then l else nttLimb ps i l)
  let o := s.planData t p [(0xFE00, { s.planInput p with noise := a.noise }, x)] p.entries
  let y := o.2.limbs (fun i l => if p.outEval then l else nttLimb ps i l)
  let d := (s.desc e.dst).holds { a with level := p.outLevel, noise := p.outNoise, scale := p.outScale, eval := true, plain := false }
  (s.writePoly t d y).setDesc e.dst d

/-- REFRESH (R355, R356). -/
def execRingRefresh (t : TenantId) (env : RingEnv) (s : State) : Host.Outcome State Fault Refusal :=
  .next <| s.runEntry t.val 0x40 env (s.refreshChecks t.val) (fun e => [s.desc e.dst, s.desc e.a]) (fun e => (s.desc e.a).psid)
    (fun e => (s.plan e.arg).chunks) (fun e => ((s.plan e.arg).scratch, (s.plan e.arg).scratchLen)) (fun s e => s.refreshResult t.val e)

/-! ### Scheme switching (R357 to R362) -/

/-- The checks of EXTRACT (R359). -/
def State.extractChecks (s : State) (t : Nat) (e : RingEntry) : List (Bool × Status) :=
  let a := s.desc e.a
  let d := s.desc e.dst
  let p := s.params a.psid
  [(!s.ownsDesc t e.dst || !s.ownsDesc t e.a, .bounds),
   (!e.unusedOk false false true true || p.detached || a.type != 0 || a.level != 0 || a.eval || d.type != 2 || d.psid != a.psid ||
     d.dim != p.n || decide (2 ^ 17 ≤ e.arg) || e.imm == 0 || decide (255 < e.imm) || decide (p.n < e.arg + e.imm), .ctParams),
   (decide (d.cap < e.imm), .bounds)]

/-- EXTRACT: positions `f` to `f + m - 1` become LWE ciphertexts (R360). -/
def execRingExtract (t : TenantId) (env : RingEnv) (s : State) : Host.Outcome State Fault Refusal :=
  .next <| s.runEntry t.val 0x41 env (s.extractChecks t.val) (fun e => [s.desc e.dst, s.desc e.a]) (fun e => (s.desc e.a).psid)
    (fun _ => 0) (fun e => s.setScratch (s.desc e.a).psid) fun s e =>
      let a := s.desc e.a
      let x := s.readPoly t.val a
      let d := (s.desc e.dst).holds { a with plain := true }
      (s.writeLwe t.val d ((List.range e.imm).map (fun k => extractAt (s.params a.psid) a.plain x (e.arg + k)))).setDesc e.dst d

/-- The checks of LWE_SWITCH (R359). -/
def State.lweChecks (s : State) (t : Nat) (e : RingEntry) : List (Bool × Status) :=
  let a := s.desc e.a
  let d := s.desc e.dst
  let k := s.evk e.evk
  [(!s.ownsDesc t e.dst || !s.ownsDesc t e.a || !s.ownsEvk t e.evk, .bounds),
   (!e.unusedOk false true false false || (s.params a.psid).detached || a.type != 2 || a.dim != (s.params a.psid).n || k.kind != 2 ||
     k.psid != a.psid || d.type != 2 || d.psid != k.targetPsid || d.dim != k.lweDim, .ctParams),
   (decide (d.cap < a.cap), .bounds), (k.fingerprint != a.fingerprint, .evkMismatch)]

/-- LWE_SWITCH: the LWE ciphertexts come to the switch set's dimension (R359, R361). -/
def execRingLweSwitch (t : TenantId) (env : RingEnv) (s : State) : Host.Outcome State Fault Refusal :=
  .next <| s.runEntry t.val 0x42 env (s.lweChecks t.val) (fun e => [s.desc e.dst, s.desc e.a]) (fun e => (s.desc e.a).psid)
    (fun e => (s.evk e.evk).chunks) (fun e => s.setScratch (s.desc e.a).psid) fun s e =>
      let a := s.desc e.a
      let k := s.evk e.evk
      let q := (s.params k.targetPsid).q 0
      let args := (s.readLwe t.val a).flatten ++ s.evkData t.val k
      let d := (s.desc e.dst).holds { a with
        noise := satNoise (max a.noise k.noiseAdd + 0x100), keyset := k.keyset, plain := true
        fingerprint := (s.params k.targetPsid).fingerprint k.keyset }
      (s.writeLwe t.val d ((List.range a.cap).map (fun i => (List.range (k.lweDim + 1)).map (fun j =>
        Config.ringData "LWE_SWITCH" args (i * 2 ^ 12 + j) % q)))).setDesc e.dst d

/-- The checks of BLIND_ROTATE (R359). -/
def State.blindChecks (s : State) (t : Nat) (e : RingEntry) : List (Bool × Status) :=
  let a := s.desc e.a
  let b := s.desc e.b
  let k := s.evk e.evk
  let p := s.params a.psid
  let ds := s.blindDests e
  [(ds.any (fun d => !s.ownsDesc t d || (s.desc d).type != 0) || !s.ownsDesc t e.a || !s.ownsDesc t e.b || !s.ownsEvk t e.evk, .bounds),
   (!e.unusedOk true true false false || p.detached || !p.isSwitch || a.type != 2 || a.dim != k.lweDim || b.type != 1 ||
     b.psid != a.psid || b.eval || b.plain || k.kind != 3 || k.targetPsid != a.psid || ds.any (fun d => (s.desc d).psid != a.psid), .ctParams),
   (decide ((256 * (log2Floor (p.q 0) - p.logN - 3) : Nat) < a.noise), .ctNoiseExhausted),
   (ds.any (fun d => (s.desc d).cap == 0), .bounds), (k.fingerprint != a.fingerprint, .evkMismatch)]

/-- BLIND_ROTATE: output `k` encrypts the coefficient of the test polynomial that the phase of input `k` selects (R360). -/
def execRingBlindRotate (t : TenantId) (env : RingEnv) (s : State) : Host.Outcome State Fault Refusal :=
  .next <| s.runEntry t.val 0x43 env (s.blindChecks t.val) (fun e => (s.blindDests e).map s.desc ++ [s.desc e.a, s.desc e.b])
    (fun e => (s.desc e.a).psid)
    (fun e => ceilDiv (s.desc e.a).cap (s.groupCells (s.params (s.desc e.a).psid).group).length * (s.evk e.evk).chunks)
    (fun e => s.setScratch (s.desc e.a).psid) fun s e =>
      let a := s.desc e.a
      let b := s.desc e.b
      let p := s.params a.psid
      let k := s.evk e.evk
      let inputs := s.readLwe t.val a
      let args := (s.readPoly t.val b).flat ++ s.evkData t.val k
      s.each (s.blindDests e).zipIdx (fun s x =>
        let d := (s.desc x.1).holds { a with
          level := 0, noise := k.noiseAdd, scale := b.scale, eval := false, plain := false, keyset := k.keyset
          fingerprint := k.fingerprint }
        (s.writePoly t.val d (freePoly "BLIND_ROTATE" p 2 1 (inputs.getD x.2 [] ++ args))).setDesc x.1 d)

/-! ### SIGN_EXIT (R364) -/

/-- The checks of SIGN_EXIT (R339, R364). -/
def State.signChecks (s : State) (t : Nat) (e : RingEntry) : List (Bool × Status) :=
  let a := s.desc e.a
  let d := s.desc e.dst
  let p := s.params a.psid
  let x := s.exitBind t e.arg
  [(!s.ownsDesc t e.dst || !s.ownsDesc t e.a || d.type != 0 || decide (3 < e.arg) || !x.valid, .bounds),
   (!e.unusedOk false false true false || p.detached || a.type != 0 || a.plain || d.psid != a.psid, .ctParams),
   (decide (p.thresh.getD x.replyLevel 0 < p.fresh), .ctNoiseExhausted), (decide (d.cap < x.replyLevel + 1), .bounds)]

/-- Send a committee request through a binding and wait for its reply (R364, R366); the blinding comes from the tenant's DRBG. -/
def State.sendExit (s : State) (t i kind level fingerprint round cohort client : Nat) (check : Option (Nat × Nat)) (dst src : Nat)
    (blinded : Bool) (data : List Nat) : State :=
  let x := s.exitBind t i
  let (r, s) := if blinded then s.drbg t else (0, s)
  let (e, s) := if blinded then s.drbg t else (0, s)
  let id := s.ring.nextReq
  let n := data.length
  let r := 2 ^ (x.rBits - 1) + r % 2 ^ (x.rBits - 1)
  let payload := if blinded then (List.range n).map (Config.ringData "r·A + e" (r :: e :: x.sigma :: data)) else data
  let s := s.countKey x.macKey
  (s.updRing fun g => { g with
    nextReq := wrapAdd 64 id 1
    reqs := g.reqs ++ [{ id := id, tenant := t, bind := i, kind := kind, fingerprint := fingerprint, level := x.replyLevel,
                         sentTurn := s.turn, sends := 1, check := check, dst := dst, src := src, waitTurns := x.waitTurns,
                         sendsMax := x.sends }] }).emit
    (.exitReq id kind t level fingerprint round cohort client x.replyLevel payload)

/-- SIGN_EXIT: the request goes out and the entry waits for the committee's reply, its operands' pages locked (R341, R364). -/
def execRingSignExit (t : TenantId) (env : RingEnv) (s : State) : Host.Outcome State Fault Refusal :=
  .next <|
    match s.ringHead t.val 0x44 with
    | none => s
    | some m =>
      let e := m.head
      let a := s.desc e.a
      let d := s.desc e.dst
      let p := s.params a.psid
      match firstFail (s.signChecks t.val e), s.keyUse (s.exitBind t.val e.arg).macKey t.val 13 with
      | some st, _ => s.endEntry t.val st 0 0
      | none, some st => s.endEntry t.val st 0 0
      | none, none =>
        if !s.ringIssue t.val p.group || !s.ringMapped t.val [d, a] then s
        else
          match s.ringStop t.val [d, a] false env with
          | some st => ((if st = .memUe then s.ringUe t.val a else s).endEntry t.val st (Nat.lor flagVaried (ringFlags env)) 0)
          | none =>
            let s1 := s.sendExit t.val e.arg 0 a.level a.fingerprint 0 0 0 none e.dst e.a true (s.readPoly t.val a).flat
            let s1 := (s1.lockDesc t.val d true).lockDesc t.val a true
            let s1 := s1.ringLeaves t.val p p.scratch p.scratchLen
            s1.setMacros t.val ({ m with waiting := true, flags := Nat.lor m.flags (Nat.lor flagVaried (ringFlags env)) } ::
              (s1.macros t.val).drop 1)

end Sys2Proof.Machine
end

