-- ==== Sys2Proof/Machine/RegValues.lean ====
section
/-! DEFINITION. Machine/RegValues.lean: what each register reads (R18, R20 and the register tables of every chapter). -/

namespace Sys2Proof.Machine

/-! ### HIF, SPN and JIG (R95, R122, R542) -/

/-- HIF_STATUS. -/
def State.hifStatusValue (s : State) : Nat :=
  let h := s.hif
  packFields [(0, 1, b2n h.linkUp), (1, 5, h.width), (6, 1, b2n h.fast), (7, 1, b2n h.ideIo), (8, 1, b2n h.ideCm), (9, 1, b2n h.spdm),
    (10, 1, b2n (s.dbg.fw.state == .loadWait)), (11, 1, b2n s.dbg.host.lost)]

/-- HIF_Q_CFG. -/
def QPair.cfgValue (q : QPair) : Nat :=
  packFields [(0, 4, q.sqLog), (4, 4, q.cqLog), (8, 6, q.vector), (14, 1, b2n q.ien), (15, 1, b2n q.enable)]

/-- HIF_Q_STATUS. -/
def QPair.statusValue (q : QPair) : Nat :=
  packFields [(0, 12, q.sqHead), (12, 12, q.cqTail), (24, 1, b2n q.phase), (25, 1, b2n q.draining), (32, 16, q.inflight)]

/-- The code of a role (SPN_STATUS.ROLE). -/
def roleCode : SpinRole → Nat
  | .master => 0 | .follower => 1 | .unassigned => 2
/-- The code of a source (SPN_STATUS.SOURCE). -/
def SpinSource.code : SpinSource → Nat
  | .ball => 0 | .primary => 1 | .secondary => 2 | .holdover => 3

/-- SPN_STATUS. -/
def State.spnStatusValue (s : State) : Nat :=
  let x := s.spn
  packFields [(0, 2, roleCode x.role), (2, 2, x.source.code), (4, 1, b2n x.locked), (5, 1, b2n x.epochSet), (6, 1, b2n x.epochErr),
    (7, 1, b2n (x.align == .failed)), (8, 8, x.ratio), (16, 8, x.holdoverTurns)]

/-- SPN_CONFIG: the committed jig's fields. -/
def State.spnConfigValue (s : State) : Nat :=
  let j := s.jig.cfg.spindle
  let u := s.upstream
  let src := if s.spn.role != .master then 2 else match j.epoch with | .sync => 0 | .ptp => 1 | .other => 2
  packFields [(0, 5, s.spn.k), (5, 2, src), (8, 4, u.1.getD 0), (12, 1, b2n u.1.isSome), (16, 4, u.2.getD 0), (20, 1, b2n u.2.isSome),
    (24, 4, j.ptpPort), (28, 8, j.ptpDomain)]

/-- SPN_LINK_DELAY of port `p`. -/
def State.linkDelayValue (s : State) (p : Nat) : Nat :=
  let d := Tab.look none s.spn.linkDelay p
  packFields [(0, 32, d.getD 0), (32, 1, b2n (d.isSome && (s.port p).role == 1))]

/-- A budget register. -/
def Budget.value (b : Budget) : Nat := packFields [(0, 40, b.remaining), (40, 1, b2n b.exhaustedLast)]

/-- JIG_STATUS. -/
def State.jigStatusValue (s : State) : Nat :=
  let j := s.jig
  packFields [(0, 1, b2n j.loaded), (1, 1, b2n j.unsigned), (2, 1, b2n j.commit.isSome),
    (3, 1, b2n (j.shadow != j.cfg || j.activeShadow != j.active)), (4, 2, j.active), (8, 8, j.lastStatus.code)]

/-- JIG_PENDING. -/
def State.jigPendingValue (s : State) : Nat :=
  match s.jig.commit with
  | some k => packFields [(0, 48, k.turn), (48, 1, b2n k.assembly)]
  | none => 0

/-- JIG_ROUTE_SET, with ACTIVE as given. -/
def State.routeSetValue (s : State) (active : Nat) : Nat :=
  packFields [(0, 2, active), (4, 4, ((List.range 4).map (fun i => b2n (s.jig.cfg.routeSets.any (fun p => p.1 == i)) * 2 ^ i)).sum)]

/-- Word `i` of a digest, byte 8 i in bits 7:0. -/
def digestWord (d : Digest) (i : Nat) : Nat := bits d (64 * i) 64

/-! ### CEL (R153, R192, R229) -/

/-- CEL_STATUS of cell `c`. -/
def State.celStatusValue (s : State) (c : Nat) : Nat :=
  let x := s.cell c
  let g := s.cellGroup c
  let token := match x.waiting with | .token _ _ => true | _ => false
  let slot := x.waiting == .none && !x.halting && !s.mayIssue (s.cellTenant c) .cellGroup g
  packFields [(0, 4, s.cellTenant c), (4, 6, if g = 0xFF then 0 else g), (10, 1, b2n (g != 0xFF)), (11, 1, b2n x.running),
    (12, 1, b2n (x.running && (token || slot))), (13, 1, b2n x.clearing), (14, 1, b2n x.haltedErr),
    (16, 8, x.lastStatus.code), (24, 6, x.openGroups.length), (32, 3, c % 8), (35, 3, c / 8)]

/-- CEL_ERR_ADDR. -/
def Cell.errAddrValue (x : Cell) : Nat :=
  match x.errAddr with
  | some (a, p) => packFields [(3, 19, a / 8), (22, 1, 1), (24, 3, p)]
  | none => 0

/-- CEL_MODULUS. -/
def Modulus.value (m : Modulus) : Nat := packFields [(0, 31, m.q), (32, 1, b2n m.valid), (33, 1, b2n m.busy)]

/-- A cell has a link in direction `d`: 0 N, 1 E, 2 S, 3 W (R149). -/
def linkPresent (c d : Nat) : Bool :=
  match d with
  | 0 => decide (0 < c / 8) | 1 => decide (c % 8 < 7) | 2 => decide (c / 8 < 7) | _ => decide (0 < c % 8)

/-- CEL_GROUP. -/
def AccGroup.value (g : AccGroup) : Nat :=
  packFields [(0, 1, b2n g.isOpen), (1, 1, b2n g.sealed), (2, 1, b2n g.topk), (3, 1, b2n g.ingest), (4, 2, g.format), (6, 5, g.shape),
    (11, 5, g.tiles - 1), (16, 10, ofSigned 10 g.e), (26, 2, g.repeats), (28, 1, b2n g.saturated), (29, 1, b2n g.windowOpen),
    (30, 8, g.inplace), (38, 26, min (2 ^ 26 - 1) g.count)]

/-- CEL_ACC_MAP. -/
def Cell.accMapValue (x : Cell) : Nat :=
  packFields [(0, 32, (x.claimed.dedup.map (fun h => 2 ^ h)).sum), (32, 6, x.tilesOpen)]

/-- CEL_SEAL_MAP element `m`. -/
def Cell.sealMapValue (x : Cell) (m : Nat) : Nat :=
  ((List.range 64).map (fun b => b2n (Tab.look 0 x.seals (64 * m + b) != 0) * 2 ^ b)).sum

/-- CEL_PROG of cell `c`. -/
def State.celProgValue (s : State) (c : Nat) : Nat :=
  let x := s.cell c
  let n := (s.groupCells (s.cellGroup c)).length
  packFields [(0, 12, x.pc), (12, 6, if n = 0 then 0 else s.rank c), (18, 6, n - 1), (24, 3, x.loops.length), (27, 1, b2n x.loaded),
    (28, 1, match x.waiting with | .token _ _ => 1 | _ => 0), (29, 6, x.lastToken), (35, 14, min 16383 x.waitTurns)]

/-- CEL_FAULT. -/
def CellFault.value (f : CellFault) : Nat :=
  packFields [(0, 8, f.status.code), (8, 12, f.index), (20, 1, b2n f.origin), (21, 3, f.unit), (24, 8, f.detail), (32, 12, f.loadInstr)]

/-- The registers of cell `c`'s window. -/
def State.celValue (s : State) (r : Reg) (i c : Nat) : Nat :=
  let x := s.cell c
  match r with
  | .celStatus => s.celStatusValue c
  | .celWork => x.work
  | .celErr => packFields [(0, 16, Tab.look 0 x.err 0), (16, 16, Tab.look 0 x.err 1), (32, 8, Tab.look 0 x.err 2),
      (40, 8, Tab.look 0 x.err 3), (48, 8, Tab.look 0 x.err 4), (56, 8, Tab.look 0 x.err 5)]
  | .celArith => packFields ((List.range 4).map (fun j => (16 * j, 16, Tab.look 0 x.arith j)))
  | .celErrAddr => x.errAddrValue
  | .celModulus => (Tab.look ({} : Modulus) x.modulus i).value
  | .celModulusQinv => (Tab.look ({} : Modulus) x.modulus i).qinv
  | .celModulusRsq => (Tab.look ({} : Modulus) x.modulus i).rsq
  | .celLink => packFields [(0, 48, Tab.look 0 x.linkBytes i), (48, 8, Tab.look 0 x.linkRoute i), (56, 1, b2n (linkPresent c i))]
  | .celGroup => (Tab.look ({} : AccGroup) x.groups i).value
  | .celAccMap => x.accMapValue
  | .celSealMap => x.sealMapValue i
  | .celProg => s.celProgValue c
  | .celFault => x.fault.value
  | .celToken => packFields [(0, 16, Tab.look 0 x.tokens i), (16, 1, b2n (decide (48 ≤ i)))]
  | _ => 0

/-! ### AGG (R271, R306) -/

/-- Bytes in a mirror queue (R259). -/
def Round.queuedBytes (r : Round) : Nat := (r.mirrorQueue.map (fun x => x.bytes)).sum

/-- AGG_UNMASK. -/
def Round.unmaskValue (r : Round) : Nat :=
  packFields [(0, 1, b2n r.unmaskArmed), (1, 1, b2n (r.kept.all (fun c => (r.cohort c).settled))), (2, 1, b2n r.gateDone),
    (3, 1, b2n (r.replicaOk || r.unverified)), (4, 1, b2n r.unverified), (5, 1, b2n r.heldWrite), (8, 13, r.kept.length),
    (21, 13, r.sizes.length - r.kept.length), (34, 25, r.survivors)]

/-- Settled cohorts of this home engine that are not yet rebuilt: AGG_RECON.PENDING. -/
def State.reconPending (s : State) (r : Round) : Nat :=
  ((List.range r.sizes.length).filter (fun c =>
    s.isHome r c && (r.cohort c).settled && !(r.cohort c).rebuilt && !(r.cohort c).discarded)).length

/-- The round-indexed registers of handle `h`. -/
def State.aggRoundValue (s : State) (reg : Reg) (h : Nat) : Nat :=
  let r := s.round h
  match reg with
  | .aggRound => packFields [(0, 4, r.state.code), (4, 3, r.tenant), (7, 1, b2n r.repair), (8, 2, r.format), (16, 48, r.number)]
  | .aggCollect => r.pCollect
  | .aggDeadline => r.pDeadline
  | .aggShareEnd => r.pShareEnd
  | .aggAccept => packFields [(0, 40, r.chunksAccepted), (40, 24, r.keyexAccepted)]
  | .aggRefuse => packFields ((List.range 4).map (fun j => (16 * j, 16, Tab.look 0 r.refused j)))
  | .aggPool => packFields [(0, 24, r.bins.length), (24, 24, r.batchCount), (48, 16, r.pressure)]
  | .aggMirror => packFields [(0, 40, r.queuedBytes), (40, 1, b2n r.drained)]
  | .aggUnmask => if r.sizes.isEmpty then 0 else r.unmaskValue
  | .aggShares => packFields [(0, 32, r.sharesAccepted), (32, 16, r.sharesGuard), (48, 16, r.sharesOther)]
  | .aggRecon => packFields [(0, 32, r.reconSelf), (32, 16, r.reconPair), (48, 16, s.reconPending r)]
  | _ => 0

/-- The binding registers of element `e`. -/
def State.aggBindValue (s : State) (reg : Reg) (e : Nat) : Nat :=
  let b := s.bind e
  match reg with
  | .aggBindCtl => packFields [(0, 1, b2n b.enable), (1, 6, b.cell), (7, 6, b.token), (13, 6, b.round), (19, 5, b.engine),
      (24, 8, b.status.code), (32, 1, b2n b.busy), (33, 1, b2n b.resident)]
  | .aggBindChunks => packFields [(0, 34, b.chunkFirst), (34, 30, b.chunkCount)]
  | .aggBindCohorts => packFields [(0, 12, b.cohortFirst), (16, 13, b.cohortCount)]
  | .aggBindAddr => packFields [(0, 10, b.tile), (10, 16, b.desc), (26, 10, b.buf)]
  | .aggBindStreams => packFields [(0, 32, b.streams), (32, 32, b.delivered)]
  | _ => 0

/-! ### RING (R349, R375) -/

/-- The 64 bytes of a descriptor (R334, R357). -/
def RingDesc.bytes (d : RingDesc) : List Byte :=
  leBytes 2 d.psid ++ leBytes 1 d.type ++ leBytes 1 d.level ++ leBytes 1 (b2n d.eval + 2 * b2n d.plain) ++ leBytes 1 d.owner ++
  leBytes 2 d.noise ++ leBytes 4 d.scale ++ leBytes 4 d.keyset ++ leBytes 8 d.fingerprint ++ leBytes 8 d.base ++ leBytes 4 d.compStride ++
  leBytes 4 d.limbStride ++ leBytes 4 d.generation ++ leBytes 1 d.cap ++ leBytes 3 0 ++ leBytes 4 (if d.type = 2 then d.dim else 0) ++
  leBytes 12 0

/-- The 64 bytes of an evaluation-key descriptor (R329, R358); the table of R358 takes the place of DIGEST_KEY for the switching
kinds. -/
def Evk.bytes (k : Evk) : List Byte :=
  leBytes 2 k.psid ++ leBytes 1 k.kind ++ leBytes 1 (b2n k.conj) ++ leBytes 4 k.keyset ++ leBytes 8 k.fingerprint ++ leBytes 4 k.rot ++
  leBytes 4 k.chunks ++ leBytes 8 k.base ++ leBytes 8 k.digests ++ leBytes 2 k.digestKey ++
  (if k.kind ≤ 1 then leBytes 10 0
   else leBytes 2 k.targetPsid ++ leBytes 2 k.lweDim ++ leBytes 1 k.digits ++ leBytes 1 k.logBase ++ leBytes 2 k.noiseAdd ++ leBytes 2 0) ++
  leBytes 12 0

/-- RING_DESC_DATA word `i` of tenant `t`, for a reader (0 the host driver): 0 for a free entry and, through a VF, for another
tenant's. -/
def State.descDataValue (s : State) (fn t i : Nat) : Nat :=
  let v := Tab.look 0 s.ring.sel t
  let n := bits v 0 12
  if bitAt v 12 then
    let k := s.evk n
    if k.valid && (fn == 0 || k.owner == fn) then field k.bytes (8 * i) 8 else 0
  else
    let d := s.desc n
    if d.valid && (fn == 0 || d.owner == fn) then field d.bytes (8 * i) 8 else 0

/-- A RING_MACRO of the tenant has its head entry running. -/
def State.entryRuns (s : State) (t : Nat) : Bool := match s.macros t with | m :: _ => m.waiting || m.run.isSome | [] => false

/-- Work cycles of the stages of R317 in a cell, for one NTT of one limb without its exchanges. -/
def ParamSet.stageCycles (p : ParamSet) : Nat :=
  let nc := p.cellPositions
  let m := p.logN / 5
  3 * (nc / 64) + 2 * (nc / 32) + (if m = 3 then 2 * (nc / 64) + nc / 32 else 0) + (p.logN - 5 * m) * (nc / 64)

/-- Work cycles of the two exchanges of a transform: at least what R320 states for their phases, more where transfers wait for slots; how many
more is open here (notes/assumptions/18.md). -/
def State.exchCycles (s : State) (i : Nat) : Nat :=
  let p := s.params i
  let size := p.teamSize
  if size ≤ 1 then 0
  else
    let team := (s.teams p).getD 0 []
    let hops := fun (k : Nat) => ((List.range size).map (fun r =>
      match s.ringRoute p.owner (team.getD r 0) (team.getD (Nat.xor r k) 0) with | some x => x.2.hops | none => 0)).foldl max 0
    2 * (((List.range size).drop 1).map (fun k => ceilDiv p.cellPositions (16 * size) + 6 + 2 * hops k)).sum +
      Config.workCycles "EXCH_WC" [i, s.jig.serial]

/-- RING_STATUS. -/
def State.ringStatusValue (s : State) : Nat :=
  packFields [(0, 1, b2n ((List.range 8).any s.entryRuns)), (1, 3, s.ring.tenant), (8, 8, s.ring.lastStatus.code),
    (16, 13, 4096 - (s.ring.descs.filter (fun e => e.2.valid)).length), (32, 10, 512 - (s.ring.evks.filter (fun e => e.2.valid)).length),
    (48, 7, 64 - (s.ring.params.filter (fun e => e.2.valid)).length)]

/-- RING_TENANT of tenant `t`. -/
def State.ringTenantValue (s : State) (t : Nat) : Nat :=
  packFields [(0, 13, (s.ring.descs.filter (fun e => e.2.valid && e.2.owner == t)).length), (16, 13, Tab.look 512 s.ring.descLimit t),
    (32, 10, (s.ring.evks.filter (fun e => e.2.valid && e.2.owner == t)).length), (48, 5, (s.macros t).length),
    (56, 8, (Tab.look Status.ok s.ring.tenantStatus t).code)]

/-- RING_MACRO_POS of tenant `t`. -/
def State.macroPosValue (s : State) (t : Nat) : Nat :=
  let (e, op, ch) := Tab.look (0, 0, 0) s.ring.macroPos t
  packFields [(0, 16, e), (16, 8, op), (24, 1, b2n (s.entryRuns t)), (25, 1, b2n (Tab.look false s.ring.paused t)), (32, 32, ch)]

/-- RING_PARAMS, RING_PARAMS_DIGEST or RING_PLAN of PSID `p`; the work cycles are what the sequencer computes from the committed jig
(R310, R312, R320, R335). -/
def State.paramsValue (s : State) (reg : Reg) (p : Nat) : Nat :=
  let x := s.params p
  if !x.valid then 0
  else
    match reg with
    | .ringParams => packFields [(0, 1, 1), (1, 3, x.owner), (4, 1, b2n x.exact), (5, 5, x.logN), (10, 7, x.limbs), (17, 5, x.special),
        (22, 4, x.dnum), (26, 3, x.spread), (29, 6, x.group), (35, 1, b2n x.detached), (36, 13, s.paramsRefs p)]
    | .ringParamsDigest => Config.digest "parameter record" x.record % 2 ^ 64
    | _ => packFields [(0, 24, x.stageCycles + 80 + s.exchCycles p), (24, 24, s.exchCycles p), (48, 16, x.scratchNeed / 2 ^ 21)]

/-- RING_RPLAN or RING_RPLAN_KEYS of plan `p`. -/
def State.rplanValue (s : State) (reg : Reg) (p : Nat) : Nat :=
  let x := s.plan p
  if !x.valid then 0
  else
    match reg with
    | .ringRplan => packFields [(0, 1, 1), (1, 3, x.owner), (4, 1, b2n x.check), (5, 6, x.psid), (11, 6, x.outLevel), (17, 16, x.outNoise),
        (33, 28, Config.workCycles "RING_RPLAN" [p, x.psid, s.jig.serial]), (61, 1, b2n x.detached)]
    | _ => packFields [(0, 32, x.chunks), (32, 11, x.entries.length), (43, 5, x.temps)]

/-- RING_EXIT of tenant `t`. -/
def State.ringExitValue (s : State) (t : Nat) : Nat :=
  let n := fun i => Tab.look 0 s.ring.exitCount (8 * t + i)
  packFields [(0, 16, (s.ring.reqs.filter (fun q => q.tenant == t)).length), (16, 16, n 0), (32, 8, n 1), (40, 8, n 2), (48, 8, n 3),
    (56, 8, n 4)]

/-! ### MEM (R414) -/

/-- MEM_HBM_CAP or MEM_DDR_CAP. -/
def State.capValue (s : State) (tier : Nat) : Nat :=
  packFields [(0, 21, s.installedMib tier), (21, 21, s.reservedMib tier), (42, 21, s.availableMib tier)]

/-- MEM_ERR. -/
def State.memErrValue (s : State) : Nat :=
  let n := Tab.look 0 s.mem.err
  packFields [(0, 16, n 0), (16, 16, n 1), (32, 8, n 2), (40, 8, n 3), (48, 8, n 4)]

/-- MEM_UE_LOG. -/
def State.ueLogValue (s : State) : Nat :=
  match s.mem.ueLog with
  | some (a, tier, t, dev) => packFields [(6, 41, a), (47, 2, tier), (49, 3, t), (52, 1, b2n dev), (53, 1, 1)]
  | none => 0

/-- The body of a scrub receipt and its signatures (R413, R477). -/
def Receipt.bytes (r : Receipt) : List Byte :=
  leBytes 4 0x52435358 ++ leBytes 1 1 ++ leBytes 1 r.tenant ++ leBytes 1 (b2n r.reset) ++ leBytes 1 0 ++ leBytes 8 r.serial ++
  leBytes 8 r.pStart ++ leBytes 8 r.pEnd ++ leBytes 8 r.hbmBytes ++ leBytes 8 r.ddrBytes ++ leBytes 8 r.hostBytes ++
  leBytes 8 r.hostRefused ++ leBytes 4 r.keysDestroyed ++ leBytes 4 r.ueFrames ++ leBytes 48 r.jig ++ leBytes 8 0

/-- MEM_RECEIPT_DATA. -/
def State.receiptDataValue (s : State) : Nat :=
  let w := bits s.mem.receiptSel 4 11
  match s.mem.receipts[bits s.mem.receiptSel 0 4]? with
  | none => 0
  | some r =>
    if w < 16 then field r.bytes (8 * w) 8
    else if w < 1046 then leNat ((List.range 8).map (fun i => Config.signByte (2 ^ 64 + r.serial) (8 * (w - 16) + i)))
    else 0

/-- MEM_KEY of tenant `t`'s tier `i`. -/
def TierKey.value (k : TierKey) : Nat :=
  packFields [(0, 2, k.epoch), (2, 1, b2n k.prevValid), (3, 1, b2n k.sweeping), (8, 32, k.oldPages), (40, 16, k.rotations), (56, 8, k.retries)]

/-- MEM_MAP_CTL. -/
def MapRegs.ctlValue (m : MapRegs) : Nat :=
  packFields [(0, 2, m.op), (2, 2, m.tier), (4, 1, b2n m.large), (5, 4, m.rights), (9, 1, b2n m.exch), (32, 21, m.count)]

/-- MEM_FAULT_VA. -/
def Parked.vaValue (p : Parked) : Nat :=
  packFields [(0, 48, p.va), (48, 1, b2n p.pending), (49, 1, b2n p.hostErr), (50, 1, b2n p.resume)]

/-- MEM_DMA of engine `d`. -/
def State.memDmaValue (s : State) (d : Nat) : Nat :=
  let e := s.engine d
  packFields [(0, 1, b2n e.active), (1, 3, e.tenant), (4, 2, e.op), (6, 1, b2n e.device), (8, 40, e.bytes),
    (48, 8, ((List.range 8).map (fun t => b2n (s.parkedAt t d).pending * 2 ^ t)).sum), (56, 8, e.lastStatus.code)]

/-- The registers of the MEM block; through a VF the frames of HBM and DDR pages read 0. -/
def State.memValue (s : State) (fn : Nat) (r : Reg) (i : Nat) : Nat :=
  match r with
  | .memHbmCap => s.capValue 1
  | .memDdrCap => s.capValue 2
  | .memExch => s.mem.exch
  | .memScrub => packFields [(0, 1, s.scrubMode), (1, 1, b2n (!s.mem.held.isEmpty)), (8, 56, s.mem.lastSerial)]
  | .memFaultLimit => s.mem.faultLimit
  | .memErr => s.memErrValue
  | .memUeLog => s.ueLogValue
  | .memRetireStatus => packFields [(0, 13, (s.mem.retired.filter (fun x => x.1 == 1)).length),
      (13, 13, (s.mem.retired.filter (fun x => x.1 == 2)).length), (32, 8, s.mem.retireStatus.code)]
  | .memReceiptSel => s.mem.receiptSel
  | .memReceiptData => s.receiptDataValue
  | .memQuota =>
    let used := Tab.look 0 s.mem.used i
    let limit := Tab.look 0 s.mem.limit i
    packFields [(0, 31, limit), (31, 31, used), (63, 1, b2n (decide (limit < used)))]
  | .memKey => (s.tierKey (i / 2) (i % 2)).value
  | .memMapVa => (s.mapRegs i).va
  | .memMapArg => (s.mapRegs i).arg
  | .memMapCtl => (s.mapRegs i).ctlValue
  | .memMapStatus => packFields [(0, 1, b2n (s.mapRegs i).busy), (8, 8, (s.mapRegs i).status.code), (16, 21, (s.mapRegs i).done)]
  | .memWalkVa => Tab.look 0 s.mem.walkVa i
  | .memWalkPte =>
    let w := Tab.look 0 s.mem.walkPte i
    if fn != 0 && w % 4 != 3 then w % 2 ^ 16 else w
  | .memFaultVa => (s.parkedAt (i / 32) (i % 32)).vaValue
  | .memFaultOffset =>
    let p := s.parkedAt (i / 32) (i % 32)
    packFields [(0, 41, p.offset), (41, 12, p.chain), (53, 1, b2n p.feed)]
  | .memDma => s.memDmaValue i
  | _ => 0

/-! ### FAB (R453) -/

/-- The registers of the FAB block. -/
def State.fabValue (s : State) (r : Reg) (i : Nat) : Nat :=
  let p := s.port i
  match r with
  | .fabPortStatus => packFields [(0, 2, p.role), (2, 2, p.state), (4, 3, p.reason), (8, 4, p.lanesOk), (12, 2, i / 4), (16, 16, p.peer),
      (32, 32, p.keySeq)]
  | .fabPortCtl => packFields [(1, 1, b2n p.readmit)]
  | .fabPortErr => packFields [(0, 32, p.fecCorr), (32, 16, p.fecUncorr), (48, 8, p.replays), (56, 8, p.tagFail)]
  | .fabPortTx => p.tx
  | .fabPortRx => p.rx
  | .fabEthDrop => packFields ((List.range 4).map (fun j => (16 * j, 16, Tab.look 0 p.drops j)))
  | .fabLaser =>
    let l := Tab.look ({} : Laser) s.fab.lasers i
    packFields [(0, 1, b2n l.present), (1, 1, b2n l.fault), (8, 8, l.faults)]
  | .fabFlows => packFields [(0, 15, s.fab.flows.length), (16, 16, s.fab.evicted), (32, 16, s.fab.unreachable), (48, 16, s.fab.parkedPeer)]
  | .fabOpmap => packFields [(0, 21, ceilDiv s.opmapUsed 1024), (21, 21, (opmapPool - s.opmapUsed) / 1024)]
  | .fabTenant =>
    let t := s.fabTenant i
    packFields [(0, 17, (s.fab.regions.filter (fun x => x.2.tenant == i)).length),
      (17, 14, (s.fab.eps.filter (fun x => x.2.state != 0 && x.2.tenant == i)).length), (31, 5, t.fenceRound), (40, 16, t.gone),
      (56, 8, t.nakParked)]
  | .fabEpCtx =>
    let x := s.ep i
    packFields [(0, 2, x.state), (2, 3, x.tenant), (8, 7, x.reasm.length), (16, 13, x.sends.length + x.pushes.length), (32, 13, x.cqTail)]
  | _ => 0

/-! ### SEC, PWR and DBG (R496, R520, R521) -/

/-- The highest corrected temperature of the die sensors, in 1/16 °C. -/
def State.hottestSensor (s : State) : Int :=
  ((List.range 16).map (fun i => Tab.look (0 : Int) s.pwr.temp i)).foldl max (Tab.look (0 : Int) s.pwr.temp 0)

/-- Calipers is open: in BLANK, PROVISIONED and OPEN, unless CLOSE was written (R518). -/
def State.calipersOpen (s : State) : Bool :=
  (match s.sec.lifecycle with | .blank => true | .provisioned => true | .open_ => true | _ => false) && !s.dbg.calClosed

/-- The selected calibration entry. -/
def State.calDelta (s : State) : Nat := Tab.look 0 s.sec.calLoaded s.sec.calSel

/-- The registers of the SEC block; SEC_KEY_INFO reads 0 through a VF where the entry belongs to another owner. -/
def State.secValue (s : State) (fn : Nat) (r : Reg) (i : Nat) : Nat :=
  let x := s.sec
  match r with
  | .secLifecycle => packFields [(0, 3, x.lifecycle.code), (8, 8, x.stepping), (16, 2, x.openMethod), (18, 4, x.pwFails),
      (22, 1, b2n x.pwLocked), (23, 1, b2n x.identityReady)]
  | .secIdentity => digestWord x.fingerprint i
  | .secOwner => digestWord x.ownerKeys i
  | .secApproved => packFields [(0, 1, b2n s.approved), (1, 1, b2n x.enforce), (8, 7, s.approvedFailing)]
  | .secTamper => packFields [(0, 1, b2n x.lifecycle.live), (1, 6, x.tamperCause), (8, 12, x.vbatMv), (20, 1, b2n x.meshOk),
      (21, 1, b2n x.dark), (24, 8, ofSigned 8 (s.hottestSensor / 16))]
  | .secTrng => packFields [(0, 1, b2n x.healthFail), (8, 8, x.rctFails), (16, 8, x.aptFails), (32, 32, x.reseeds)]
  | .secChallengeCtl => packFields [(1, 1, b2n x.chalValid)]
  | .secChallenge => bits x.challenge (64 * i) 64
  | .secKeyStatus => packFields [(0, 10, s.freeTenantKeys.length), (16, 7, (s.freeKeys 960 1024).length),
      (32, 10, (x.keys.filter (fun e => e.2.type != 0 && e.2.imported)).length)]
  | .secKeyQuota => packFields [(0, 10, s.keyLimit i), (16, 10, s.keysHeld i)]
  | .secKeySel => Tab.look 0 x.keySel i
  | .secKeyInfo =>
    let k := s.key (Tab.look 0 x.keySel i)
    if k.type = 0 || (fn != 0 && k.owner != fn) then 0
    else packFields [(0, 4, k.type), (4, 4, k.owner), (8, 1, b2n k.imported), (9, 1, b2n k.expire), (16, 16, k.uses), (32, 32, k.count)]
  | .secTenant =>
    let t := s.tenant i
    packFields [(0, 3, t.state.code), (3, 1, b2n (Tab.look false s.hif.bme i)), (4, 2, t.suspendCause), (8, 8, t.phase),
      (16, 16, t.creations)]
  | .secCalSel => x.calSel
  | .secCalUser => packFields [(0, 32, s.calDelta), (32, 1, b2n (calClamp x.calSel s.calDelta != toSigned 32 s.calDelta))]
  | .secCalValue => packFields [(0, 32, ofSigned 32 (Config.factoryCal x.calSel)),
      (32, 32, ofSigned 32 (Config.factoryCal x.calSel + Tab.look (0 : Int) x.calEffect x.calSel))]
  | _ => 0

/-- The registers of the PWR block. -/
def State.pwrValue (s : State) (r : Reg) (i : Nat) : Nat :=
  let w := s.pwr
  match r with
  | .pwrStatus => packFields [(0, 5, w.rung), (5, 5, w.floor), (10, 1, b2n w.fallback), (11, 1, b2n w.hot), (12, 1, b2n w.settling),
      (13, 3, w.calm)]
  | .pwrLimit => packFields [(0, 11, w.hostW), (16, 11, w.sidebandW), (32, 11, w.effectiveW)]
  | .pwrPackage => packFields [(0, 16, w.lastDw), (16, 16, w.peakDw), (32, 32, w.loops)]
  | .pwrTrip => packFields [(0, 16, w.tripCurrent), (16, 16, w.tripAlert), (32, 16, w.tripHot), (48, 2, w.lastCause)]
  | .pwrTemp => packFields [(0, 16, ofSigned 16 (Tab.look (0 : Int) w.temp i)), (16, 16, ofSigned 16 (Tab.look (0 : Int) w.tempMax i))]
  | .pwrRail =>
    let x := Tab.look ({} : Rail) w.rails i
    packFields [(0, 16, x.mv), (16, 16, x.current), (32, 1, b2n x.valid), (40, 8, x.alerts)]
  | .pwrGrant =>
    let g := Tab.look ({} : Grant) w.grants i
    packFields [(0, 4, g.duty), (8, 8, dutyPattern g.duty), (16, 3, Tab.look 0 w.bands i), (24, 16, g.withheld), (40, 8, g.overrides)]
  | _ => 0

/-- A Shavings entry's 32 bytes as a number (R515). -/
def Shaving.word (e : Shaving) : Nat :=
  packFields [(0, 8, e.cls), (8, 8, b2n e.underrun), (16, 8, e.status), (24, 8, e.source), (32, 32, e.seq), (64, 64, e.position),
    (128, 128, e.detail)]

/-- The registers of the DBG block. -/
def State.dbgValue (s : State) (r : Reg) (i : Nat) : Nat :=
  let d := s.dbg
  let q := s.shv i
  match r with
  | .dbgFw => packFields [(0, 2, d.fw.state.code), (2, 3, d.fw.reason), (6, 2, d.fw.stopCause), (8, 8, d.fw.attempts),
      (16, 8, d.fw.lastStatus.code), (24, 8, d.fw.svn), (32, 8, s.sec.otpSvn)]
  | .dbgFwMeasurement => digestWord d.fw.measurement i
  | .dbgHost => packFields [(0, 1, b2n d.host.lost), (1, 1, b2n d.host.limitPassed), (2, 1, b2n d.host.linkDown),
      (8, 24, min (2 ^ 24 - 1) ((s.pos - d.host.lastBeat) / 100000)), (32, 16, d.host.lostCount), (48, 16, d.host.attaches)]
  | .dbgCalipers => packFields [(0, 1, b2n s.calipersOpen), (1, 1, b2n d.calClosed), (4, 3, d.calRate), (16, 16, d.calLines),
      (32, 16, d.calErrors)]
  | .dbgShvStatus => packFields [(0, 13, q.entries.length), (13, 1, b2n q.entries.isEmpty), (14, 1, b2n q.emptyRead), (16, 16, q.lost),
      (32, 16, q.accessErr)]
  | .dbgShvConfig => packFields [(0, 32, s.shvMask i), (32, 6, q.vector), (38, 13, q.threshold)]
  | .dbgShvData => bits (((s.shv (i / 4)).latch.map (fun e => e.word)).getD 0) (64 * (i % 4)) 64
  | _ => 0

/-! ### Every register -/

/-- What a register reads for a reader (0 the host driver), JIG_SHADOW_DATA apart; a WO register reads 0. -/
def State.plainValue (s : State) (fn : Nat) (r : Reg) (i c : Nat) : Nat :=
  match r with
  | .hifStatus => s.hifStatusValue
  | .hifExch => packFields [(0, 32, s.hif.exchRefused), (32, 32, s.hif.exchUe)]
  | .hifSqBase => (Tab.look ({} : QPair) s.hif.queues i).sqBase * 2 ^ 12
  | .hifCqBase => (Tab.look ({} : QPair) s.hif.queues i).cqBase * 2 ^ 12
  | .hifQCfg => (Tab.look ({} : QPair) s.hif.queues i).cfgValue
  | .hifQStatus => (Tab.look ({} : QPair) s.hif.queues i).statusValue
  | .hifReset | .hifHeartbeat | .hifSqDoorbell | .hifCqDoorbell => 0
  | .spnPosition => s.pos
  | .spnStatus => s.spnStatusValue
  | .spnConfig => s.spnConfigValue
  | .spnEpoch => packFields [(0, 63, s.spn.epoch), (63, 1, b2n s.spn.arm)]
  | .spnTurn => packFields [(0, 48, s.turn), (48, 6, s.slotOf s.pos)]
  | .spnPtpOffset => ofSigned 64 s.spn.ptpOffset
  | .spnFreeze => packFields [(0, 32, s.spn.freezes), (32, 32, s.spn.lastFreeze)]
  | .spnBarrier => packFields [(0, 16, s.spn.barriers.length), (16, 16, s.spn.missed)]
  | .spnLinkDelay => s.linkDelayValue i
  | .spnBudgetDma => (Tab.look ({} : Budget) s.spn.budgetDma i).value
  | .spnBudgetLink => (Tab.look ({} : Budget) s.spn.budgetLink i).value
  | .jigStatus => s.jigStatusValue
  | .jigSerial => s.jig.serial
  | .jigMeasurement => digestWord s.jig.measurement i
  | .jigShadowDigest => digestWord s.jig.shadowDigest i
  | .jigPending => s.jigPendingValue
  | .jigCheck => packFields [(0, 8, s.jig.checkId), (8, 16, s.jig.checkSection), (24, 16, s.jig.checkInst), (40, 24, s.jig.checkOffset)]
  | .jigRouteSet => s.routeSetValue s.jig.active
  | .jigShadowAddr => s.jig.shadowAddr
  | .jigShadowData => 0
  | .jigLiveHost => packFields [(0, 32, s.jig.live.heartbeatMs), (32, 32, s.jig.live.hostLostS)]
  | .jigLiveEvents => s.jig.live.deviceMask
  | .jigLiveThermal => s.jig.live.tempWarnC
  | .celStatus | .celWork | .celErr | .celArith | .celErrAddr | .celModulus | .celModulusQinv | .celModulusRsq | .celLink | .celGroup
  | .celAccMap | .celSealMap | .celProg | .celFault | .celToken => s.celValue r i c
  | .aggRound | .aggCollect | .aggDeadline | .aggShareEnd | .aggAccept | .aggRefuse | .aggPool | .aggMirror | .aggUnmask | .aggShares
  | .aggRecon => if fn != 0 && ((s.round i).tenant != fn || (s.round i).state == .free) then 0 else s.aggRoundValue r i
  | .aggBindCtl | .aggBindChunks | .aggBindCohorts | .aggBindAddr | .aggBindStreams => s.aggBindValue r i
  | .aggIngest =>
    let x := Tab.look ({} : Ingest) s.agg.ingest i
    packFields [(0, 48, x.bytes), (48, 16, x.dropped)]
  | .ringStatus => s.ringStatusValue
  | .ringErr => packFields ((List.range 4).map (fun j => (16 * j, 16, Tab.look 0 s.ring.err j)))
  | .ringTenant => s.ringTenantValue i
  | .ringMacroPos => s.macroPosValue i
  | .ringParams | .ringParamsDigest | .ringPlan => if fn != 0 && (s.params i).owner != fn then 0 else s.paramsValue r i
  | .ringRplan | .ringRplanKeys => if fn != 0 && (s.plan i).owner != fn then 0 else s.rplanValue r i
  | .ringExit => s.ringExitValue i
  | .ringDescSel => Tab.look 0 s.ring.sel i
  | .ringDescData => s.descDataValue fn (i / 8) (i % 8)
  | .memHbmCap | .memDdrCap | .memExch | .memScrub | .memFaultLimit | .memErr | .memUeLog | .memRetire | .memRetireStatus
  | .memReceiptSel | .memReceiptData | .memQuota | .memKey | .memMapVa | .memMapArg | .memMapCtl | .memMapStatus | .memWalkVa
  | .memWalkPte | .memFaultVa | .memFaultOffset | .memDma => s.memValue fn r i
  | .fabPortStatus | .fabPortCtl | .fabPortErr | .fabPortTx | .fabPortRx | .fabEthDrop | .fabLaser | .fabFlows | .fabOpmap | .fabTenant
  | .fabEpCtx | .fabEpDoorbell => s.fabValue r i
  | .secLifecycle | .secIdentity | .secOwner | .secApproved | .secTamper | .secTrng | .secChallengeCtl | .secChallenge | .secKeyStatus
  | .secKeyQuota | .secKeySel | .secKeyInfo | .secTenant | .secCalSel | .secCalUser | .secCalValue => s.secValue fn r i
  | .pwrStatus | .pwrLimit | .pwrPackage | .pwrTrip | .pwrTemp | .pwrRail | .pwrGrant => s.pwrValue r i
  | .dbgFw | .dbgFwMeasurement | .dbgHost | .dbgCalipers | .dbgShvStatus | .dbgShvConfig | .dbgShvPop | .dbgShvData => s.dbgValue r i

/-- JIG_SHADOW_DATA: the register at JIG_SHADOW_ADDR, the one RW-S field with its shadow value (R20, R122). -/
def State.shadowDataValue (s : State) : Nat :=
  match decodeReg s.jig.shadowAddr with
  | some (.jigRouteSet, _, _) => s.routeSetValue s.jig.activeShadow
  | some (r, i, c) => s.plainValue 0 r i c
  | none => 0

/-- What a register reads (R18). -/
def State.regValue (s : State) (fn : Nat) (r : Reg) (i c : Nat) : Nat :=
  (if r = .jigShadowData then s.shadowDataValue else s.plainValue fn r i c) % 2 ^ 64

end Sys2Proof.Machine
end

