-- ==== Sys2Proof/Machine/Registers.lean ====
section
/-! DEFINITION. Machine/Registers.lean: reading, clearing and writing registers, and the access rules (R17 to R23). A write whose register
has a row of its own acts as that row does. -/

namespace Sys2Proof.Machine

/-! ### Fields that a read clears (R18) -/

/-- The RC fields of the AGG, RING and MEM blocks cleared. -/
def State.clearEngine (s : State) (r : Reg) (i : Nat) : State :=
  match r with
  | .aggRefuse => s.updRound i fun x => { x with refused := [] }
  | .aggPool => s.updRound i fun x => { x with pressure := 0 }
  | .aggShares => s.updRound i fun x => { x with sharesGuard := 0, sharesOther := 0 }
  | .aggIngest => { s with agg := { s.agg with
      ingest := Tab.put {} s.agg.ingest i { Tab.look ({} : Ingest) s.agg.ingest i with dropped := 0 } } }
  | .ringErr => s.updRing fun x => { x with err := [] }
  | .ringExit => s.updRing fun x => { x with exitCount := x.exitCount.keep (fun k => k / 8 != i) }
  | .memErr => { s with mem := { s.mem with err := [] } }
  | .memKey => s.setTierKey (i / 2) (i % 2) { s.tierKey (i / 2) (i % 2) with retries := 0 }
  | _ => s

/-- The RC fields of the FAB block cleared. -/
def State.clearFab (s : State) (r : Reg) (i : Nat) : State :=
  match r with
  | .fabPortErr => s.updPort i fun x => { x with fecCorr := 0, fecUncorr := 0, replays := 0, tagFail := 0 }
  | .fabEthDrop => s.updPort i fun x => { x with drops := [] }
  | .fabLaser => s.setLaser i { s.laser i with faults := 0 }
  | .fabFlows => s.updFab fun x => { x with evicted := 0, unreachable := 0, parkedPeer := 0 }
  | .fabTenant => s.setFabTenant i { s.fabTenant i with gone := 0, nakParked := 0 }
  | _ => s

/-- The RC fields of the SEC, PWR and DBG blocks cleared. -/
def State.clearSystem (s : State) (r : Reg) (i : Nat) : State :=
  match r with
  | .secTrng => s.updSec fun x => { x with rctFails := 0, aptFails := 0 }
  | .pwrPackage => s.updPwr fun w => { w with peakDw := 0 }
  | .pwrTrip => s.updPwr fun w => { w with tripCurrent := 0, tripAlert := 0, tripHot := 0 }
  | .pwrTemp => s.updPwr fun w => { w with tempMax := Tab.put (0 : Int) w.tempMax i 0 }
  | .pwrRail => s.updPwr fun w => { w with rails := Tab.put {} w.rails i { Tab.look ({} : Rail) w.rails i with alerts := 0 } }
  | .pwrGrant => s.updPwr fun w => { w with
      grants := Tab.put {} w.grants i { Tab.look ({} : Grant) w.grants i with withheld := 0, overrides := 0 } }
  | .dbgHost => s.updHost fun h => { h with lostCount := 0 }
  | .dbgCalipers => { s with dbg := { s.dbg with calLines := 0, calErrors := 0 } }
  | .dbgShvStatus => s.setShv i { s.shv i with lost := 0, accessErr := 0 }
  | _ => s

/-- A read of a register by function `fn` clears its RC fields; an element that reads 0 through a VF because it is another tenant's
keeps them (R18, R271). -/
def State.clearOnRead (s : State) (fn : Nat) (r : Reg) (i c : Nat) : State :=
  match r with
  | .hifExch => { s with hif := { s.hif with exchRefused := 0, exchUe := 0 } }
  | .spnFreeze => s.updSpn fun x => { x with freezes := 0 }
  | .spnBarrier => s.updSpn fun x => { x with missed := 0 }
  | .celErr => s.updCell c fun x => { x with err := [] }
  | .celArith => s.updCell c fun x => { x with arith := [] }
  | .aggRefuse | .aggPool | .aggShares =>
    if fn != 0 && ((s.round i).tenant != fn || (s.round i).state == .free) then s else s.clearEngine r i
  | .aggIngest | .ringErr | .ringExit | .memErr | .memKey => s.clearEngine r i
  | .fabPortErr | .fabEthDrop | .fabLaser | .fabFlows | .fabTenant => s.clearFab r i
  | _ => s.clearSystem r i

/-- A read of a register: its value leaves, then its RC fields clear (R18, R22). -/
def State.readReg (s : State) (fn o : Nat) (r : Reg) (i c : Nat) : State :=
  (s.emit (.regRead o (s.regValue fn r i c))).clearOnRead fn r i c

/-! ### Writes (R18, R19) -/

/-- The state that a row's meaning gives. -/
def afterRow (o : Host.Outcome State Fault Refusal) (s : State) : State := match o with | .next t => t | _ => s

/-- A write to a queue pair's configuration, by function `w` to pair `n` of function `f`: discarded while ENABLE reads 1 (R528, R542). -/
def State.queueConfig (s : State) (w f n base v : Nat) (g : QPair → QPair) : State :=
  if (s.queue f n).enable then s.discarded w (queueOffset base f n) v else s.setQueue f n (g (s.queue f n))

/-- A write to a HIF register. -/
def State.writeHif (s : State) (fn : Nat) (r : Reg) (i v : Nat) : State :=
  let f := i / 16
  let n := i % 16
  match r with
  | .hifReset =>
    let w := BitVec.ofNat 64 v
    if bits v 48 16 = 0xC01D then
      let s := if bitAt v 0 then afterRow (execHifResetCold w s) s else s
      if bitAt v 1 then afterRow (execHifResetWarm w s) s else s
    else afterRow (execHifResetCold w s) s
  | .hifHeartbeat => afterRow (execHeartbeat (Fin.ofNat 8 fn) s) s
  | .hifSqBase => s.queueConfig fn f n 0x1000 v fun q => { q with sqBase := v / 2 ^ 12, sqUnaligned := v % 2 ^ 12 != 0 }
  | .hifCqBase => s.queueConfig fn f n 0x1008 v fun q => { q with cqBase := v / 2 ^ 12, cqUnaligned := v % 2 ^ 12 != 0 }
  | .hifQCfg =>
    if bitAt v 15 then s.queueEnable fn f n v
    else if (s.queue f n).enable then s.queueDisable f n
    else s.setQueue f n { s.queue f n with sqLog := bits v 0 4, cqLog := bits v 4 4, vector := bits v 8 6, ien := bitAt v 14 }
  | .hifSqDoorbell => s.queueTail fn f n v
  | .hifCqDoorbell => s.queueHead fn f n v
  | _ => s

/-- A write to a register of the SPN, JIG or CEL block; JIG_ROUTE_SET.ACTIVE keeps its value while a commit is pending, which freezes the
shadow (R113, R122). -/
def State.writeCore (s : State) (fn : Nat) (r : Reg) (i c v : Nat) : State :=
  let w := BitVec.ofNat 64 v
  let f : FnId := Fin.ofNat 8 fn
  match r with
  | .spnStatus => if bitAt v 6 then s.updSpn fun x => { x with epochErr := false } else s
  | .spnEpoch => afterRow (execSpnEpochWrite f w s) s
  | .jigRouteSet => if s.jig.commit.isSome then s else s.updJig fun j => { j with activeShadow := v % 4 }
  | .jigShadowAddr => s.updJig fun j => { j with shadowAddr := bits v 3 23 * 8 }
  | .jigLiveHost => afterRow (execLiveFieldWrite 0 w s) s
  | .jigLiveEvents => afterRow (execLiveFieldWrite 1 w s) s
  | .jigLiveThermal => afterRow (execLiveFieldWrite 2 w s) s
  | .celModulus => afterRow (execCelModulusWrite f (Fin.ofNat 64 c) (Fin.ofNat 16 i) w s) s
  | .celErrAddr => if bitAt v 22 then s.updCell c fun x => { x with errAddr := none } else s
  | _ => s

/-- A write to a binding's fields: discarded with an event for the writer while ENABLE reads 1 (R271). -/
def State.writeBind (s : State) (fn : Nat) (r : Reg) (e v : Nat) : State :=
  let b := s.bind e
  let f : FnId := Fin.ofNat 8 fn
  let x : Fin 256 := Fin.ofNat 256 e
  match r with
  | .aggBindCtl =>
    if bitAt v 0 then afterRow (execAggBindEnable f x (BitVec.ofNat 64 v) s) s
    else if b.enable then afterRow (execAggBindDisable f x s) s
    else s.setBind e (b.ctl v)
  | .aggBindChunks =>
    if b.enable then s.discarded fn (bindOffset e + 8) v
    else s.setBind e { b with chunkFirst := bits v 0 34, chunkCount := bits v 34 30 }
  | .aggBindCohorts =>
    if b.enable then s.discarded fn (bindOffset e + 16) v
    else s.setBind e { b with cohortFirst := bits v 0 12, cohortCount := bits v 16 13 }
  | .aggBindAddr =>
    if b.enable then s.discarded fn (bindOffset e + 24) v
    else s.setBind e { b with tile := bits v 0 10, desc := bits v 10 16, buf := bits v 26 10 }
  | _ => s

/-- A write to MEM_MAP_CTL: its fields, and with GO the operation that OP names, which is discarded while BUSY reads 1 (R18, R384). -/
def State.writeMapCtl (s : State) (fn t v : Nat) : State :=
  let m := s.mapRegs t
  if bitAt v 63 then s.mapGo fn t v (v % 4)
  else s.setMapRegs t { m with
    op := v % 4, tier := bits v 2 2, large := bitAt v 4, rights := bits v 5 4, exch := bitAt v 9, count := bits v 32 21 }

/-- A write to MEM_FAULT_VA: RESUME or ABANDON; both together are discarded with an event (R396). -/
def State.writeFault (s : State) (fn i v : Nat) : State :=
  let f : FnId := Fin.ofNat 8 fn
  let t : TenantId := Fin.ofNat 8 (i / 32)
  let d : EngineId := Fin.ofNat 32 (i % 32)
  if bitAt v 50 && bitAt v 51 then s.discarded fn (faultOffset (i / 32) (i % 32)) v
  else if bitAt v 50 then afterRow (execResume f t d s) s
  else if bitAt v 51 then afterRow (execAbandon f t d s) s
  else s

/-- A write to a register of the RING or MEM block; a RING_TENANT.DESC_LIMIT above 4,096 keeps its value (DEDUCED from R472's rule for key
limits), and no VF writes one (R349). -/
def State.writeMem (s : State) (fn : Nat) (r : Reg) (i v : Nat) : State :=
  let w := BitVec.ofNat 64 v
  let setMem := fun (f : Mem → Mem) => { s with mem := f s.mem }
  match r with
  | .ringTenant =>
    if fn = 0 ∧ bits v 16 13 ≤ 4096 then s.updRing fun x => { x with descLimit := Tab.put 512 x.descLimit i (bits v 16 13) } else s
  | .ringDescSel => s.updRing fun x => { x with sel := Tab.put 0 x.sel i (v % 2 ^ 13) }
  | .memExch => afterRow (execMemExchWrite w s) s
  | .memFaultLimit => setMem fun m => { m with faultLimit := v % 2 ^ 32 }
  | .memUeLog => if bitAt v 53 then setMem fun m => { m with ueLog := none } else s
  | .memRetire => afterRow (execMemRetire w false s) s
  | .memReceiptSel => setMem fun m => { m with receiptSel := v % 2 ^ 15 }
  | .memMapVa => s.setMapRegs i { s.mapRegs i with va := v % 2 ^ 48 }
  | .memMapArg => s.setMapRegs i { s.mapRegs i with arg := v }
  | .memMapCtl => s.writeMapCtl fn i v
  | .memWalkVa => afterRow (execMemWalkLookup (Fin.ofNat 8 fn) (Fin.ofNat 8 i) w s) s
  | .memFaultVa => s.writeFault fn i v
  | _ => s

/-- A write to FAB_EP_DOORBELL: each field that its VALID bit names (R445, R453). -/
def State.writeDoorbell (s : State) (fn e v : Nat) : State :=
  let f : FnId := Fin.ofNat 8 fn
  let x : EpId := Fin.ofNat 8192 e
  let s := if bitAt v 48 then afterRow (execEpSqTail f x (bits v 0 12) s) s else s
  let s := if bitAt v 49 then afterRow (execEpRqTail f x (bits v 16 12) s) s else s
  if bitAt v 50 then afterRow (execEpCqHead f x (bits v 32 13) s) s else s

/-- A write to a register of the FAB, SEC or DBG block; a VF's SEC_APPROVED is read-only and SEC_KEY_QUOTA is the host driver's (R496). -/
def State.writeSystem (s : State) (fn : Nat) (r : Reg) (i v : Nat) : State :=
  let w := BitVec.ofNat 64 v
  let f : FnId := Fin.ofNat 8 fn
  match r with
  | .fabPortCtl =>
    let p : PortId := Fin.ofNat 16 i
    let s := if bitAt v 0 then afterRow (execTakeOut f p s) s else s
    if bitAt v 1 then afterRow (execReadmit f p s) s else s
  | .fabEpDoorbell => s.writeDoorbell fn i v
  | .secApproved => if fn = 0 && bitAt v 1 then afterRow (execSecApprovedEnforce s) s else s
  | .secChallengeCtl => if bitAt v 0 then afterRow (execSecChallengeNew s) s else s
  | .secKeyQuota => if fn = 0 then afterRow (execSecKeyQuotaWrite (Fin.ofNat 8 i) w s) s else s
  | .secKeySel => s.updSec fun x => { x with keySel := Tab.put 0 x.keySel i (v % 2 ^ 10) }
  | .secCalSel => s.updSec fun x => { x with calSel := v % 2 ^ 16 }
  | .dbgCalipers => if bitAt v 1 then { s with dbg := { s.dbg with calClosed := true } } else s
  | .dbgShvStatus => if bitAt v 14 then s.setShv i { s.shv i with emptyRead := false } else s
  | .dbgShvPop => afterRow (execDbgShvPop f (Fin.ofNat 9 i) (bitAt v 0) s) s
  | _ => s

/-- A write of `v` to a register by function `fn`; in TAMPERED it is discarded, and RO and RC fields take nothing (R18, R19, R483). -/
def State.writeReg (s : State) (fn : Nat) (r : Reg) (i c v : Nat) : State :=
  s.ifWritable fun s =>
    match r with
    | .hifReset | .hifHeartbeat | .hifSqBase | .hifCqBase | .hifQCfg | .hifSqDoorbell | .hifCqDoorbell => s.writeHif fn r i v
    | .spnStatus | .spnEpoch | .jigRouteSet | .jigShadowAddr | .jigLiveHost | .jigLiveEvents | .jigLiveThermal | .celModulus
    | .celErrAddr => s.writeCore fn r i c v
    | .aggBindCtl | .aggBindChunks | .aggBindCohorts | .aggBindAddr => s.writeBind fn r i v
    | .ringTenant | .ringDescSel | .memExch | .memFaultLimit | .memUeLog | .memRetire | .memReceiptSel | .memMapVa | .memMapArg
    | .memMapCtl | .memWalkVa | .memFaultVa => s.writeMem fn r i v
    | _ => s.writeSystem fn r i v

/-! ### Accesses (R17, R19, R23) -/

/-- A narrower or unaligned access: a read returns 0 and a write is discarded; it counts as an access error of the source's queue (R17). -/
def State.badAccess (s : State) (a : RegAccess) : State :=
  (if a.write then s else s.emit (.regRead a.offset 0)).windowMiss a.fn.val a.offset a.write

/-- What an access names: for the host driver a register of BAR0, for a VF one of its window (R23, R525, R527). -/
def State.accessed (s : State) (a : RegAccess) : Option (Reg × Nat × Nat) :=
  if a.fn.val = 0 then decodeReg a.offset else s.vfReg a.fn.val a.offset

/-- An access to BAR0: R17 first; a VF's outside its registers is an access error (R23), the host driver's reads 0 or is ignored (R19). -/
def State.access (s : State) (a : RegAccess) : State :=
  if a.size != 8 || a.offset % 8 != 0 then s.badAccess a
  else
    match s.accessed a with
    | some (r, i, c) =>
      if a.write then s.writeReg a.fn.val r i c (a.value % 2 ^ 64) else s.readReg a.fn.val a.offset r i c
    | none =>
      if a.fn.val != 0 then s.badAccess a
      else if a.write then s else s.emit (.regRead a.offset 0)

/-- READ_CLEAR: an aligned read (R18, R22). -/
def execReadClear (a : RegAccess) (s : State) : Host.Outcome State Fault Refusal := .next (s.access { a with write := false })

/-- REGISTER_WRITE: an aligned write (R18, R19). -/
def execRegisterWrite (a : RegAccess) (s : State) : Host.Outcome State Fault Refusal := .next (s.access { a with write := true })

/-- ACCESS_ERROR: a narrower or unaligned access (R17). -/
def execAccessError (a : RegAccess) (s : State) : Host.Outcome State Fault Refusal := .next (s.access a)

/-- VF_WINDOW_MISS: a VF's access outside the registers mapped into its window (R23). -/
def execVfWindowMiss (a : RegAccess) (s : State) : Host.Outcome State Fault Refusal := .next (s.access a)

/-- CALIPERS_CLOSE: Calipers stays closed until a COLD reset (R518). -/
def execCalipersClose (s : State) : Host.Outcome State Fault Refusal :=
  .next <| s.ifWritable fun s => { s with dbg := { s.dbg with calClosed := true } }

end Sys2Proof.Machine
end

