-- ==== Sys2Proof/Machine/Calipers.lean ====
section
/-! DEFINITION. Machine/Calipers.lean: the lines of the Calipers monitor (R518, R519) and the operations of the TAP (R484, R559). Answer
codes: 0 OK, 1 SYNTAX, 2 STATE, 3 RANGE, 4 ACCESS, 5 CLOSED. -/

namespace Sys2Proof.Machine

/-- The mask ROM serves Calipers: from the end of alignment (R518), taken as the FIFO check passed (DEDUCED, notes/assumptions/22.md). -/
def State.calServed (s : State) : Bool := match s.spn.align with | .checked _ => true | .done => true | _ => false

/-- A line received: counted, and answered ERR CLOSED with nothing else done while Calipers is closed (R518, R521). -/
def State.calLine (s : State) (f : State → State) : Host.Outcome State Fault Refusal :=
  .next <|
    if s.calServed then
      let s := { s with dbg := { s.dbg with calLines := satAdd 16 s.dbg.calLines 1 } }
      if s.calipersOpen then f s else s.emit (.uart 5 [])
    else s

/-- HELP: the command names, in ASCII (R519). -/
def execCalHelp (s : State) : Host.Outcome State Fault Refusal :=
  s.calLine fun s => s.emit (.uart 0 ("HELP ID RD WR SPN PWR FW SHV BAUD".toList.map Char.toNat))

/-- ID: part, stepping code, life-cycle code, identity fingerprint (R519). -/
def execCalId (s : State) : Host.Outcome State Fault Refusal :=
  s.calLine fun s => s.emit (.uart 0 [0x7264, s.sec.stepping, s.sec.lifecycle.code, s.sec.fingerprint])

/-- RD offset: the value at a BAR0 offset with host-driver rights, its RC fields then cleared (R18, R519); an offset that is not a
multiple of 8 or lies outside BAR0 gives ERR ACCESS and counts no access error. -/
def execCalRd (offset : Nat) (s : State) : Host.Outcome State Fault Refusal :=
  s.calLine fun s =>
    if offset % 8 != 0 || decide (2 ^ 26 ≤ offset) then s.emit (.uart 4 [])
    else
      match decodeReg offset with
      | some (r, i, c) => (s.emit (.uart 0 [s.regValue 0 r i c])).clearOnRead 0 r i c
      | none => s.emit (.uart 0 [0])

/-- WR offset value: a write with host-driver rights, in BLANK and OPEN; in PROVISIONED it gives ERR STATE (R519). -/
def execCalWr (offset : Nat) (value : Word64) (s : State) : Host.Outcome State Fault Refusal :=
  s.calLine fun s =>
    if s.sec.lifecycle == .provisioned then s.emit (.uart 2 [])
    else if offset % 8 != 0 || decide (2 ^ 26 ≤ offset) then s.emit (.uart 4 [])
    else
      let s := match decodeReg offset with
        | some (r, i, c) => s.writeReg 0 r i c value.toNat
        | none => s
      s.emit (.uart 0 [])

/-- SPN: position, turn, slot, ratio (R519). -/
def execCalSpn (s : State) : Host.Outcome State Fault Refusal :=
  s.calLine fun s => s.emit (.uart 0 [s.pos, s.turn, s.slotOf s.pos, s.spn.ratio])

/-- PWR: the last frame's mean watts, the rung in force, the thermal floor, the highest temperature (R519); the mean is given in whole
watts and the temperature in 1/16 °C two's complement (DEDUCED, notes/assumptions/22.md). -/
def execCalPwr (s : State) : Host.Outcome State Fault Refusal :=
  s.calLine fun s => s.emit (.uart 0 [s.pwr.lastDw / 10, s.pwr.rung, s.pwr.floor, ofSigned 16 s.hottestSensor])

/-- FW: DBG_FW.STATE, REASON, SVN, the OTP counter and the measurement (R519). -/
def execCalFw (s : State) : Host.Outcome State Fault Refusal :=
  s.calLine fun s =>
    s.emit (.uart 0 [s.dbg.fw.state.code, s.dbg.fw.reason, s.dbg.fw.svn, s.sec.otpSvn, s.dbg.fw.measurement])

/-- SHV q n: up to n entries of queue q, newest first; nothing is popped (R519). A queue above 8 and an n outside 1 to 16 give
ERR RANGE. -/
def execCalShv (q n : Nat) (s : State) : Host.Outcome State Fault Refusal :=
  s.calLine fun s =>
    if 8 < q ∨ n < 1 ∨ 16 < n then s.emit (.uart 3 [])
    else s.emit (.uart 0 (((s.shv q).entries.reverse.take n).map Shaving.word))

/-- The rates of R518 in the order of DBG_CALIPERS.RATE. -/
def calRates : List Nat := [115200, 230400, 460800, 921600, 1000000, 2000000, 3000000]

/-- BAUD rate: the new rate applies after the OK line has been sent; another rate gives ERR RANGE (R518, R519). -/
def execCalBaud (rate : Nat) (s : State) : Host.Outcome State Fault Refusal :=
  s.calLine fun s =>
    match calRates.idxOf? rate with
    | some i => let s := s.emit (.uart 0 []); { s with dbg := { s.dbg with calRate := i } }
    | none => s.emit (.uart 3 [])

/-- CALIPERS_BREAK: a break of 10 ms or longer on the receive line restores 115,200 baud (R518). -/
def execCalipersBreak (s : State) : Host.Outcome State Fault Refusal :=
  .next { s with dbg := { s.dbg with calRate := 0 } }

/-- Full debug: BLANK and OPEN (R484). -/
def State.fullDebug (s : State) : Bool := match s.sec.lifecycle with | .blank => true | .open_ => true | _ => false

/-- JTAG_ACCESS: boundary scan always runs; every other instruction selects BYPASS but in BLANK and OPEN, where full debug reaches the
register blocks (R484, R559). What shifts out of a boundary-scan register is the pins' and leaves State alone. -/
def execJtagAccess (op : JtagOp) (s : State) : Host.Outcome State Fault Refusal :=
  match op with
  | .boundaryScan => .next s
  | .bypass => .next (s.emit (.jtag none))
  | .debugRead o =>
    if s.fullDebug && o % 8 == 0 then
      match decodeReg o with
      | some (r, i, c) => .next ((s.emit (.jtag (some (s.regValue 0 r i c)))).clearOnRead 0 r i c)
      | none => .next (s.emit (.jtag (some 0)))
    else .next (s.emit (.jtag none))
  | .debugWrite o v =>
    if s.fullDebug && o % 8 == 0 then
      match decodeReg o with
      | some (r, i, c) => .next (s.writeReg 0 r i c (v % 2 ^ 64))
      | none => .next s
    else .next (s.emit (.jtag none))

end Sys2Proof.Machine
end

