-- ==== Sys2Proof/Machine/Control.lean ====
section
/-! DEFINITION. Machine/Control.lean: the CTL instructions of cell programs (R203, R213 to R215, R218, R219, R222). -/

namespace Sys2Proof.Machine

/-- NOP: holds issue for 1 + COUNT work cycles (R218). -/
def execNop (a : CellAt) (count : Nat) (s : State) : Host.Outcome State Fault Refusal :=
  .next <| s.ctlInstr a (cellWord a false 0x00 [(16, 16, count)]) (1 + count) id

/-- HALT: the program ends once its descriptors have completed and their signals are applied (R203). -/
def execHalt (a : CellAt) (s : State) : Host.Outcome State Fault Refusal :=
  .next <| s.issue a (cellWord a false 0x01 []) 0 1 0 fun s =>
    .ok ((s.updCell a.cell.val fun x => { x with halting := true }).tryHalt a.cell.val)

/-- JUMP: go to TARGET. -/
def execJump (a : CellAt) (target : Nat) (s : State) : Host.Outcome State Fault Refusal :=
  .next <| s.issue a (cellWord a false 0x02 [(16, 12, target)]) 0 1 0 fun s => .ok (s.goTo a.cell.val target)

/-- LOOP: run the body, up to and including END, a fixed number of times; a count of 0 from a register skips it (R222). -/
def execLoop (a : CellAt) (last : Nat) (csrc : Fin 16) (imm : Nat) (s : State) : Host.Outcome State Fault Refusal :=
  .next <| s.issue a (cellWord a false 0x03 [(16, 12, last), (28, 4, csrc.val), (32, 32, imm)]) 0 1 0 fun s =>
    let x := s.cell a.cell.val
    let n := if csrc = 0 then imm else (x.sreg csrc.val).toNat
    .ok (if n = 0 then s.goTo a.cell.val (last + 1)
      else (s.updCell a.cell.val fun x => { x with loops := (x.pc + 1, last, n) :: x.loops }).goTo a.cell.val (x.pc + 1))

/-- The comparison of BRANK (R219). -/
def brankTaken (cmp : Fin 4) (rank value : Nat) : Bool :=
  match cmp with | 0 => rank == value | 1 => rank != value | 2 => decide (rank < value) | 3 => decide (value ≤ rank)

/-- BRANK: go to TARGET where the cell's rank compares true. -/
def execBrank (a : CellAt) (target : Nat) (cmp : Fin 4) (value : Nat) (s : State) : Host.Outcome State Fault Refusal :=
  .next <| s.issue a (cellWord a false 0x04 [(16, 12, target), (28, 2, cmp.val), (32, 6, value)]) 0 1 0 fun s =>
    .ok (s.goTo a.cell.val (if brankTaken cmp (s.rank a.cell.val) value then target else (s.cell a.cell.val).pc + 1))

/-- The program holds until the token reaches the count, which is then subtracted (R213); a VARIABLE token makes it VARIED
(R76). -/
def State.waitFor (s : State) (c t n : Nat) : State :=
  let s := (s.waitBegins c t).updCell c fun x => { x with
    lastToken := t, waitTurns := 0, flags := Nat.lor x.flags (if 48 ≤ t then flagVaried else 0) }
  if n ≤ Tab.look 0 (s.cell c).tokens t then s.takeToken c t n
  else s.updCell c fun x => { x with waiting := .token t n }

/-- WAIT: hold the program until token t reaches n, then subtract n (R213). -/
def execWait (a : CellAt) (v : Bool) (token : Fin 64) (count : Nat) (s : State) : Host.Outcome State Fault Refusal :=
  .next <| s.issue a (cellWord a v 0x05 [(16, 6, token.val), (32, 16, count)]) 0 1 0 fun s =>
    .ok (s.waitFor a.cell.val token.val count)

/-- SIGNAL: add COUNT to a token of this cell (R211). -/
def execSignal (a : CellAt) (token : Fin 64) (count : Nat) (s : State) : Host.Outcome State Fault Refusal :=
  .next <| s.ctlInstr a (cellWord a false 0x06 [(16, 6, token.val), (32, 16, count)]) 1 fun s =>
    s.signalToken a.cell.val token.val count

/-- GSYNC: the cells of the group meet at their j-th GSYNC (R215). -/
def execGsync (a : CellAt) (s : State) : Host.Outcome State Fault Refusal :=
  .next <| s.issue a (cellWord a false 0x07 []) 0 1 0 fun s =>
    .ok ((s.updCell a.cell.val fun x => { x with
      gsyncs := x.gsyncs + 1, waiting := .gsync, waitTurns := 0 }).releaseGsync (s.cellGroup a.cell.val))

/-- SMOVI: s_d = IMM. -/
def execSmovi (a : CellAt) (d : Fin 16) (imm : Word64) (s : State) : Host.Outcome State Fault Refusal :=
  .next <| s.ctlInstr a (cellWord a false 0x10 [(16, 4, d.val), (64, 64, imm.toNat)]) 1 fun s =>
    s.updCell a.cell.val fun x => x.setSreg d.val imm

/-- A shift amount within the width, or a result that the spec does not state (R219, R221; notes/assumptions/14.md). -/
def shifted (name : String) (w v n : Nat) (r : Nat) : Nat := if n < w then r else Config.unstated name [w, v, n]

/-- The scalar functions of R219. -/
def saluResult (func : Fin 16) (x y : Word64) : Word64 :=
  match func.val with
  | 0 => x + y
  | 1 => x - y
  | 2 => x * y
  | 3 => x &&& y
  | 4 => x ||| y
  | 5 => x ^^^ y
  | 6 => BitVec.ofNat 64 (shifted "shl" 64 x.toNat y.toNat (x.toNat * 2 ^ y.toNat))
  | 7 => BitVec.ofNat 64 (shifted "shr" 64 x.toNat y.toNat (x.toNat / 2 ^ y.toNat))
  | _ => 0

/-- SALU: s_d = s_a FUNC (s_b or IMM). -/
def execSalu (at_ : CellAt) (d a b : Fin 16) (func : Fin 16) (useImm : Bool) (imm : Word64) (s : State) :
    Host.Outcome State Fault Refusal :=
  .next <| s.ctlInstr at_ (cellWord at_ false 0x11
      [(16, 4, d.val), (20, 4, a.val), (24, 4, b.val), (28, 4, func.val), (32, 1, b2n useImm), (64, 64, imm.toNat)]) 1 fun s =>
    s.updCell at_.cell.val fun x => x.setSreg d.val (saluResult func (x.sreg a.val) (if useImm then imm else x.sreg b.val))

/-- SRANK: s_d = the cell's rank, or the group's size (R195). -/
def execSrank (a : CellAt) (d : Fin 16) (what : Bool) (s : State) : Host.Outcome State Fault Refusal :=
  .next <| s.ctlInstr a (cellWord a false 0x12 [(16, 4, d.val), (20, 1, b2n what)]) 1 fun s =>
    s.updCell a.cell.val fun x => x.setSreg d.val (BitVec.ofNat 64
      (if what then (s.groupCells (s.cellGroup a.cell.val)).length else s.rank a.cell.val))

/-- WAIT_LIMIT_EXPIRE: a WAIT, GSYNC or full-feed-queue wait that has lasted WAIT_LIMIT turn boundaries halts the program with
BARRIER_TIMEOUT; 0 is no limit (R214). -/
def execWaitLimitExpire (c : CellId) (s : State) : Host.Outcome State Fault Refusal :=
  let x := s.cell c.val
  let unit := match x.waiting with | .feedQueue _ _ _ => 4 | _ => 0
  .next <| if x.running && x.waiting != .none && x.waitLimit != 0 && decide (x.waitLimit ≤ x.waitTurns) && !s.frozen then
    s.failCell c.val x.pc .barrierTimeout unit 0 else s

end Sys2Proof.Machine
end

