-- ==== Sys2Proof/Machine/Exits.lean ====
section
/-! DEFINITION. Machine/Exits.lean: committee replies and requests sent again, and the checks of a robust round (R365, R366, R368 to
R371). -/

namespace Sys2Proof.Machine

/-- RING_EXIT fields: BAD, LATE, REFUSED, TIMEOUTS, FAILED, with their widths (R375). -/
def State.countExit (s : State) (t i : Nat) : State :=
  s.updRing fun r => { r with
    exitCount := Tab.put 0 r.exitCount (8 * t + i) (satAdd (if i = 0 then 16 else 8) (Tab.look 0 r.exitCount (8 * t + i)) 1) }

/-- A request no longer waits for its reply (R365). -/
def State.settleReq (s : State) (q : ExitReq) : State :=
  s.updRing fun r => { r with
    reqs := r.reqs.filter (fun x => !(x.tenant == q.tenant && x.id == q.id)), settled := r.settled ++ [(q.tenant, q.id)] }

/-- A cohort is discarded with REASON 7, where it has not been discarded before (R371). -/
def Round.discardUnanswered (r : Round) (c : Nat) : Round :=
  if (r.cohort c).discarded then r else r.setCohort c { r.cohort c with reason := 7 }

/-- A request went unanswered or was refused: its entry ends with PEER_UNREACHABLE, or the client's cohort is discarded with REASON 7
(R365, R371). -/
def State.exitFails (s : State) (q : ExitReq) : State :=
  match q.check with
  | none => (s.endWait q.tenant).endEntry q.tenant .peerUnreachable flagVaried 0
  | some (h, x) =>
    (s.settleReq q).updRound h fun r => r.discardUnanswered (r.cohortOf x)

/-- Payload bytes that a reply must have (R366). -/
def State.replyLength (s : State) (q : ExitReq) : Nat :=
  if q.kind = 0 then 2 * (q.level + 1) * 4 * (s.params (s.desc q.dst).psid).n else 0

/-- The reply's ciphertext goes to DST (R364). -/
def State.writeReply (s : State) (q : ExitReq) (r : ExitReplyMsg) : State :=
  let a := s.desc q.src
  let p := s.params a.psid
  let x := Poly.make 2 (q.level + 1) p.n (fun c i j => r.payload.getD ((c * (q.level + 1) + i) * p.n + j) 0)
  let d := (s.desc q.dst).holds { a with
    level := q.level, noise := p.fresh, scale := Config.unstated "SCALE of a fresh encryption" [a.psid] % 2 ^ 32, eval := false, plain := true }
  (s.writePoly q.tenant d x).setDesc q.dst d

/-- A robust round's verdict: BIT 1 passes; it is mirrored to the twin (R370, R375). -/
def State.robustVerdict (s : State) (t h x bit : Nat) : State :=
  let s := s.updRound h fun r => r.setClient x { r.client x with verdict := bit % 2 + 1 }
  let s := if bit % 2 = 0 then s.countExit t 4 else s
  if (s.twin (s.round h)).isSome then s.emit (.verdict h x (bit % 2)) else s

/-- EXIT_REPLY: a valid reply settles its request; others are counted and dropped (R365). A refusal carries no payload to check. In a
freeze no message is taken (R90). -/
def execExitReply (t : TenantId) (r : ExitReplyMsg) (s : State) : Host.Outcome State Fault Refusal :=
  .next <|
    if s.frozen then s else
    match s.ring.reqs.find? (fun q => q.tenant == t.val && q.id == r.requestId) with
    | none => if r.tagOk && s.ring.settled.contains (t.val, r.requestId) then s.countExit t.val 1 else s.countExit t.val 0
    | some q =>
      if !r.tagOk || r.kind != q.kind || r.fingerprint != q.fingerprint || (!r.refused && r.payloadLength != s.replyLength q) then
        s.countExit t.val 0
      else
        match q.check with
        | none =>
          if r.refused then (s.countExit t.val 2).exitFails q
          else ((s.writeReply q r).endWait t.val).endEntry t.val .ok flagVaried 0
        | some (h, x) =>
          if (s.round h).state != .frozen then (s.settleReq q).countExit t.val 1
          else if r.refused then (s.countExit t.val 2).exitFails q
          else (s.settleReq q).robustVerdict t.val h x r.bit

/-- EXIT_RESEND: after WAIT_TURNS turn boundaries without a valid reply the same bytes go out again; after SENDS copies the request
ends (R365). -/
def execExitResend (t : TenantId) (requestId : Nat) (s : State) : Host.Outcome State Fault Refusal :=
  .next <|
    match s.ring.reqs.find? (fun q => q.tenant == t.val && q.id == requestId) with
    | none => s
    | some q =>
      if s.turn < q.sentTurn + q.waitTurns || s.frozen then s
      else if q.sends < q.sendsMax then
        let s := s.updRing fun r => { r with reqs := r.reqs.map (fun x =>
          if x.tenant == t.val && x.id == requestId then { x with sends := x.sends + 1, sentTurn := s.turn } else x) }
        match s.out.find? (fun o => match o with | .exitReq id _ _ _ _ _ _ _ _ _ => id == requestId | _ => false) with
        | some o => s.emit o
        | none => s
      else (s.countExit t.val 3).exitFails q

/-- Client `x` awaits its check: a survivor of a kept home cohort with neither verdict nor request (R370). -/
def State.awaitsCheck (s : State) (h x : Nat) : Bool :=
  let r := s.round h
  let c := r.cohortOf x
  s.isHome r c && !(r.cohort c).discarded && (r.cohort c).s.contains x && (r.client x).verdict == 0 &&
  !s.ring.reqs.any (fun q => q.check == some (h, x))

/-- Element `n` of a client's held chunks (R369). -/
def Round.heldElem (r : Round) (x n : Nat) : Nat :=
  match r.heldChunks.find? (fun y => y.1 == x && y.2.1 == n / chunkElems) with
  | some y => y.2.2.getD (n % chunkElems) 0
  | none => 0

/-- What CHECK_PLAN computes from a client's ciphertexts (R370). -/
def State.checkValue (s : State) (r : Round) (x : Nat) : RingDesc × Poly :=
  let pl := s.plan r.checkPlan
  let p := s.params pl.psid
  let inputs := (List.range r.ctCount).map (fun m =>
    (0xFE00 + m, { s.planInput pl with noise := r.clientNoise }, roundCiphertext p r.clientLevel (limbStride r.ctCount p.logN) m (r.heldElem x)))
  s.planData r.tenant pl inputs pl.entries

/-- ROBUST_CHECK: the home engine checks the next survivor in ascending client order: its norm by CHECK_PLAN, and a SIGN_REVEAL or
DECRYPT_BIT request for its sign (R370). -/
def execRobustCheck (h : Handle) (client : Nat) (s : State) : Host.Outcome State Fault Refusal :=
  .next <|
    let r := s.round h.val
    let t := r.tenant
    let pl := s.plan r.checkPlan
    let p := s.params pl.psid
    if r.state == .frozen && r.robust && (r.cohort 0).published && s.awaitsCheck h.val client &&
        (List.range client).all (fun x => !s.awaitsCheck h.val x) && s.mayIssue t .ring 0 && s.ringIssue t p.group then
      let (d, v) := s.checkValue r client
      let total := 65536 * (pl.chunks + (if r.test = 0 then 0 else (s.evk r.lweKey).chunks + (s.evk r.brKey).chunks))
      let n := s.feedMoves p.group t (total - r.checkMoved)
      let s := s.chargeDma t n
      if r.checkMoved + n < total then s.updRound h.val fun r => { r with checkMoved := r.checkMoved + n }
      else
      let s := (s.updRound h.val fun r => { r with checkMoved := 0 }).freeLinks.ringLeaves t p pl.scratch pl.scratchLen
      let c := r.cohortOf client
      match s.keyUse (s.exitBind t r.exitBind).macKey t 13 with
      | some _ => s.updRound h.val fun r => r.discardUnanswered c
      | none =>
        if r.test = 0 then
          s.sendExit t r.exitBind 1 d.level d.fingerprint r.number c client (some (h.val, client)) 0 0 true v.flat
        else
          let br := s.evk r.brKey
          let lwe := s.evk r.lweKey
          let ps := s.params br.targetPsid
          let args := extractAt p d.plain v 0 ++ s.evkData t lwe ++ (s.readPoly t (s.desc r.testPoly)).flat ++ s.evkData t br
          s.sendExit t r.exitBind 2 0 br.fingerprint r.number c client (some (h.val, client)) 0 0 false
            (freePoly "DECRYPT_BIT" ps 2 1 args).flat
    else s

end Sys2Proof.Machine
end

