-- ==== Sys2Proof/Machine/Vector.lean ====
section
/-! DEFINITION. Machine/Vector.lean: the vector unit and MOVE (R133, R143, R146, R147, R218 to R221, R224). -/

namespace Sys2Proof.Machine

/-- Bytes of a vector register (R146). -/
def vregBytes : Nat := 512

/-- VLD: load a vector register from SRAM, lane l from byte 8 l (R11, R146). -/
def execVld (a : CellAt) (d : Fin 32) (src : AddrOp) (s : State) : Host.Outcome State Fault Refusal :=
  .next <| s.unitInstr a (cellWord a false 0x40 [(16, 5, d.val), (40, 26, addrCode src)]) { unit := 3, cost := 2, sram := true }
    (fun s =>
      let x := s.cell a.cell.val
      [(x.misaligned src 256, illegal 0x04), (x.sealedRange (x.ea src) vregBytes none, (.rights, 0))])
    (fun _ s =>
      let x := s.seenCell a
      .ok (s.updCell a.cell.val fun y => y.setVreg d.val (fun l => BitVec.ofNat 64 (leNat (x.read (x.ea src + 8 * l) 8)))))

/-- VST: store a vector register to SRAM; a write to a sealed block fails (R189). -/
def execVst (a : CellAt) (r : Fin 32) (dst : AddrOp) (s : State) : Host.Outcome State Fault Refusal :=
  .next <| s.unitInstr a (cellWord a false 0x41 [(16, 5, r.val), (40, 26, addrCode dst)]) { unit := 3, cost := 2 }
    (fun s =>
      let x := s.cell a.cell.val
      [(x.misaligned dst 256, illegal 0x04), (x.sealedRange (x.ea dst) vregBytes none, (.rights, 0))])
    (fun _ s => .ok (s.updCell a.cell.val fun x =>
      x.write (x.ea dst) ((List.range 64).flatMap (fun l => leBytes 8 (x.lane r.val l).toNat))))

/-- What one lane, or half lane, of an operation gives: its code, and what it adds to CVT_SAT and ZQ_RANGE. -/
structure LaneResult where
  v : Nat
  sat : Nat := 0
  range : Nat := 0
  deriving DecidableEq, Repr

/-- A function of the integer class on values of `w` bits; `dOld` is the destination's value for select (R147, R221). -/
def integerOp (func w a b dOld : Nat) : Nat :=
  let sa := toSigned w a
  let sb := toSigned w b
  let ones := fun (t : Bool) => if t then 2 ^ w - 1 else 0
  match func with
  | 0 => (a + b) % 2 ^ w
  | 1 => (a + (2 ^ w - b)) % 2 ^ w
  | 2 => Nat.land a b
  | 3 => Nat.lor a b
  | 4 => Nat.xor a b
  | 5 => shifted "shl" w a b (a * 2 ^ b) % 2 ^ w
  | 6 => shifted "shr" w a b (a / 2 ^ b) % 2 ^ w
  | 7 => shifted "sar" w a b (ofSigned w (sa / (2 ^ b : Nat))) % 2 ^ w
  | 8 => (a * 2 ^ (b % w) + a / 2 ^ (w - b % w)) % 2 ^ w
  | 9 => ones (a == b)
  | 10 => ones (decide (sa < sb))
  | 11 => ones (decide (a < b))
  | 12 => if bitAt dOld 0 then a else b
  | 13 => if sb < sa then b else a
  | _ => if sa < sb then b else a

/-- A function of the modular class on one residue (R136, R137, R147). -/
def modularOp (func : Nat) (e : Modulus) (a b : Nat) : LaneResult :=
  let (x, cx) := zqTake e.q a
  let (y, cy) := zqTake e.q b
  match func with
  | 18 => { v := (x + y) % e.q, range := cx + cy }
  | 19 => { v := (x + (e.q - y)) % e.q, range := cx + cy }
  | 20 => { v := montMul x y e.q e.qinv, range := cx + cy }
  | 21 => { v := montMul x e.rsq e.q e.qinv, range := cx }
  | _ => { v := montMul x 1 e.q e.qinv, range := cx }

/-- One lane of VOP, or one half lane where PAIRED (R221). A conversion or a wide multiply on values of the other width than its
own is a result that the spec does not state (notes/assumptions/14.md). -/
def laneOp (func w : Nat) (e : Modulus) (imm a b dOld : Nat) : LaneResult :=
  if func ≤ 14 then { v := integerOp func w a b dOld }
  else if 18 ≤ func ∧ func ≤ 22 then modularOp func e a b
  else
    let open_ : LaneResult := { v := Config.unstated "vop" [func, w, a, b] % 2 ^ w }
    let ex := toSigned 10 imm
    let cvt := fun (r : Nat × Bool) => ({ v := r.1, sat := b2n r.2 } : LaneResult)
    match func, decide (w = 64) with
    | 16, true => { v := a * b % 2 ^ 64 }
    | 17, true => { v := a * b / 2 ^ 64 }
    | 23, false => cvt (cvtFp32 bf16 a)
    | 24, false => cvt (cvtFp32 fp16 a)
    | 25, true => cvt (bf16.code (toSigned 64 a, ex))
    | 26, true => cvt (fp32.code (toSigned 64 a, ex))
    | 27, true =>
      let v := alignTo (toSigned 64 a, 0) ex
      if fxFits v then { v := ofSigned 64 v } else open_
    | _, _ => open_

/-- A whole lane of VOP: as one 64-bit value or as two 32-bit halves (R146). -/
def laneVop (func : Nat) (paired : Bool) (e : Modulus) (imm a b dOld : Nat) : LaneResult :=
  if paired then
    let lo := laneOp func 32 e imm (a % 2 ^ 32) (b % 2 ^ 32) (dOld % 2 ^ 32)
    let hi := laneOp func 32 e imm (a / 2 ^ 32) (b / 2 ^ 32) (dOld / 2 ^ 32)
    { v := lo.v + hi.v * 2 ^ 32, sat := lo.sat + hi.sat, range := lo.range + hi.range }
  else laneOp func 64 e imm a b dOld

/-- Write the results of 64 lanes, with what they count (R133, R137). -/
def Cell.setLanes (x : Cell) (d : Nat) (f : Nat → LaneResult) : Cell :=
  let y := x.setVreg d (fun l => BitVec.ofNat 64 (f l).v)
  (y.countArith arithCvtSat ((List.range 64).map (fun l => (f l).sat)).sum).countArith arithZqRange
    ((List.range 64).map (fun l => (f l).range)).sum

/-- Work cycles of a VOP (R147). -/
def vopCost (func : Nat) : Nat := if func = 16 ∨ func = 17 then 2 else 1

/-- Latency of a VOP: integer 2, conversion 4, wide multiply and modular 6 (R147). -/
def vopLatency (func : Nat) : Nat := if func ≤ 14 then 2 else if 23 ≤ func then 4 else 6

/-- VOP: an operation of every lane (R147, R221); the modular codes need a valid modulus entry (R135). -/
def execVop (at_ : CellAt) (d a b : Fin 32) (func : Fin 32) (paired : Bool) (modulus : Fin 16) (useImm : Bool) (imm : Word64)
    (s : State) : Host.Outcome State Fault Refusal :=
  let w := cellWord at_ false 0x42 [(16, 5, d.val), (21, 5, a.val), (26, 5, b.val), (31, 5, func.val), (36, 1, b2n paired),
    (37, 4, modulus.val), (41, 1, b2n useImm), (42, 64, imm.toNat)]
  .next <| s.unitInstr at_ w { unit := 3, cost := vopCost func.val, lat := vopLatency func.val }
    (fun s => [(decide (18 ≤ func.val) && decide (func.val ≤ 22) && !(Tab.look {} (s.cell at_.cell.val).modulus modulus.val).valid,
      illegal 0x01)])
    (fun _ s => .ok (s.updCell at_.cell.val fun x => x.setLanes d.val (fun l =>
      laneVop func.val paired (Tab.look {} x.modulus modulus.val) imm.toNat (x.lane a.val l).toNat
        (if useImm then imm.toNat else (x.lane b.val l).toNat) (x.lane d.val l).toNat)))

/-- VPERM: lane i takes the lane that bits 5:0 of lane i of INDEX name. -/
def execVperm (at_ : CellAt) (d a index : Fin 32) (s : State) : Host.Outcome State Fault Refusal :=
  .next <| s.unitInstr at_ (cellWord at_ false 0x43 [(16, 5, d.val), (21, 5, a.val), (26, 5, index.val)]) { unit := 3, cost := 2, lat := 4 }
    (fun _ => [])
    (fun _ s => .ok (s.updCell at_.cell.val fun x => x.setVreg d.val (fun l => x.lane a.val ((x.lane index.val l).toNat % 64))))

/-- One reduction over values of `w` bits: sum, minimum or maximum, the last two signed as in VOP (R147, R219; DEDUCED). -/
def reduce (func w : Nat) (l : List Nat) : Nat :=
  match func with
  | 0 => l.sum % 2 ^ w
  | 1 => l.foldl (fun m v => if toSigned w v < toSigned w m then v else m) (l.headD 0)
  | _ => l.foldl (fun m v => if toSigned w m < toSigned w v then v else m) (l.headD 0)

/-- VRED: a reduction across the 64 lanes into lane 0; the other lanes are 0 (R147, R218). -/
def execVred (at_ : CellAt) (d a : Fin 32) (func : Fin 4) (paired : Bool) (s : State) : Host.Outcome State Fault Refusal :=
  .next <| s.unitInstr at_ (cellWord at_ false 0x44 [(16, 5, d.val), (21, 5, a.val), (26, 2, func.val), (28, 1, b2n paired)])
    { unit := 3, cost := 6, lat := 12 } (fun _ => [])
    (fun _ s =>
      let x := s.cell at_.cell.val
      let l := (List.range 64).map (fun i => (x.lane a.val i).toNat)
      let r := if paired then reduce func.val 32 (l.map (· % 2 ^ 32)) + reduce func.val 32 (l.map (· / 2 ^ 32)) * 2 ^ 32
        else reduce func.val 64 l
      .ok (s.updCell at_.cell.val fun x => x.setVreg d.val (fun i => if i = 0 then BitVec.ofNat 64 r else 0)))

/-- A latency that R147 does not state is at most its longest (notes/assumptions/13.md). -/
def maxLatency : Nat := 12

/-- VBCAST: every lane is s_a. -/
def execVbcast (at_ : CellAt) (d : Fin 32) (a : Fin 16) (s : State) : Host.Outcome State Fault Refusal :=
  .next <| s.unitInstr at_ (cellWord at_ false 0x45 [(16, 5, d.val), (21, 4, a.val)]) { unit := 3, cost := 1, lat := maxLatency } (fun _ => [])
    (fun _ s => .ok (s.updCell at_.cell.val fun x => x.setVreg d.val (fun _ => x.sreg a.val)))

/-- VRAND: 64 lanes from the tenant's DRBG; a VARIABLE operation of at least 2 work cycles, how many more is open (R218, R495;
notes/assumptions/13.md). -/
def execVrand (at_ : CellAt) (v : Bool) (d : Fin 32) (s : State) : Host.Outcome State Fault Refusal :=
  .next <| s.unitInstr at_ (cellWord at_ v 0x46 [(16, 5, d.val)])
    { unit := 3, cost := 2, lat := maxLatency } (fun _ => [])
    (fun _ s =>
      let (r, s) := s.drbg (s.cellTenant at_.cell.val)
      .ok (s.updCell at_.cell.val fun x =>
        { x.setVreg d.val (fun l => BitVec.ofNat 64 (r / 2 ^ (64 * l))) with
          flags := Nat.lor x.flags flagVaried
          work := wrapAdd 64 x.work (Config.workCycles "vrand" [x.work, x.pc]) }))

/-- A 4 KiB block transposed as a 32 by 32 matrix of words (R143). -/
def transposed (b : List Byte) : List Byte :=
  (List.range 32).flatMap (fun c => (List.range 32).flatMap (fun r => slice b (128 * r + 4 * c) 4))

/-- Two ranges of `n` bytes of cell SRAM overlap, past its top too (R217, R224). -/
def overlap (a b n : Nat) : Bool := decide ((b + sramBytes - a) % sramBytes < n) || decide ((a + sramBytes - b) % sramBytes < n)

/-- Copy units of `n` bytes of a cell as it is seen, each as `f` makes it. -/
def Cell.copyUnits (x seen : Cell) (src dst n : Nat) (f : List Byte → List Byte) (units : Nat) : Cell :=
  (List.range units).foldl (fun x i => x.write ((dst + i * n) % sramBytes) (f (seen.read (src + i * n) n))) x

/-- MOVE: copy SRAM to SRAM, block by block, optionally transposing 4 KiB blocks (R143, R224). -/
def execMove (a : CellAt) (src dst : AddrOp) (blocks : Nat) (transpose : Bool) (s : State) : Host.Outcome State Fault Refusal :=
  let w := cellWord a false 0x50 [(40, 26, addrCode src), (66, 26, addrCode dst), (92, 15, blocks), (107, 1, b2n transpose)]
  let per := if transpose then stepCycles / 2 else stepCycles
  .next <| s.unitInstr a w { unit := 3, cost := if transpose then 2 * blocks else blocks, steps := ceilDiv blocks per, sram := true }
    (fun s =>
      let x := s.cell a.cell.val
      let al := if transpose then 4096 else 256
      let n := blocks * 256
      [(x.misaligned src al || x.misaligned dst al, illegal 0x04), (overlap (x.ea src) (x.ea dst) n, illegal 0x06),
        (x.sealedRange (x.ea src) n none || x.sealedRange (x.ea dst) n none, (.rights, 0))])
    (fun n s =>
      let x := s.seenCell a
      let k := min blocks (n * per)
      .ok (s.updCell a.cell.val fun y =>
        if transpose then y.copyUnits x (x.ea src) (x.ea dst) 4096 transposed (k / 16)
        else y.copyUnits x (x.ea src) (x.ea dst) 256 id k))

end Sys2Proof.Machine
end

