-- ==== Sys2Proof/Machine/Dispatch.lean ====
section
/-! DEFINITION. Machine/Dispatch.lean: which meaning each command of spec/opcode_table.json has, one arm per row. -/

namespace Sys2Proof.Machine

/-- The effect of a command on everything but the queue of waiting commands. -/
def exec (i : Instr) (s : State) : Host.Outcome State Fault Refusal :=
  match i with
  | .jigLoad c img => Sys2Proof.Machine.execJigLoad c img s
  | .jigLoadEffect => Sys2Proof.Machine.execJigLoadEffect s
  | .assemblyAlignment pos fwClass composition measurement roundTrips => Sys2Proof.Machine.execAssemblyAlignment pos fwClass composition measurement roundTrips s
  | .jigEdit c means => Sys2Proof.Machine.execJigEdit c means s
  | .jigCommit c sig signed => Sys2Proof.Machine.execJigCommit c sig s signed
  | .commitVerdict rx => Sys2Proof.Machine.execCommitVerdict rx s
  | .commitDecision rx => Sys2Proof.Machine.execCommitDecision rx s
  | .jigSwap => Sys2Proof.Machine.execJigSwap s
  | .fwLoad c hostError sig => Sys2Proof.Machine.execFwLoad c hostError sig s
  | .fwReady => Sys2Proof.Machine.execFwReady s
  | .fwBootTimeout => Sys2Proof.Machine.execFwBootTimeout s
  | .firmwareStop fault => Sys2Proof.Machine.execFirmwareStop fault s
  | .tenantCreate c busyElsewhere => Sys2Proof.Machine.execTenantCreate c busyElsewhere s
  | .tenantCreateBoundary => Sys2Proof.Machine.execTenantCreateBoundary s
  | .tenantRemove c => Sys2Proof.Machine.execTenantRemove c s
  | .tenantRemoveBoundary => Sys2Proof.Machine.execTenantRemoveBoundary s
  | .fenceRound t returned => Sys2Proof.Machine.execFenceRound t returned s
  | .scrub t hostRefused ueFrames => Sys2Proof.Machine.execScrub t hostRefused ueFrames s
  | .quotaSet c => Sys2Proof.Machine.execQuotaSet c s
  | .regionRegister c => Sys2Proof.Machine.execRegionRegister c s
  | .regionDeregister c => Sys2Proof.Machine.execRegionDeregister c s
  | .regionRekey c => Sys2Proof.Machine.execRegionRekey c s
  | .endpointCreate c => Sys2Proof.Machine.execEndpointCreate c s
  | .endpointPark c => Sys2Proof.Machine.execEndpointPark c s
  | .endpointUnpark c => Sys2Proof.Machine.execEndpointUnpark c s
  | .dmaSubmit c => Sys2Proof.Machine.execDmaSubmit c s
  | .dmaCopy t d host hostErr met => Sys2Proof.Machine.execDmaCopy t d host hostErr s met
  | .dmaAccAdd t d host hostErr met => Sys2Proof.Machine.execDmaAccAdd t d host hostErr s met
  | .dmaZero t d hostErr met => Sys2Proof.Machine.execDmaZero t d hostErr s met
  | .resume fn t d => Sys2Proof.Machine.execResume fn t d s
  | .abandon fn t d => Sys2Proof.Machine.execAbandon fn t d s
  | .faultLimitExpire t d => Sys2Proof.Machine.execFaultLimitExpire t d s
  | .progLoad c => Sys2Proof.Machine.execProgLoad c s
  | .progStart c => Sys2Proof.Machine.execProgStart c s
  | .barrierArm c unloaded => Sys2Proof.Machine.execBarrierArm c s unloaded
  | .barrierStart missed => Sys2Proof.Machine.execBarrierStart missed s
  | .roundOpen c busyElsewhere => Sys2Proof.Machine.execRoundOpen c busyElsewhere s
  | .roundOpenBoundary h => Sys2Proof.Machine.execRoundOpenBoundary h s
  | .roundSetDeadline c => Sys2Proof.Machine.execRoundSetDeadline c s
  | .deadlineChange h => Sys2Proof.Machine.execDeadlineChange h s
  | .collectStart h peersCover => Sys2Proof.Machine.execCollectStart h peersCover s
  | .deadline h => Sys2Proof.Machine.execDeadline h s
  | .freezeExchange h incompleteElsewhere someElsewhere twinDrained homes => Sys2Proof.Machine.execFreezeExchange h incompleteElsewhere someElsewhere s twinDrained homes
  | .unmaskingEntry h => Sys2Proof.Machine.execUnmaskingEntry h s
  | .shareEnd h => Sys2Proof.Machine.execShareEnd h s
  | .roundUnmask c => Sys2Proof.Machine.execRoundUnmask c s
  | .deliveryArm h => Sys2Proof.Machine.execDeliveryArm h s
  | .roundCommit c => Sys2Proof.Machine.execRoundCommit c s
  | .roundRelease c peersRefuse => Sys2Proof.Machine.execRoundRelease c peersRefuse s
  | .releaseWrite h failure => Sys2Proof.Machine.execReleaseWrite h failure s
  | .roundAbort c => Sys2Proof.Machine.execRoundAbort c s
  | .roundFree h => Sys2Proof.Machine.execRoundFree h s
  | .keyGenerate c => Sys2Proof.Machine.execKeyGenerate c s
  | .keyImport c => Sys2Proof.Machine.execKeyImport c s
  | .keyDestroy c => Sys2Proof.Machine.execKeyDestroy c s
  | .keyAttest c => Sys2Proof.Machine.execKeyAttest c s
  | .keyRotateMem c => Sys2Proof.Machine.execKeyRotateMem c s
  | .keyRotationSwitch t ddr => Sys2Proof.Machine.execKeyRotationSwitch t ddr s
  | .keySweepUnit t ddr written ue => Sys2Proof.Machine.execKeySweepUnit t ddr written ue s
  | .ctRegisterParams c => Sys2Proof.Machine.execCtRegisterParams c s
  | .ctRegisterDescriptor c => Sys2Proof.Machine.execCtRegisterDescriptor c s
  | .ctRegisterPlan c => Sys2Proof.Machine.execCtRegisterPlan c s
  | .ctRegisterExit c => Sys2Proof.Machine.execCtRegisterExit c s
  | .releaseParams c => Sys2Proof.Machine.execReleaseParams c s
  | .releaseDescriptor c => Sys2Proof.Machine.execReleaseDescriptor c s
  | .releaseEvk c => Sys2Proof.Machine.execReleaseEvk c s
  | .releasePlan c => Sys2Proof.Machine.execReleasePlan c s
  | .evkRegister c ue => Sys2Proof.Machine.execEvkRegister c ue s
  | .ringMacro c => Sys2Proof.Machine.execRingMacro c s
  | .ringAdd t env => Sys2Proof.Machine.execRingAdd t env s
  | .ringSub t env => Sys2Proof.Machine.execRingSub t env s
  | .ringAddp t env => Sys2Proof.Machine.execRingAddp t env s
  | .ringMulp t env => Sys2Proof.Machine.execRingMulp t env s
  | .ringMulc t env => Sys2Proof.Machine.execRingMulc t env s
  | .ringMul t env => Sys2Proof.Machine.execRingMul t env s
  | .ringRescale t env => Sys2Proof.Machine.execRingRescale t env s
  | .ringRotate t env => Sys2Proof.Machine.execRingRotate t env s
  | .ringLevelDrop t env => Sys2Proof.Machine.execRingLevelDrop t env s
  | .ringNtt t env => Sys2Proof.Machine.execRingNtt t env s
  | .ringIntt t env => Sys2Proof.Machine.execRingIntt t env s
  | .ringToMont t env => Sys2Proof.Machine.execRingToMont t env s
  | .ringCopy t env => Sys2Proof.Machine.execRingCopy t env s
  | .ringRefresh t env => Sys2Proof.Machine.execRingRefresh t env s
  | .ringExtract t env => Sys2Proof.Machine.execRingExtract t env s
  | .ringLweSwitch t env => Sys2Proof.Machine.execRingLweSwitch t env s
  | .ringBlindRotate t env => Sys2Proof.Machine.execRingBlindRotate t env s
  | .ringSignExit t env => Sys2Proof.Machine.execRingSignExit t env s
  | .exitReply t r => Sys2Proof.Machine.execExitReply t r s
  | .exitResend t requestId => Sys2Proof.Machine.execExitResend t requestId s
  | .robustCheck h client => Sys2Proof.Machine.execRobustCheck h client s
  | .lifecycleAdvance c sig => Sys2Proof.Machine.execLifecycleAdvance c sig s
  | .attestDevice c => Sys2Proof.Machine.execAttestDevice c s
  | .attestAssembly c => Sys2Proof.Machine.execAttestAssembly c s
  | .attach c => Sys2Proof.Machine.execAttach c s
  | .powerLimitSet c => Sys2Proof.Machine.execPowerLimitSet c s
  | .calUserLoad c sig => Sys2Proof.Machine.execCalUserLoad c sig s
  | .shavingsConfig c => Sys2Proof.Machine.execShavingsConfig c s
  | .nop c count => Sys2Proof.Machine.execNop c count s
  | .halt c => Sys2Proof.Machine.execHalt c s
  | .jump c target => Sys2Proof.Machine.execJump c target s
  | .loop c last csrc imm => Sys2Proof.Machine.execLoop c last csrc imm s
  | .brank c target cmp value => Sys2Proof.Machine.execBrank c target cmp value s
  | .wait c v token count => Sys2Proof.Machine.execWait c v token count s
  | .signal c token count => Sys2Proof.Machine.execSignal c token count s
  | .gsync c => Sys2Proof.Machine.execGsync c s
  | .smovi c d imm => Sys2Proof.Machine.execSmovi c d imm s
  | .salu c d a b func useImm imm => Sys2Proof.Machine.execSalu c d a b func useImm imm s
  | .srank c d what => Sys2Proof.Machine.execSrank c d what s
  | .gopen c desc => Sys2Proof.Machine.execGopen c desc s
  | .gclose c group out fused stream dst record operand scalar => Sys2Proof.Machine.execGclose c group out fused stream dst record operand scalar s
  | .accld c group tile firstSlot slots src => Sys2Proof.Machine.execAccld c group tile firstSlot slots src s
  | .accst c group tile firstSlot slots dst => Sys2Proof.Machine.execAccst c group tile firstSlot slots dst s
  | .mma c group tile slot mode aCt a b k => Sys2Proof.Machine.execMma c group tile slot mode aCt a b k s
  | .ewadd c group tile firstSlot passes sub src => Sys2Proof.Machine.execEwadd c group tile firstSlot passes sub src s
  | .mask c group tile firstSlot passes sub stream => Sys2Proof.Machine.execMask c group tile firstSlot passes sub stream s
  | .vld c d src => Sys2Proof.Machine.execVld c d src s
  | .vst c r dst => Sys2Proof.Machine.execVst c r dst s
  | .vop c d a b func paired modulus useImm imm => Sys2Proof.Machine.execVop c d a b func paired modulus useImm imm s
  | .vperm c d a index => Sys2Proof.Machine.execVperm c d a index s
  | .vred c d a func paired => Sys2Proof.Machine.execVred c d a func paired s
  | .vbcast c d a => Sys2Proof.Machine.execVbcast c d a s
  | .vrand c v d => Sys2Proof.Machine.execVrand c v d s
  | .move c src dst blocks transpose => Sys2Proof.Machine.execMove c src dst blocks transpose s
  | .send c route dsig dtoken src dst beats => Sys2Proof.Machine.execSend c route dsig dtoken src dst beats s
  | .feed c v engine desc => Sys2Proof.Machine.execFeed c v engine desc s
  | .waitLimitExpire c => Sys2Proof.Machine.execWaitLimitExpire c s
  | .cellClear c => Sys2Proof.Machine.execCellClear c s
  | .celModulusWrite fn c n value => Sys2Proof.Machine.execCelModulusWrite fn c n value s
  | .modulusConstantsReady c n => Sys2Proof.Machine.execModulusConstantsReady c n s
  | .aggBindEnable fn e value => Sys2Proof.Machine.execAggBindEnable fn e value s
  | .aggBindDisable fn e => Sys2Proof.Machine.execAggBindDisable fn e s
  | .batchDispatch e => Sys2Proof.Machine.execBatchDispatch e s
  | .seedReconstruction h cohort keysMatch => Sys2Proof.Machine.execSeedReconstruction h cohort keysMatch s
  | .streamDelivery e => Sys2Proof.Machine.execStreamDelivery e s
  | .gatePass h => Sys2Proof.Machine.execGatePass h s
  | .replicaCompare h twin => Sys2Proof.Machine.execReplicaCompare h twin s
  | .summedAnnounce h => Sys2Proof.Machine.execSummedAnnounce h s
  | .sealedClear c h => Sys2Proof.Machine.execSealedClear c h s
  | .roundMemoryZeroing h => Sys2Proof.Machine.execRoundMemoryZeroing h s
  | .keyex p head payload seen maskKeyValid => Sys2Proof.Machine.execKeyex p head payload seen maskKeyValid s
  | .contrib p x abortedElsewhere => Sys2Proof.Machine.execContrib p x abortedElsewhere s
  | .share p text seen => Sys2Proof.Machine.execShare p text seen s
  | .abortMsg p head payload seen elsewhere => Sys2Proof.Machine.execAbortMsg p head payload seen elsewhere s
  | .contribMirror head payload => Sys2Proof.Machine.execContribMirror head payload s
  | .mirrorAck h client chunk => Sys2Proof.Machine.execMirrorAck h client chunk s
  | .shareMirror head payload => Sys2Proof.Machine.execShareMirror head payload s
  | .wrappedSessionKey h client wrapped => Sys2Proof.Machine.execWrappedSessionKey h client wrapped s
  | .seedDistribution h cohort seeds discard => Sys2Proof.Machine.execSeedDistribution h cohort seeds discard s
  | .etkaiSendPacket p => Sys2Proof.Machine.execEtkaiSendPacket p s
  | .etkaiWritePacket p => Sys2Proof.Machine.execEtkaiWritePacket p s
  | .etkaiWriteNotifyPacket p => Sys2Proof.Machine.execEtkaiWriteNotifyPacket p s
  | .etkaiAccAddPacket p => Sys2Proof.Machine.execEtkaiAccAddPacket p s
  | .etkaiAck ep msgId index ece dup => Sys2Proof.Machine.execEtkaiAck ep msgId index ece dup s
  | .etkaiNak ep msgId index st => Sys2Proof.Machine.execEtkaiNak ep msgId index st s
  | .rtoExpire ep msgId index => Sys2Proof.Machine.execRtoExpire ep msgId index s
  | .nakRetry ep msgId index => Sys2Proof.Machine.execNakRetry ep msgId index s
  | .flowIdleDrop flow => Sys2Proof.Machine.execFlowIdleDrop flow s
  | .reassemblyTimeout ep srcEp srcMember msgId => Sys2Proof.Machine.execReassemblyTimeout ep srcEp srcMember msgId s
  | .epSqTail fn ep tail => Sys2Proof.Machine.execEpSqTail fn ep tail s
  | .epRqTail fn ep tail => Sys2Proof.Machine.execEpRqTail fn ep tail s
  | .epCqHead fn ep head => Sys2Proof.Machine.execEpCqHead fn ep head s
  | .wrSend ep host => Sys2Proof.Machine.execWrSend ep host s
  | .wrWrite ep host => Sys2Proof.Machine.execWrWrite ep host s
  | .wrWriteNotify ep host => Sys2Proof.Machine.execWrWriteNotify ep host s
  | .wrAccAdd ep host => Sys2Proof.Machine.execWrAccAdd ep host s
  | .push ep host => Sys2Proof.Machine.execPush ep host s
  | .bcast ep host => Sys2Proof.Machine.execBcast ep host s
  | .scheduledFrame f => Sys2Proof.Machine.execScheduledFrame f s
  | .timingFrame p roundTripPs pos => Sys2Proof.Machine.execTimingFrame p roundTripPs pos s
  | .deviceFrame p m => Sys2Proof.Machine.execDeviceFrame p m s
  | .fenceFrame p t => Sys2Proof.Machine.execFenceFrame p t s
  | .slot0DeviceFrames => Sys2Proof.Machine.execSlot0DeviceFrames s
  | .linkReplay p => Sys2Proof.Machine.execLinkReplay p s
  | .linkKeyExchange p sig fingerprint shared => Sys2Proof.Machine.execLinkKeyExchange p sig fingerprint shared s
  | .neighborSolicitation p target from_ => Sys2Proof.Machine.execNeighborSolicitation p target from_ s
  | .echoRequest p dst from_ data => Sys2Proof.Machine.execEchoRequest p dst from_ data s
  | .ptpMessage p domain timeNs => Sys2Proof.Machine.execPtpMessage p domain timeNs s
  | .ptpAdopt => Sys2Proof.Machine.execPtpAdopt s
  | .ptpOffsetUpdate => Sys2Proof.Machine.execPtpOffsetUpdate s
  | .laneFailure p lane fecUncorr => Sys2Proof.Machine.execLaneFailure p lane fecUncorr s
  | .laserInputLow p => Sys2Proof.Machine.execLaserInputLow p s
  | .laserFault m => Sys2Proof.Machine.execLaserFault m s
  | .takeOut fn p => Sys2Proof.Machine.execTakeOut fn p s
  | .readmit fn p => Sys2Proof.Machine.execReadmit fn p s
  | .portUp p delayPs => Sys2Proof.Machine.execPortUp p delayPs s
  | .memberLoss m turnsOut => Sys2Proof.Machine.execMemberLoss m s turnsOut
  | .coordinatorLoss => Sys2Proof.Machine.execCoordinatorLoss s
  | .isolatedCoordinatorStop => Sys2Proof.Machine.execIsolatedCoordinatorStop s
  | .noStandbyStop => Sys2Proof.Machine.execNoStandbyStop s
  | .upstreamLoss => Sys2Proof.Machine.execUpstreamLoss s
  | .holdoverLimit => Sys2Proof.Machine.execHoldoverLimit s
  | .spinClkLoss => Sys2Proof.Machine.execSpinClkLoss s
  | .spinSyncEdge => Sys2Proof.Machine.execSpinSyncEdge s
  | .spnEpochWrite fn value => Sys2Proof.Machine.execSpnEpochWrite fn value s
  | .spinClkQualified => Sys2Proof.Machine.execSpinClkQualified s
  | .pllLockTimeout => Sys2Proof.Machine.execPllLockTimeout s
  | .alignRelease => Sys2Proof.Machine.execAlignRelease s
  | .fifoCheck matching => Sys2Proof.Machine.execFifoCheck matching s
  | .cxlTrainingStart => Sys2Proof.Machine.execCxlTrainingStart s
  | .identityDerivation => Sys2Proof.Machine.execIdentityDerivation s
  | .turnBoundary => Sys2Proof.Machine.execTurnBoundary s
  | .ratioSwitch => Sys2Proof.Machine.execRatioSwitch s
  | .refreshWindow ddr unit => Sys2Proof.Machine.execRefreshWindow ddr unit s
  | .powerLoop deciWatts issued => Sys2Proof.Machine.execPowerLoop deciWatts issued s
  | .vddCoreCheck millivolts => Sys2Proof.Machine.execVddCoreCheck millivolts s
  | .thermalLoop temps => Sys2Proof.Machine.execThermalLoop temps s
  | .hotTrip sensor temp => Sys2Proof.Machine.execHotTrip sensor temp s
  | .hotRelease temps => Sys2Proof.Machine.execHotRelease temps s
  | .fastCurrentTrip => Sys2Proof.Machine.execFastCurrentTrip s
  | .vrAlert statusWord rails => Sys2Proof.Machine.execVrAlert statusWord rails s
  | .freezeBegin => Sys2Proof.Machine.execFreezeBegin s
  | .thaw clearedAt => Sys2Proof.Machine.execThaw s clearedAt
  | .heartbeat fn => Sys2Proof.Machine.execHeartbeat fn s
  | .hostLostEntry => Sys2Proof.Machine.execHostLostEntry s
  | .hostLostLimit => Sys2Proof.Machine.execHostLostLimit s
  | .vfEnableChange t mse bme => Sys2Proof.Machine.execVfEnableChange t mse bme s
  | .powerOnReset bbramOk => Sys2Proof.Machine.execPowerOnReset bbramOk s
  | .perstAssert microseconds => Sys2Proof.Machine.execPerstAssert microseconds s
  | .hifResetCold value => Sys2Proof.Machine.execHifResetCold value s
  | .hifResetWarm value => Sys2Proof.Machine.execHifResetWarm value s
  | .coldReset => Sys2Proof.Machine.execColdReset s
  | .warmReset => Sys2Proof.Machine.execWarmReset s
  | .vfFlr t => Sys2Proof.Machine.execVfFlr t s
  | .pf0Flr => Sys2Proof.Machine.execPf0Flr s
  | .tamperTrip sensor => Sys2Proof.Machine.execTamperTrip sensor s
  | .brownOut => Sys2Proof.Machine.execBrownOut s
  | .cxlLinkDown => Sys2Proof.Machine.execCxlLinkDown s
  | .ideKm io cm => Sys2Proof.Machine.execIdeKm io cm s
  | .spdmMessage request => Sys2Proof.Machine.execSpdmMessage request s
  | .hostExchWrite addr data => Sys2Proof.Machine.execHostExchWrite addr data s
  | .hostExchRead addr len ue => Sys2Proof.Machine.execHostExchRead addr len ue s
  | .hifQEnable fn q value => Sys2Proof.Machine.execHifQEnable fn q value s
  | .hifQDisable fn q => Sys2Proof.Machine.execHifQDisable fn q s
  | .hifSqDoorbell fn q tail => Sys2Proof.Machine.execHifSqDoorbell fn q tail s
  | .hifCqDoorbell fn q head => Sys2Proof.Machine.execHifCqDoorbell fn q head s
  | .commandFetch fn qp raw => Sys2Proof.Machine.execCommandFetch fn qp s raw
  | .memMap fn t value => Sys2Proof.Machine.execMemMap fn t value s
  | .memUnmap fn t value => Sys2Proof.Machine.execMemUnmap fn t value s
  | .memProtect fn t value => Sys2Proof.Machine.execMemProtect fn t value s
  | .zeroFill t => Sys2Proof.Machine.execZeroFill t s
  | .memWalkLookup fn t va => Sys2Proof.Machine.execMemWalkLookup fn t va s
  | .memExchWrite value => Sys2Proof.Machine.execMemExchWrite value s
  | .memRetire value ue => Sys2Proof.Machine.execMemRetire value ue s
  | .secChallengeNew => Sys2Proof.Machine.execSecChallengeNew s
  | .secApprovedEnforce => Sys2Proof.Machine.execSecApprovedEnforce s
  | .secKeyQuotaWrite t value => Sys2Proof.Machine.execSecKeyQuotaWrite t value s
  | .liveFieldWrite which value => Sys2Proof.Machine.execLiveFieldWrite which value s
  | .calipersClose => Sys2Proof.Machine.execCalipersClose s
  | .dbgShvPop fn q pop => Sys2Proof.Machine.execDbgShvPop fn q pop s
  | .readClear a => Sys2Proof.Machine.execReadClear a s
  | .registerWrite a => Sys2Proof.Machine.execRegisterWrite a s
  | .accessError a => Sys2Proof.Machine.execAccessError a s
  | .vfWindowMiss a => Sys2Proof.Machine.execVfWindowMiss a s
  | .calHelp => Sys2Proof.Machine.execCalHelp s
  | .calId => Sys2Proof.Machine.execCalId s
  | .calRd offset => Sys2Proof.Machine.execCalRd offset s
  | .calWr offset value => Sys2Proof.Machine.execCalWr offset value s
  | .calSpn => Sys2Proof.Machine.execCalSpn s
  | .calPwr => Sys2Proof.Machine.execCalPwr s
  | .calFw => Sys2Proof.Machine.execCalFw s
  | .calShv q n => Sys2Proof.Machine.execCalShv q n s
  | .calBaud rate => Sys2Proof.Machine.execCalBaud rate s
  | .calipersBreak => Sys2Proof.Machine.execCalipersBreak s
  | .readTemperature1 => Sys2Proof.Machine.execReadTemperature1 s
  | .readPin => Sys2Proof.Machine.execReadPin s
  | .mfrPowerCap watts => Sys2Proof.Machine.execMfrPowerCap watts s
  | .mfrPowerCapRead => Sys2Proof.Machine.execMfrPowerCapRead s
  | .perstDeassert => Sys2Proof.Machine.execPerstDeassert s
  | .cxlLinkUp width fast => Sys2Proof.Machine.execCxlLinkUp width fast s
  | .trngHealthFail adaptive => Sys2Proof.Machine.execTrngHealthFail adaptive s
  | .ethFrameDrop p why => Sys2Proof.Machine.execEthFrameDrop p why s
  | .vectorUnmask fn vector => Sys2Proof.Machine.execVectorUnmask fn vector s
  | .jtagAccess op => Sys2Proof.Machine.execJtagAccess op s

end Sys2Proof.Machine
end

