-- ==== Sys2Proof/Machine/Cipher.lean ====
section
/-! DEFINITION. Machine/Cipher.lean: what the memory devices hold of the data that `State.ram` records in the clear: data units,
tweaks, keys and DDR5 tags (R376, R401 to R404). Every access of the engine goes through it in both directions under the same key,
so no operation of the engine sees a ciphertext, and a key that is destroyed takes its pages with it (R24, R408). -/

namespace Sys2Proof.Machine

/-- Bytes of an XTS data unit: 64 in HBM, 256 in DDR5 (R402). -/
def unitBytes (tier : Nat) : Nat := if tier = 1 then 64 else 256

/-- The device physical address of the data unit that holds a byte. -/
def unitBase (tier phys : Nat) : Nat := phys / unitBytes tier * unitBytes tier

/-- The tweak of a data unit: its device physical address as a 128-bit little-endian value (R402). -/
def unitTweak (tier phys : Nat) : List Byte := leBytes 16 (unitBase tier phys)

/-- The IV of a DDR5 block's tag: its physical address, 8 bytes little-endian, and 4 zero bytes (R403). -/
def tagIv (phys : Nat) : List Byte := leBytes 8 (unitBase 2 phys) ++ leBytes 4 0

/-- The keys that guard a data unit: the two halves of the XTS key, and the GMAC key of a DDR5 block. -/
structure UnitKeys where
  first : Nat
  second : Nat
  mac : Nat
  deriving DecidableEq, Repr

/-- The device keys of the reservation, and of the exchange frames, of this generation (R377, R379, R402). -/
def State.deviceKeys (s : State) (exch : Bool) : UnitKeys :=
  let i := if exch then 3 else 0
  { first := Config.deviceKey s.mem.keyGen i, second := Config.deviceKey s.mem.keyGen (i + 1),
    mac := Config.deviceKey s.mem.keyGen (i + 2) }

/-- The keys of a tenant's page: the key set of the page's epoch, the previous set where the sweep has not reached it (R401, R406). -/
def State.pageKeys (s : State) (t : Nat) (p : Page) : UnitKeys :=
  let k := s.tierKey t (p.tier - 1)
  let l := if p.epoch = k.epoch then k.cur else k.prev
  { first := (s.key (l.getD 0 0)).value, second := (s.key (l.getD 1 0)).value, mac := (s.key (l.getD 2 0)).value }

/-- A physical address lies in the exchange window (R379). -/
def State.inExchange (s : State) (tier phys : Nat) : Bool :=
  tier == 2 && decide (s.exchBase ≤ phys) && decide (phys < s.exchBase + s.mem.exch * 2 ^ 21)

/-- The keys of the data unit at a physical address: an exchange frame under the exchange key, a mapped page under its tenant's, the rest of
the device reservation under the device keys; none where no page holds the frame, for a returned or free frame is read by nobody
(R386, R402, R412). -/
def State.unitKeys (s : State) (tier phys : Nat) : Option UnitKeys :=
  if s.inExchange tier phys then some (s.deviceKeys true)
  else
    match s.pageOfFrame tier (phys / 65536) with
    | some e => some (s.pageKeys (e.1 / 2 ^ 33) e.2)
    | none => if phys / 65536 < s.firstFrame tier then some (s.deviceKeys false) else none

/-- The clear bytes of the data unit at a physical address. -/
def State.unitPlain (s : State) (tier phys : Nat) : List Byte :=
  (List.range (unitBytes tier)).map (fun i => s.ramByte (ramKey tier (unitBase tier phys + i)))

/-- The ciphertext that the memory holds of the data unit at a physical address: AES-256-XTS under the unit's keys (R376, R402). -/
def State.storedUnit (s : State) (tier phys : Nat) : Option (List Byte) :=
  (s.unitKeys tier phys).map (fun k => Config.xts k.first k.second (unitTweak tier phys) (s.unitPlain tier phys))

/-- The 64-bit tag that the tag area holds for a DDR5 block: the first 8 bytes of the GMAC over its ciphertext (R377, R403). -/
def State.storedTag (s : State) (phys : Nat) : Option (List Byte) :=
  (s.unitKeys 2 phys).bind (fun k => (s.storedUnit 2 phys).map (fun c => (Config.gmac k.mac (tagIv phys) c).take 8))

end Sys2Proof.Machine
end

