-- ==== Sys2Proof/WellFormed.lean ====
section
/-! DEFINITION. WellFormed.lean: the operands that the encodings of the spec admit: the widths and ranges of the fields of a host command
(R531), a cell instruction (R216 to R220), a register access (R17), a client message (R244), an Etkai packet (R426). A row that is an
event without such fields is always well formed. -/

namespace Sys2Proof

/-- A value fits in `w` bits. -/
def fits (w v : Nat) : Bool := decide (v < 2 ^ w)

/-- A host command's fields have the widths of R531. -/
def Cmd.wf (c : Cmd) : Bool :=
  fits 16 c.cid && fits 32 c.rsvd && fits 8 c.tenant && fits 64 c.addr && fits 64 c.len && fits 64 c.a0 && fits 64 c.a1 &&
  fits 64 c.a2 && fits 64 c.a3 && fits 64 c.a4

/-- An address operand's offset has 22 bits (R217). -/
def AddrOp.wf (a : AddrOp) : Bool := fits 22 a.off

/-- A count from 1 to a limit (R219). -/
def counted (limit n : Nat) : Bool := decide (1 ≤ n ∧ n ≤ limit)

/-- A control instruction signals no token (R216). -/
def CellAt.ctl (c : CellAt) : Bool := c.sig.isNone

/-- A register access lies in BAR0, moves 1, 2, 4 or 8 bytes, and writes a value of that size (R16, R17). -/
def RegAccess.wf (a : RegAccess) : Bool := fits 26 a.offset && [1, 2, 4, 8].contains a.size && fits (8 * a.size) a.value

/-- An access that R17 allows: 64 bits, aligned. -/
def RegAccess.aligned (a : RegAccess) : Bool := a.size == 8 && a.offset % 8 == 0

/-- A client message has a header of 64 bytes (R244). -/
def ClientMsg.wf (m : ClientMsg) : Bool := m.head.length == 64

/-- An Etkai packet has a header of 48 bytes and carries at most 4,096 bytes (R426). -/
def PacketIn.wf (p : PacketIn) : Bool := p.head.length == 48 && decide (p.payload.length ≤ 4096)

/-- A SCHEDULED frame names members, its format byte and a payload of at most 4,096 bytes (R418, R449). -/
def SchedFrame.wf (f : SchedFrame) : Bool :=
  fits 16 f.dstMember && fits 16 f.srcMember && fits 8 f.format && fits 32 f.regionKey && fits 64 f.offset && decide (f.data.length ≤ 4096)

/-- A committee reply's fields have the widths of R366. -/
def ExitReplyMsg.wf (r : ExitReplyMsg) : Bool :=
  fits 8 r.kind && fits 1 r.bit && fits 64 r.requestId && fits 384 r.fingerprint && fits 32 r.payloadLength

/-- The operands of a cell instruction lie in the fields of R219. -/
def Instr.cellFields : Instr → Bool
  | .nop c count => c.ctl && fits 16 count
  | .halt c => c.ctl
  | .jump c target => c.ctl && fits 12 target
  | .loop c last csrc imm => c.ctl && fits 12 last && (if csrc = 0 then counted (2 ^ 32 - 1) imm else imm == 0)
  | .brank c target _ value => c.ctl && fits 12 target && fits 6 value
  | .wait c _ _ count => c.ctl && counted 65535 count
  | .signal c _ count => c.ctl && counted 65535 count
  | .gsync c => c.ctl
  | .smovi c _ _ => c.ctl
  | .salu c _ _ _ func _ _ => c.ctl && decide (func.val < 8)
  | .srank c _ _ => c.ctl
  | .gopen _ desc => desc.wf
  | .gclose _ _ out fused _ dst record operand _ =>
    decide (out.val < 3) && decide (fused.val < 6) && dst.wf && record.wf && operand.wf
  | .accld _ _ _ _ slots src => counted 16 slots && src.wf
  | .accst _ _ _ _ slots dst => counted 16 slots && dst.wf
  | .mma _ _ _ _ mode aCt a b k =>
    decide (mode.val < 14) && (!aCt || decide (mode.val < 2)) && a.wf && b.wf && counted 4096 k &&
    (!(decide (3 ≤ mode.val) && decide (mode.val ≤ 10)) || k % 4 == 0)
  | .ewadd _ _ _ _ passes _ src => counted 16 passes && src.wf
  | .mask _ _ _ _ passes _ _ => counted 16 passes
  | .vld _ _ src => src.wf
  | .vst _ _ dst => dst.wf
  | .vop _ _ _ _ func paired _ _ _ =>
    decide (func.val < 28) && func.val != 15 && (!(decide (18 ≤ func.val) && decide (func.val ≤ 22)) || paired)
  | .vred _ _ _ func _ => decide (func.val < 3)
  | .move _ src dst blocks transpose => src.wf && dst.wf && counted 16384 blocks && (!transpose || blocks % 16 == 0)
  | .send _ _ _ _ src dst beats => src.wf && dst.wf && counted 65535 beats
  | .feed _ _ _ desc => desc.wf
  | _ => true

/-- The host command that a row carries. -/
def Instr.cmd? : Instr → Option Cmd
  | .jigLoad c _ | .jigEdit c _ | .jigCommit c _ _ | .fwLoad c _ _ | .tenantCreate c _ | .tenantRemove c | .quotaSet c
  | .regionRegister c | .regionDeregister c | .regionRekey c | .endpointCreate c | .endpointPark c | .endpointUnpark c
  | .dmaSubmit c | .progLoad c | .progStart c | .barrierArm c _ | .roundOpen c _ | .roundSetDeadline c | .roundUnmask c
  | .roundCommit c | .roundRelease c _ | .roundAbort c | .keyGenerate c | .keyImport c | .keyDestroy c | .keyAttest c
  | .keyRotateMem c | .ctRegisterParams c | .ctRegisterDescriptor c | .ctRegisterPlan c | .ctRegisterExit c | .releaseParams c
  | .releaseDescriptor c | .releaseEvk c | .releasePlan c | .evkRegister c _ | .ringMacro c | .lifecycleAdvance c _
  | .attestDevice c | .attestAssembly c | .attach c | .powerLimitSet c | .calUserLoad c _ | .shavingsConfig c => some c
  | _ => none

/-- The operands of the rows that carry a message, a packet, a frame, an access or an image. -/
def Instr.carried : Instr → Bool
  | .contrib _ m _ => m.wf
  | .keyex _ head _ _ _ | .abortMsg _ head _ _ _ | .contribMirror head _ | .shareMirror head _ => head.length == 64
  | .share _ text _ => text.head.length == 64
  | .etkaiSendPacket p | .etkaiWritePacket p | .etkaiWriteNotifyPacket p | .etkaiAccAddPacket p => p.wf
  | .scheduledFrame f => f.wf
  | .exitReply _ r => r.wf
  | .readClear a | .registerWrite a => a.wf && a.aligned
  | .accessError a => a.wf && !a.aligned
  | .vfWindowMiss a => a.wf && a.aligned && a.fn.val != 0
  | .epSqTail _ _ tail | .epRqTail _ _ tail => fits 12 tail
  | .epCqHead _ _ head => fits 13 head
  | .hifSqDoorbell _ _ tail => fits 12 tail
  | .hifCqDoorbell _ _ head => fits 12 head
  | .commandFetch _ _ raw => raw.length == 64
  | _ => true

/-- An instruction whose operands the encodings of the spec admit. -/
def Instr.wf (i : Instr) : Bool := i.cellFields && (match i.cmd? with | some c => c.wf | none => true) && i.carried

end Sys2Proof
end

