-- ==== Sys2Proof/Safety.lean ====
section
/-! DEFINITION. Safety.lean: the conditions and invariants in which the statements are written: when a command passes the checks that all
commands share, what every step keeps, and the canonical form of the memories. -/

namespace Sys2Proof

/-- The canonical form of a byte memory: addresses strictly rising, no byte equal to 0, which an unlisted address reads as. -/
def Memory.wf (m : List Host.Cell) : Bool := Tab.wf 0 m

namespace Machine

/-- The command passes the checks of R532 and R568, its VF's tenant is not gone (R455), and the engine is not frozen (R90, R91). -/
def State.accepts (s : State) (op : Nat) (c : Cmd) : Bool := s.general op c == none && !s.gone c && !s.frozen

/-- The command is refused with a status and nothing else changes (R8): its completion is all that the state gains. -/
def State.refuses (s : State) (c : Cmd) (st : Status) : Host.Outcome State Fault Refusal := .next (s.fail c st)

/-- The state with its queue set aside. -/
def State.withQueue (s : State) (q : List Instr) : State := { s with pending := q }

end Machine

end Sys2Proof
end

