-- ==== Sys2Proof/Certificates/Slice0/Obligations.lean ====
section
/-! DEFINITION. Certificates/Slice0/Obligations.lean: the statements about the model, by families of commands and kinds of state. -/

open Sys2Proof Sys2Proof.Machine

/-- Command c at the front of the queue: one step of s is exec of c on s with the queue's rest. An empty queue lets one Spindle tick pass (R50): where
the position counts it rises by one, and what waits for a slot, a budget or a port is then served (R64, R70, R199, R201, R424); where nothing waits -
no frame, no packet to send, no program load, no key transfer, no program to start - nothing else changes. A position that does not count changes
nothing. That a tick is what an empty queue does is the model's choice (notes/assumptions/6.md). -/
def Obligations.EveryStepServesTheFrontOrLetsATickPass : Prop :=
  (∀ (s : State) (c : Instr) (rest : List Instr), s.pending = c :: rest → step s = exec c { s with pending := rest }) ∧
  (∀ s : State, s.pending = [] → s.counting = true →
    step s = .next (State.serve { s with spn := { s.spn with pos := (s.spn.pos + 1) % 2 ^ 64 } })) ∧
  (∀ s : State, s.pending = [] → s.counting = false → step s = .next s) ∧
  (∀ s : State, s.waiting = [] → s.loads = [] → s.ring.evkJobs = [] → (∀ r ∈ s.progs, r.begun = true) →
    (∀ x ∈ s.fab.eps, ∀ m ∈ x.2.sends, m.unsent = []) → s.serve = s)

/-- Every command in every state answers a next state, and leaves the commands that wait behind it as they were. -/
def Obligations.EveryCommandCompletesAndLeavesTheQueue : Prop :=
  ∀ (c : Instr) (s : State), ∃ t, exec c s = .next t ∧ t.pending = s.pending

/-- R26: a trip of an armed sensor enters TAMPERED with its cause bit set and the root secret zeroed, and no step leaves TAMPERED: no reset, no
command, no event. -/
def Obligations.TamperTripEntersTamperedAndNoStepLeavesIt : Prop :=
  (∀ (x : Sensor) (s : State), s.sensing x = true → s.sec.lifecycle.live = true →
    ∃ t, exec (.tamperTrip x) s = .next t ∧ t.sec.lifecycle = .tampered ∧ bitAt t.sec.tamperCause (x.bit - 1) = true ∧
      t.sec.rootSecret = 0 ∧ t.sec.keys = [] ∧ t.spn.stopped = true ∧
      ∀ c, c < 64 → (t.cell c).clearing = true) ∧
  (∀ s t : State, s.sec.lifecycle = .tampered → step s = .next t → t.sec.lifecycle = .tampered)

/-- The canonical form of HBM and DDR is kept by every step: addresses strictly rising and no entry equal to what an unlisted address reads as, so
that equal memories are equal data. -/
def Obligations.EveryStepKeepsDeviceMemoryCanonical : Prop :=
  ∀ s t : State, Memory.wf s.ram = true → step s = .next t → Memory.wf t.ram = true

/-- The OTP anti-rollback counter never falls, whatever the step (R500). -/
def Obligations.AntiRollbackCounterNeverFalls : Prop :=
  ∀ s t : State, step s = .next t → s.sec.otpSvn ≤ t.sec.otpSvn

/-- The life-cycle state changes only by LIFECYCLE_ADVANCE along a transition of R485, or into TAMPERED (R482). -/
def Obligations.LifecycleMovesOnlyAlongItsTransitions : Prop :=
  ∀ (c : Instr) (s t : State), exec c s = .next t → t.sec.lifecycle ≠ s.sec.lifecycle →
    t.sec.lifecycle = .tampered ∨
    ∃ (k : Cmd) (sig : SigPair), c = .lifecycleAdvance k sig ∧ (advanceNeeds s.sec.lifecycle t.sec.lifecycle).isSome = true

/-- The state after reset meets the invariants that the steps keep, its queue is empty and PERST# holds it in reset. The registers whose value after
a cold reset the spec gives and which is not 0, read by the host driver: RATIO 33 and k 13 (R95), power limits of 450 W and DUTY 8 with PATTERN 0xFF
(R520), Shavings thresholds of 1 with full masks (R517, R521), the translation-fault limit of 65,536 turns (R414), a key quota of 120 (R496), a
descriptor limit of 512 (R349), queue sizes of 16 entries with phase 1 (R542), an absent peer on every port (R453), no tenant on any cell (R153). -/
def Obligations.ResetLeavesWhatTheSpecGives : Prop :=
  (Memory.wf State.reset.ram = true ∧ State.reset.sec.lifecycle ≠ .tampered ∧ State.reset.pending = [] ∧ State.reset.perst = true ∧
  State.reset.counting = false) ∧
  (let rd := fun r i c => State.reset.regValue 0 r i c
  bits (rd .spnStatus 0 0) 8 8 = 33 ∧ bits (rd .spnConfig 0 0) 0 5 = 13 ∧
  bits (rd .pwrLimit 0 0) 0 11 = 450 ∧ bits (rd .pwrLimit 0 0) 32 11 = 450 ∧
  (∀ i, i < 64 → bits (rd .pwrGrant i 0) 0 4 = 8 ∧ bits (rd .pwrGrant i 0) 8 8 = 0xFF) ∧
  (∀ i, i < 9 → bits (rd .dbgShvConfig i 0) 0 32 = 0xFFFFFFFF ∧ bits (rd .dbgShvConfig i 0) 38 13 = 1 ∧
    bits (rd .dbgShvStatus i 0) 13 1 = 1) ∧
  rd .memFaultLimit 0 0 = 65536 ∧ (∀ i, i < 8 → bits (rd .secKeyQuota i 0) 0 10 = 120 ∧ bits (rd .ringTenant i 0) 16 13 = 512) ∧
  (∀ i, i < 128 → bits (rd .hifQCfg i 0) 0 4 = 4 ∧ bits (rd .hifQCfg i 0) 4 4 = 4 ∧ bits (rd .hifQStatus i 0) 24 1 = 1) ∧
  (∀ i, i < 16 → bits (rd .fabPortStatus i 0) 16 16 = 0xFFFF) ∧ (∀ c, c < 64 → bits (rd .celStatus 0 c) 0 4 = 8) ∧
  bits (rd .secKeyStatus 0 0) 0 10 = 960)

/-- Ending a command (R512, R536, R541): outside HOST_LOST and without a function-level reset its completion is posted at the tail of its queue with
the phase of this pass and as the 32 bytes of R536, the tail moves on by one entry, the phase turns over at the end of the queue, and the interrupt
fires where the queue was empty; in HOST_LOST the completion is held at the end of the list. Its flags are those given, with VARIED where an OK command
has read a block in the HOST tier (R76). Nothing outside the host interface changes. An event enters the queue whose mask takes its class (R515 to R517)
with the current position, and the queue's SEQ rises by one; with room nothing is lost; a full queue loses its oldest entry and adds 1 to LOST. It
stands at the end with the next SEQ, but before an event of the same position and a higher class, which then has the higher SEQ. Only that queue and the
interrupts change, and a class the mask leaves out changes nothing. -/
def Obligations.CompletionsArePostedAndEventsEnterTheirQueues : Prop :=
  (∀ (s : State) (c : Cmd) (st : Status) (r0 r1 flags : Nat),
    let t := s.complete c st r0 r1 flags
    let q := s.queue c.fn.val c.qp.val
    t = { s with hif := t.hif } ∧
    (s.hif.discard.contains (16 * c.fn.val + c.qp.val, c.cid) = false → s.dbg.host.lost = true →
      t.hif.posted = s.hif.posted ∧ ∃ k, t.hif.held = s.hif.held ++ [k] ∧ k.cid = c.cid ∧ k.status = st ∧
        k.flags = s.cmdFlags c st flags ∧ k.result0 = r0 % 2 ^ 64 ∧ k.result1 = r1 % 2 ^ 64) ∧
    (s.hif.discard.contains (16 * c.fn.val + c.qp.val, c.cid) = false → s.dbg.host.lost = false →
      t.hif.held = s.hif.held ∧
      (∃ k, t.hif.posted = k :: s.hif.posted ∧ k.fn = c.fn.val ∧ k.qp = c.qp.val ∧ k.cid = c.cid ∧ k.status = st ∧
        k.flags = s.cmdFlags c st flags ∧ k.index = q.cqTail ∧ k.phase = q.phase ∧ k.result0 = r0 % 2 ^ 64 ∧ k.result1 = r1 % 2 ^ 64 ∧
        k.entry = leBytes 2 c.cid ++ leBytes 1 st.code ++ leBytes 1 (s.cmdFlags c st flags) ++ leBytes 1 c.qp.val ++ leBytes 1 0 ++
          leBytes 2 k.sqHead ++ leBytes 8 r0 ++ leBytes 8 r1 ++ leBytes 7 0 ++ leBytes 1 (if q.phase then 1 else 0)) ∧
      ((q.ien && q.cqHead == q.cqTail) = true →
        t.hif.irqs = (c.fn.val, q.vector) :: s.hif.irqs ∨ Tab.look false t.hif.pba (64 * c.fn.val + q.vector) = true)) ∧
    (st ≠ .ok ∨ c.len = 0 ∨ s.onHost (cmdActs c) c.addr c.len = false → s.cmdFlags c st flags = flags) ∧
    (s.onHost (cmdActs c) c.addr c.len = true → c.len ≠ 0 → bitAt (s.cmdFlags c .ok flags) 0 = true)) ∧
  (∀ (s : State) (q cls status source detail : Nat),
    let t := s.event q cls status source detail
    (bitAt (s.shvMask q) cls = false → t = s) ∧
    (bitAt (s.shvMask q) cls = true →
      t = { s with hif := { s.hif with irqs := t.hif.irqs, heldIrqs := t.hif.heldIrqs, pba := t.hif.pba },
                   dbg := { s.dbg with shv := t.dbg.shv } } ∧
      ∃ e, e.cls = cls ∧ e.status = status ∧ e.source = source ∧ e.detail = detail ∧ e.seq = (s.shv q).seq ∧ e.position = s.pos ∧
        e.underrun = false ∧ t.dbg.shv = Tab.put {} s.dbg.shv q ((s.shv q).enter e))) ∧
  (∀ (q : ShvQueue) (e : Shaving),
    (q.entries.length < 4096 → (q.enter e).entries.length = q.entries.length + 1 ∧
      q.enter e = { q with entries := (q.enter e).entries, seq := (q.seq + 1) % 2 ^ 32 }) ∧
    (q.entries.length = 4096 → (q.enter e).entries.length = 4096 ∧
      q.enter e = { q with entries := (q.enter e).entries, seq := (q.seq + 1) % 2 ^ 32,
                           lost := if q.lost + 1 < 2 ^ 16 then q.lost + 1 else 2 ^ 16 - 1 }) ∧
    (∀ kept, kept = (if q.entries.length < 4096 then q.entries else q.entries.drop 1) →
      ((∀ x, kept.getLast? = some x → x.position ≠ e.position ∨ x.cls ≤ e.cls) → (q.enter e).entries = kept ++ [e]) ∧
      (∀ l x, kept = l ++ [x] → x.position = e.position → e.cls < x.cls →
        (∀ y, l.getLast? = some y → y.position ≠ e.position ∨ y.cls ≤ e.cls) →
        (q.enter e).entries = l ++ [{ e with seq := x.seq }, { x with seq := e.seq }])))

/-- What every command is checked for before its own checks, in this order (R532, R568; TENANT_GONE for a VF whose tenant is gone, R455): TAMPER,
CFG_LOCKED in LOAD_WAIT but for FW_LOAD, INSTR_ILLEGAL for an undefined opcode, BOUNDS for reserved and unused bits that are not 0, RIGHTS where a VF
issues a command of PF0, BOUNDS where the host driver names a tenant above 7 or, for a command of the engine, one but 0. A refused command changes
nothing but its completion. In TAMPERED every host command is refused with TAMPER and changes nothing but its completion, whichever command it is,
FW_LOAD included (R483). While the engine is frozen no command is served: it changes nothing (R90, R91). -/
def Obligations.GeneralChecksComeFirstAndInOrder : Prop :=
  ((∀ (s : State) (c : Cmd) (img : JigImage) (recs : List EditMeaning) (sig : SigPair) (signed : Digest × Nat × Nat) (bad : Bool) (away : List Nat), let all := 18446744073709551615
    ∀ x ∈ ([(0x01, .jigLoad c img, []), (0x02, .jigEdit c recs, []), (0x03, .jigCommit c sig signed, [all, all, 1]), (0x08, .fwLoad c bad sig, []), (0x10, .tenantCreate c bad, []),
      (0x11, .tenantRemove c, []), (0x12, .quotaSet c, [all]), (0x20, .regionRegister c, []), (0x21, .regionDeregister c, [all]), (0x22, .regionRekey c, [all]), (0x28, .endpointCreate c, []),
      (0x29, .endpointPark c, [all]), (0x2A, .endpointUnpark c, [all]), (0x30, .dmaSubmit c, [all]), (0x40, .progLoad c, [all]), (0x41, .progStart c, [4294967295, all, all, all, all]),
      (0x42, .barrierArm c away, [all]), (0x50, .roundOpen c away, [288230376151711743, all, all]), (0x51, .roundSetDeadline c, [all, all]), (0x52, .roundUnmask c, [all]), (0x53, .roundCommit c, [all]),
      (0x54, .roundRelease c bad, [all]), (0x55, .roundAbort c, [all]), (0x60, .keyGenerate c, [0x0F1FFFFF]), (0x61, .keyImport c, [0x0F1FFFFF]), (0x62, .keyDestroy c, [all]),
      (0x63, .keyAttest c, [all, all, all, all, all]), (0x64, .keyRotateMem c, [all]), (0x70, .ctRegisterParams c, [all, all]), (0x70, .ctRegisterDescriptor c, [all, all]),
      (0x70, .ctRegisterPlan c, [all, all]), (0x70, .ctRegisterExit c, [all, all]), (0x70, .releaseParams c, [all, all]), (0x70, .releaseDescriptor c, [all, all]), (0x70, .releaseEvk c, [all, all]),
      (0x70, .releasePlan c, [all, all]), (0x71, .evkRegister c bad, []), (0x72, .ringMacro c, []), (0x80, .lifecycleAdvance c sig, [all]), (0x81, .attestDevice c, [all, all, all, all, all]),
      (0x82, .attestAssembly c, []), (0x83, .attach c, [all, all, all, all, all]), (0x90, .powerLimitSet c, [all]), (0x91, .calUserLoad c sig, []), (0xA0, .shavingsConfig c, [all, all, all, all])] :
      List (Nat × Instr × List Nat)),
      let unused := c.rsvd ≠ 0 ∨ ∃ a ∈ [(c.a0, 0), (c.a1, 1), (c.a2, 2), (c.a3, 3), (c.a4, 4)], Nat.land a.1 (x.2.2.getD a.2 0) ≠ a.1
      let host := x.1 ∈ [0x01, 0x02, 0x03, 0x08, 0x10, 0x11, 0x12, 0x80, 0x83, 0x90, 0x91]
      let engine := x.1 ∈ [0x01, 0x02, 0x03, 0x08, 0x80, 0x82, 0x83, 0x90, 0x91, 0xA0]
      let tenant := (s.tenant c.fn.val).state
      (s.frozen = true → exec x.2.1 s = .next s) ∧
      (s.frozen = false → s.sec.lifecycle = .tampered → exec x.2.1 s = s.refuses c .tamper) ∧
      (s.frozen = false → s.sec.lifecycle ≠ .tampered → s.dbg.fw.state = .loadWait → x.1 ≠ 0x08 → exec x.2.1 s = s.refuses c .cfgLocked) ∧
      (s.frozen = false → s.sec.lifecycle ≠ .tampered → (s.dbg.fw.state ≠ .loadWait ∨ x.1 = 0x08) →
        (unused → exec x.2.1 s = s.refuses c .bounds) ∧
        (¬unused → host → c.fn ≠ 0 → exec x.2.1 s = s.refuses c .rights) ∧
        (¬unused → c.fn = 0 → (if engine then c.tenant ≠ 0 else 7 < c.tenant) → exec x.2.1 s = s.refuses c .bounds) ∧
        (¬unused → ¬host → c.fn ≠ 0 → (tenant = .absent ∨ tenant = .removing) → exec x.2.1 s = s.refuses c .tenantGone))) ∧
  (∀ (s : State) (fn : FnId) (qp : PortId) (raw : List Byte), s.frozen = false → s.dbg.host.lost = false → s.nextFetch = some (fn.val, qp.val) →
    s.sec.lifecycle ≠ .tampered → s.dbg.fw.state ≠ .loadWait → (cmdOfBytes fn qp raw).1 ∉ [0x01, 0x02, 0x03, 0x08, 0x10, 0x11, 0x12, 0x20, 0x21, 0x22, 0x28, 0x29, 0x2A, 0x30, 0x40, 0x41, 0x42, 0x50, 0x51, 0x52, 0x53, 0x54, 0x55, 0x60, 0x61, 0x62, 0x63, 0x64, 0x70, 0x71, 0x72,
      0x80, 0x81, 0x82, 0x83, 0x90, 0x91, 0xA0] →
    ∃ u : State, u = { s with hif := u.hif } ∧ exec (.commandFetch fn qp raw) s = .next (u.fail (cmdOfBytes fn qp raw).2 .instrIllegal))) ∧
  (∀ (i : Instr) (c : Cmd) (s : State), s.frozen = false → s.sec.lifecycle = .tampered → i.cmd? = some c →
    exec i s = s.refuses c .tamper)

/-- COMMAND_FETCH outside HOST_LOST (R529): the head entry of the queue whose turn it is leaves the queue, is noted in flight, and the round-robin
goes on behind it; a queue whose turn it is not changes nothing, and nothing is fetched during a freeze (R90). In HOST_LOST only an ATTACH at the head
of PF0 queue 0 is fetched (R512). The 64 bytes of a command spell its opcode and fields at the offsets of R531. -/
def Obligations.FetchTakesTheQueueWhoseTurnItIs : Prop :=
  (∀ (s : State) (fn : FnId) (qp : PortId) (raw : List Byte), s.frozen = false → s.general (cmdOfBytes fn qp raw).1 (cmdOfBytes fn qp raw).2 = none →
    (if s.dbg.host.lost then fn = 0 ∧ qp = 0 ∧ (cmdOfBytes fn qp raw).1 = 0x83 ∧ (s.queue 0 0).fetchable = true
      else s.nextFetch = some (fn.val, qp.val)) →
    let c := (cmdOfBytes fn qp raw).2
    let q := s.queue c.fn.val c.qp.val
    let head := (q.sqHead + 1) % q.sqEntries
    let t := s.setQueue c.fn.val c.qp.val { q with sqHead := head, inflight := q.inflight + 1 }
    exec (.commandFetch fn qp raw) s = .next { t with hif := { t.hif with
      fetched := s.hif.fetched ++ [(c.fn.val, c.qp.val, c.cid, head)], nextFn := (c.fn.val + 1) % 8,
      nextQueue := Tab.put 0 s.hif.nextQueue c.fn.val ((c.qp.val + 1) % 16) } }) ∧
  (∀ (s : State) (fn : FnId) (qp : PortId) (raw : List Byte), s.frozen = true ∨ (s.dbg.host.lost = false ∧ s.nextFetch ≠ some (fn.val, qp.val)) ∨
    (s.dbg.host.lost = true ∧ (fn ≠ 0 ∨ qp ≠ 0 ∨ (cmdOfBytes fn qp raw).1 ≠ 0x83)) → exec (.commandFetch fn qp raw) s = .next s) ∧
  (∀ (op : Nat) (c : Cmd), op < 256 → c.wf = true →
    cmdOfBytes c.fn c.qp (leBytes 1 op ++ leBytes 1 (c.rsvd % 256) ++ leBytes 2 c.cid ++ leBytes 1 c.tenant ++ leBytes 3 (c.rsvd / 256) ++
      leBytes 8 c.addr ++ leBytes 8 c.len ++ leBytes 8 c.a0 ++ leBytes 8 c.a1 ++ leBytes 8 c.a2 ++ leBytes 8 c.a3 ++ leBytes 8 c.a4) =
      (op, { c with host := [] }))

/-- The queue-pair registers (R528 to R530): a well-formed ENABLE puts the pair in use from its first entry on with phase 1, a write to an enabled
pair or with CQ_ENTRIES below SQ_ENTRIES is discarded with an event; ENABLE 0 stops the pair and marks it draining while commands are in flight; a
doorbell in range sets its tail or head, one out of range is discarded with an event. -/
def Obligations.QueuePairRegistersActAsR528ToR530 : Prop :=
  ∀ (s : State) (fn : FnId) (n : PortId), s.sec.lifecycle ≠ .tampered →
    let q := s.queue fn.val n.val
    (∀ v : Word64, q.enable = false → q.draining = false → q.sqUnaligned = false → q.cqUnaligned = false →
      4 ≤ bits v.toNat 0 4 → bits v.toNat 0 4 ≤ bits v.toNat 4 4 → bits v.toNat 4 4 ≤ 12 →
      exec (.hifQEnable fn n v) s = .next (s.setQueue fn.val n.val { q with
        sqLog := bits v.toNat 0 4, cqLog := bits v.toNat 4 4, vector := bits v.toNat 8 6, ien := bitAt v.toNat 14, enable := true,
        sqHead := 0, sqTail := 0, cqTail := 0, cqHead := 0, phase := true })) ∧
    (∀ v : Word64, q.enable = true ∨ bits v.toNat 4 4 < bits v.toNat 0 4 ∨ q.sqUnaligned = true ∨ q.cqUnaligned = true →
      exec (.hifQEnable fn n v) s = .next (s.discarded fn.val (0x1010 + 0x40 * (16 * fn.val + n.val)) v.toNat)) ∧
    exec (.hifQDisable fn n) s = .next (s.setQueue fn.val n.val { q with enable := false, draining := decide (0 < q.inflight) }) ∧
    (∀ v, v % 4096 < 2 ^ q.sqLog → exec (.hifSqDoorbell fn n v) s = .next (s.setQueue fn.val n.val { q with sqTail := v % 4096 })) ∧
    (∀ v, 2 ^ q.sqLog ≤ v % 4096 →
      exec (.hifSqDoorbell fn n v) s = .next (s.discarded fn.val (0x1018 + 0x40 * (16 * fn.val + n.val)) v)) ∧
    (∀ v, v % 4096 < 2 ^ q.cqLog →
      (v % 4096 + 2 ^ q.cqLog - q.cqHead) % 2 ^ q.cqLog ≤ (q.cqTail + 2 ^ q.cqLog - q.cqHead) % 2 ^ q.cqLog →
      exec (.hifCqDoorbell fn n v) s = .next (s.setQueue fn.val n.val { q with cqHead := v % 4096 }))

/-- The other rows of the host interface: HEARTBEAT from PF0 notes the position and from a VF changes nothing (R511); HIF_RESET with CONFIRM 0xC01D
makes a COLD reset due, or a WARM reset at the next turn boundary, and any other CONFIRM is discarded with an event (R540); unmasking a vector fires
one that is noted in the PBA (R539); the link comes up after alignment (R552), and drops both IDE streams when it goes down and when it has trained again (R524); IDE keys take
effect inside an SPDM session only, which FINISH opens (R523, R524). The exchange window (R526): a host write within the window to a page that is not
locked, or to no page, writes those bytes of DDR5 and nothing else; a write to a locked page is dropped, counted and raises a DISCARDED event; a read
without an error returns the bytes and leaves the state, but for what has left the engine; outside the window nothing happens. -/
def Obligations.HostInterfaceEventsAndTheExchangeWindow : Prop :=
  ((∀ (s : State) (fn : FnId), s.sec.lifecycle ≠ .tampered →
    exec (.heartbeat fn) s =
      .next (if fn = 0 then { s with dbg := { s.dbg with host := { s.dbg.host with lastBeat := s.pos } } } else s)) ∧
  (∀ (s : State) (v : Word64), s.sec.lifecycle ≠ .tampered → bits v.toNat 48 16 = 0xC01D →
    exec (.hifResetCold v) s = .next { s with coldDue := true } ∧
    exec (.hifResetWarm v) s = .next { s with warmAt := some (s.warmAt.getD ((s.pos / 2 ^ s.spn.k + 1) * 2 ^ s.spn.k)) }) ∧
  (∀ (s : State) (v : Word64), s.sec.lifecycle ≠ .tampered → bits v.toNat 48 16 ≠ 0xC01D →
    exec (.hifResetCold v) s = .next (s.discarded 0 0x8 v.toNat) ∧ exec (.hifResetWarm v) s = .next (s.discarded 0 0x8 v.toNat)) ∧
  (∀ (s : State) (fn : FnId) (n : Fin 64), ∃ t, exec (.vectorUnmask fn n) s = .next t ∧
    t.hif.unmasked = Tab.put false s.hif.unmasked (64 * fn.val + n.val) true ∧ t = { s with hif := t.hif } ∧
    (Tab.look false s.hif.pba (64 * fn.val + n.val) = false →
      t.hif.irqs = s.hif.irqs ∧ t.hif.heldIrqs = s.hif.heldIrqs ∧ t.hif.pba = s.hif.pba) ∧
    (Tab.look false s.hif.pba (64 * fn.val + n.val) = true → s.dbg.host.lost = true →
      t.hif.heldIrqs = s.hif.heldIrqs ++ [(fn.val, n.val)])) ∧
  (∀ (s : State) (w : Nat) (fast : Bool), s.spn.align = .done → s.perst = false →
    exec (.cxlLinkUp w fast) s = .next { s with hif := { s.hif with linkUp := true, width := w, fast := fast, ideIo := false, ideCm := false } }) ∧
  (∀ s : State, ∃ t, exec .cxlLinkDown s = .next t ∧ t.hif = { s.hif with linkUp := false, ideIo := false, ideCm := false, spdm := false } ∧
    t = { s with hif := t.hif, dbg := { s.dbg with host := { s.dbg.host with downAt := t.dbg.host.downAt } } } ∧
    (s.dbg.host.supervised = true → s.perst = false → s.dbg.host.downAt = none → t.dbg.host.downAt = some s.pos)) ∧
  (∀ (s : State) (io cm : Bool), s.hif.spdm = true → exec (.ideKm io cm) s = .next { s with hif := { s.hif with ideIo := io, ideCm := cm } }) ∧
  (∀ (s : State), (∃ t, exec (.spdmMessage 0xE5) s = .next t ∧ t.hif = { s.hif with spdm := true }) ∧
    exec (.spdmMessage 0xE0) s = .next (s.emit (.spdm 0xE0 s.measurements)))) ∧
  ((∀ (s : State) (a : Nat) (d : List Byte), a + d.length ≤ s.mem.exch * 2 ^ 21 →
    (∀ t p, s.exchPage a = some (t, p) → p.locks = 0) →
    exec (.hostExchWrite a d) s = .next { s with ram := ramWrite s.ram (2 * 2 ^ 64 + (s.exchBase + a)) d }) ∧
  (∀ (s : State) (a : Nat) (d : List Byte) (t : Nat) (p : Page), a + d.length ≤ s.mem.exch * 2 ^ 21 → s.exchPage a = some (t, p) →
    p.locks ≠ 0 → ∃ u, exec (.hostExchWrite a d) s = .next u ∧ u.ram = s.ram ∧
      u.hif.exchRefused = (if s.hif.exchRefused + 1 < 2 ^ 32 then s.hif.exchRefused + 1 else 2 ^ 32 - 1)) ∧
  (∀ (s : State) (a n : Nat), a + n ≤ s.mem.exch * 2 ^ 21 → s.sec.lifecycle ≠ .tampered →
    exec (.hostExchRead a n false) s =
      .next (s.emit (.exchRead a ((List.range n).map (fun i => s.ramByte (2 * 2 ^ 64 + (s.exchBase + a + i))))))) ∧
  (∀ (s : State) (a n : Nat) (d : List Byte), (s.mem.exch * 2 ^ 21 < a + n → ∀ ue, exec (.hostExchRead a n ue) s = .next s) ∧
    (s.mem.exch * 2 ^ 21 < a + d.length → exec (.hostExchWrite a d) s = .next s)) ∧
  (∀ (m : List Host.Cell) (k j : Nat) (d : List Byte), Memory.wf m = true →
    Tab.look 0 (ramWrite m k d) j = if k ≤ j ∧ j < k + d.length then d.getD (j - k) 0 else Tab.look 0 m j))

/-- FW_LOAD of an image that passes R499 copies it and boots: DBG_FW.STATE reads BOOTING, the attempt counts, and the command waits (R500). Ready
within 2 s the firmware runs, the OTP counter is raised to SVN where ADVANCE is set and SVN exceeds it, and FW_LOAD completes with OK and VARIED (R76); not ready by
then the engine returns to LOAD_WAIT, REASON 5, and FW_LOAD completes with INTERNAL. The firmware stops (R501): running firmware with a fault, or
without a power-loop decision for three frames, is STOPPED with its cause; the fallback grants apply from the next turn boundary on, and the waiting
POWER_LIMIT_SET commands are taken off. -/
def Obligations.FirmwareLoadsRunsTimesOutAndStops : Prop :=
  ((∀ (s : State) (c : Cmd) (sig : SigPair), s.accepts 0x08 c = true → s.dbg.fw.state = .loadWait → c.addr % 64 = 0 →
    fwCheck s c.host c.len false sig = none →
    exec (.fwLoad c false sig) s = .next (s.updFw fun f => { f with
      attempts := if f.attempts + 1 < 256 then f.attempts + 1 else 255, state := .booting, reason := 0,
      measurement := Config.digest "fw" (c.host.take c.len), fwClass := field c.host 0x10 2,
      loading := some (some c, field c.host 0x14 4, bitAt (field c.host 0xF 1) 0, s.pos) })) ∧
  (∀ (s : State) (c : Cmd) (svn p : Nat) (adv : Bool), s.dbg.fw.loading = some (some c, svn, adv, p) → s.dbg.fw.state = .booting →
    s.pos ≤ p + 200000000 → ∃ t : State, exec .fwReady s = .next (t.complete c .ok 0 0 1) ∧ t.dbg.fw.state = .running ∧ t.dbg.fw.svn = svn ∧
      t.sec = { s.sec with otpSvn := if adv = true ∧ s.sec.otpSvn < svn then svn else s.sec.otpSvn } ∧
      t.dbg.host.supervised = true ∧ t.dbg.host.lastBeat = s.pos ∧ t.cells = s.cells ∧ t.mem = s.mem ∧ t.jig = s.jig) ∧
  (∀ (s : State) (c : Cmd) (svn p : Nat) (adv : Bool), s.dbg.fw.loading = some (some c, svn, adv, p) → s.dbg.fw.state = .booting →
    p + 200000000 ≤ s.pos → ∃ t : State, exec .fwBootTimeout s = .next (t.fail c .internal) ∧ t.dbg.fw.state = .loadWait ∧ t.dbg.fw.reason = 5 ∧
      t.dbg.fw.loading = none ∧ t.sec = s.sec ∧ t.mem = s.mem)) ∧
  (∀ (s : State) (fault : Bool), s.dbg.fw.state = .running → (fault = true ∨ s.pwr.lastLoop + 3 ≤ s.turn / 8) →
    ∃ t, exec (.firmwareStop fault) s = .next t ∧ t.dbg.fw.state = .stopped ∧ t.dbg.fw.stopCause = (if fault then 2 else 1) ∧
      t.pwr.fallbackDue = true ∧ t.pwr.limitCmds = [] ∧ (∀ n, n < 8 → (Tab.look ({} : Rail) t.pwr.rails n).valid = false) ∧
      t.sec = s.sec ∧ t.mem = s.mem ∧ t.cells = s.cells ∧ t.agg = s.agg)

/-- The loss of the host driver (R511 to R514): HOST_LOST is entered at the boundary at which it is due, counted, and raises a HOST event; a matching
ATTACH writes the queue state, is counted, and lets HOST_LOST end at the next turn boundary; past the limit every RUNNING or CREATED tenant is due
for suspension. QUOTA_SET sets the HOST limit of a tenant that exists, at once, and no other limit; a limit of 2^31 units or more is refused with
BOUNDS, a tenant that does not exist with TENANT_GONE (R388). A change of a VF's enables is kept, and a running tenant whose Bus Master Enable is
cleared is due for suspension (R456). Past the host-lost limit every tenant in being is suspended (R513). -/
def Obligations.HostLostAttachQuotasAndEnables : Prop :=
  ((∀ (s : State) (b : Nat), s.hostLostAt = some b → s.due b = true →
    ∃ t, exec .hostLostEntry s = .next t ∧ t.dbg.host.lost = true ∧ t.dbg.host.lostAt = b ∧ t.dbg.host.limitPassed = false ∧
      t.dbg.host.lostCount = (if s.dbg.host.lostCount + 1 < 2 ^ 16 then s.dbg.host.lostCount + 1 else 2 ^ 16 - 1) ∧
      t.sec = s.sec ∧ t.mem = s.mem ∧ t.agg = s.agg ∧ t.hif.posted = s.hif.posted) ∧
  (∀ (s : State) (c : Cmd), s.accepts 0x83 c = true → s.dbg.fw.state ≠ .booting → 128 ≤ c.len →
    s.blockFail 0 c.addr 128 (fun p => p.r && p.w) = none → s.attachNames c = s.dbg.fw.measurement →
    exec (.attach c) s = .next ((State.hostEvent ((s.writeVA 0 c.addr s.attachRecords 4).updHost fun h =>
      { h with attaches := (h.attaches + 1) % 2 ^ 16, ending := h.lost }) 2).ok c)) ∧
  (∀ (s : State) (c : Cmd), s.accepts 0x83 c = true → s.dbg.fw.state ≠ .booting → 128 ≤ c.len →
    s.blockFail 0 c.addr 128 (fun p => p.r && p.w) = none → s.attachNames c ≠ s.dbg.fw.measurement →
    exec (.attach c) s = s.refuses c .cfgMismatch)) ∧
  ((∀ (s : State) (c : Cmd), s.accepts 0x12 c = true → s.present c.tenant = true → c.a0 < 2 ^ 31 →
    exec (.quotaSet c) s = .next ((s.setLimit c.tenant 2 c.a0).ok c)) ∧
  (∀ (s : State) (c : Cmd), s.accepts 0x12 c = true → s.present c.tenant = true → 2 ^ 31 ≤ c.a0 →
    exec (.quotaSet c) s = s.refuses c .bounds) ∧
  (∀ (s : State) (c : Cmd), s.accepts 0x12 c = true → s.present c.tenant = false → exec (.quotaSet c) s = s.refuses c .tenantGone) ∧
  (∀ (s : State) (t : TenantId) (mse bme : Bool), ∃ u, exec (.vfEnableChange t mse bme) s = .next u ∧
    Tab.look false u.hif.mse t.val = mse ∧ Tab.look false u.hif.bme t.val = bme ∧
    (∀ v, v ≠ t.val → Tab.look false u.hif.mse v = Tab.look false s.hif.mse v ∧ u.tenant v = s.tenant v) ∧
    (t.val ≠ 0 → (s.tenant t.val).state = .running → (u.tenant t.val).suspendDue = if bme then 0 else 2) ∧
    (u.tenant t.val).state = (s.tenant t.val).state ∧ u.mem = s.mem ∧ u.cells = s.cells ∧ u.agg = s.agg) ∧
  (∀ s : State, s.dbg.host.lost = true → s.dbg.host.limitPassed = false → s.due s.limitAt = true →
    ∃ u, exec .hostLostLimit s = .next u ∧ u.dbg.host.limitPassed = true ∧
      (∀ t, t < 8 → ((s.tenant t).state = .created ∨ (s.tenant t).state = .running) → (u.tenant t).state = .suspended ∧
        (u.tenant t).suspendCause = 1) ∧
      (s.agg.rounds = [] → u.sec.keys = s.sec.keys ∧ u.mem.pages = s.mem.pages ∧ u.ram = s.ram)))

/-- SHAVINGS_CONFIG with values in range sets mask, vector and threshold of its queue and nothing else; queue 0 keeps its mask, a VF is refused for
another queue with RIGHTS, a value out of range with BOUNDS (R517). A pop moves the oldest entry into the latch; a pop of an empty queue leaves the
latch with UNDERRUN set and sets EMPTY_READ; a write with POP 0 does nothing (R516). -/
def Obligations.ShavingsConfigAndPop : Prop :=
  (∀ (s : State) (c : Cmd), s.accepts 0xA0 c = true → (c.fn = 0 ∨ c.a0 = c.fn.val + 1) → c.a0 ≤ 8 → c.a1 < 2 ^ 32 → c.a2 ≤ 63 →
    1 ≤ c.a3 → c.a3 ≤ 4096 →
    exec (.shavingsConfig c) s = .next ((s.setShv c.a0 { s.shv c.a0 with
      mask := if c.a0 = 0 then (s.shv c.a0).mask else c.a1, vector := c.a2, threshold := c.a3 }).ok c)) ∧
  (∀ (s : State) (c : Cmd), s.accepts 0xA0 c = true → c.fn ≠ 0 → c.a0 ≠ c.fn.val + 1 →
    exec (.shavingsConfig c) s = s.refuses c .rights) ∧
  (∀ (s : State) (c : Cmd), s.accepts 0xA0 c = true → (c.fn = 0 ∨ c.a0 = c.fn.val + 1) →
    (8 < c.a0 ∨ 2 ^ 32 ≤ c.a1 ∨ 63 < c.a2 ∨ c.a3 = 0 ∨ 4096 < c.a3) → exec (.shavingsConfig c) s = s.refuses c .bounds) ∧
  (∀ (s : State) (fn : FnId) (q : Fin 9), s.sec.lifecycle ≠ .tampered → (fn = 0 ∨ q.val = fn.val + 1) →
    exec (.dbgShvPop fn q false) s = .next s ∧
    (∀ e r, (s.shv q.val).entries = e :: r →
      exec (.dbgShvPop fn q true) s = .next (s.setShv q.val { s.shv q.val with entries := r, latch := some e })) ∧
    ((s.shv q.val).entries = [] →
      exec (.dbgShvPop fn q true) s = .next (s.setShv q.val { s.shv q.val with
        emptyRead := true, latch := (s.shv q.val).latch.map (fun e => { e with underrun := true }) })))

/-- The power loop runs once in turn 0 of a frame with running firmware (R504, R506): the limit in use is the host value or a lower sideband cap, the
rung and the settling and calm counts follow the table of R504, a waiting POWER_LIMIT_SET takes effect and completes, and the rung in force next is
the loop's, or the thermal floor where that is deeper. What one run of the loop decides (R504, R506): above 110 % of the limit three rungs deeper,
above 100 % one deeper, at or below 95 % one shallower after the fourth calm frame, otherwise unchanged, and nothing while it settles; the ladder
ends at 0 and 27. Power in 0.1 W, limit in W. -/
def Obligations.PowerLoopDecidesTheRungByTheLadder : Prop :=
  (∀ (s : State) (dw : Nat) (issued : List (Nat × Nat)), s.dbg.fw.state = .running → s.spn.frozenAt = none → s.turn % 8 = 0 →
    s.pwr.lastLoop ≠ s.turn / 8 + 1 → Tab.look 0 s.sec.calEffect 0x20 = 0 → s.pwr.tripFrame ≠ s.turn / 8 →
    let hostW := match s.pwr.limitCmds.getLast? with | some c => c.a0 | none => s.pwr.hostW
    let limit := effectiveLimit hostW s.pwr.sidebandW
    let d := loopDecide (issued.map (fun x => s.band x.1 x.2)) s.pwr.loopRung s.pwr.settling s.pwr.calm dw limit
    ∃ t, exec (.powerLoop dw issued) s = .next t ∧ t.pwr.loopRung = d.1 ∧ t.pwr.settling = d.2.1 ∧ t.pwr.calm = d.2.2 ∧
      t.pwr.nextRung = some (max d.1 s.pwr.nextFloor) ∧ t.pwr.hostW = hostW ∧ t.pwr.effectiveW = limit ∧ t.pwr.limitCmds = [] ∧
      t.pwr.lastDw = dw % 2 ^ 16 ∧ t.pwr.peakDw = max s.pwr.peakDw (dw % 2 ^ 16) ∧ t.pwr.rung = s.pwr.rung ∧
      t.sec = s.sec ∧ t.mem = s.mem ∧ t.cells = s.cells) ∧
  (∀ (bands : List Nat) (rung calm p limit : Nat), rung ≤ 27 → calm ≤ 3 →
    (loopDecide bands rung true calm p limit = (rung, false, calm)) ∧
    (11 * limit < p → loopDecide bands rung false calm p limit = (deeper bands 27 rung 3, true, 0)) ∧
    (10 * limit < p → p ≤ 11 * limit → loopDecide bands rung false calm p limit = (deeper bands 27 rung 1, true, 0)) ∧
    (2 * p ≤ 19 * limit → calm = 3 → loopDecide bands rung false calm p limit = (shallower bands 27 rung 1, true, 0)) ∧
    (2 * p ≤ 19 * limit → calm < 3 → loopDecide bands rung false calm p limit = (rung, false, calm + 1)) ∧
    (19 * limit < 2 * p → p ≤ 10 * limit → loopDecide bands rung false calm p limit = (rung, false, 0)) ∧
    (∀ n, rung ≤ deeper bands 27 rung n ∧ deeper bands 27 rung n ≤ 27) ∧ (∀ n, shallower bands 27 rung n ≤ rung))

/-- Frames and duties (R502, R503): outside the hot withholding, a barrier's turn and a deadline window, a consumer at duty 8 is granted every turn
of its frame, at 4 turns 1, 3, 5 and 7, at 2 turns 3 and 7, at 1 turn 7, at 0 none, and PATTERN shows those turns; a hot package grants none of those
turns; what holds in a turn is what its boundary decided (R89). The duties and the ratio of each rung are those of the ladder. -/
def Obligations.GrantsFollowTheDutyOfTheFrame : Prop :=
  (∀ (s : State) (t tn : Nat) (c : ResClass), s.pwr.hot = false → s.barrierTurn t tn = false → s.windowTurn t tn c = false →
    let d := (s.grant t c.index).duty
    (s.grantedAt t c tn = true ↔ d = 8 ∨ (d = 4 ∧ tn % 8 ∈ [1, 3, 5, 7]) ∨ (d = 2 ∧ tn % 8 ∈ [3, 7]) ∨ (d = 1 ∧ tn % 8 = 7))) ∧
  (∀ (s : State) (t tn : Nat) (c : ResClass), s.pwr.hot = true → s.barrierTurn t tn = false → s.windowTurn t tn c = false →
    s.grantedAt t c tn = false) ∧
  (∀ (s : State) (b t : Nat) (c : ResClass), t < 8 → c.index < 7 →
    (s.steady b).granted t c = (s.steady b).grantedAt t c (b / 2 ^ s.spn.k)) ∧
  (dutyPattern 8 = 0xFF ∧ dutyPattern 4 = 0xAA ∧ dutyPattern 2 = 0x88 ∧ dutyPattern 1 = 0x80 ∧ dutyPattern 0 = 0) ∧
  (∀ r b, r ≤ 27 → b < 8 → rungRatio r = (if r = 0 then 33 else if r = 1 then 30 else if r = 2 then 27 else 24) ∧
    (r ≤ 3 → rungDuty r b = 8) ∧ (4 ≤ r → r ≤ 11 → rungDuty r b = if b ≤ r - 4 then 4 else 8) ∧
    (12 ≤ r → r ≤ 19 → rungDuty r b = if b ≤ r - 12 then 2 else 4) ∧ (20 ≤ r → rungDuty r b = if b ≤ r - 20 then 1 else 2))

/-- The thermal rules (R508, R509): every 1,000,000 ticks the loop raises the floor by one at 100 °C, lowers it at 95 °C, and warns at TEMP_WARN_C; a
sensor at 106 °C starts the hot withholding, which ends at a turn boundary with every sensor at 103 °C or less. Readings are in 1/16 °C. Trips and
the sideband (R490, R506, R510, R551, R558): from the release edge on a fast current trip or a regulator alert counts, records its cause and asks for
a freeze; POWER_LIMIT_SET in range waits for the power loop; MFR_POWER_CAP is clamped to 450 to 1,050 W and 0 removes it; the reads answer without
changing anything; VDD_CORE within 1.5 % of a waiting setpoint lets the ratio rise. -/
def Obligations.ThermalTripsLimitsAndSideband : Prop :=
  ((∀ (s : State) (temps : List Int), s.dbg.fw.state = .running → s.spn.frozenAt = none → s.pwr.lastThermal + 1000000 ≤ s.pos →
    (∀ i, i < 16 → Tab.look 0 s.sec.calEffect (0x10 + i) = 0) → temps.length = 16 →
    let h := hottest temps
    ∃ t, exec (.thermalLoop temps) s = .next t ∧ t.pwr.lastThermal = s.pos ∧
      t.pwr.nextFloor = (if 1600 ≤ h then min 27 (s.pwr.nextFloor + 1) else if h ≤ 1520 then s.pwr.nextFloor - 1 else s.pwr.nextFloor) ∧
      t.pwr.floor = s.pwr.floor ∧ t.sec = s.sec ∧ t.mem = s.mem) ∧
  (∀ (s : State) (n : Fin 16) (x : Int), 1696 ≤ x → x ≤ 2000 → s.pwr.hot = false → s.pwr.hotDue = false →
    ∃ t, exec (.hotTrip n x) s = .next t ∧ t.pwr.hotDue = true ∧ t.pwr.lastCause = 3 ∧
      t.pwr.tripHot = (if s.pwr.tripHot + 1 < 2 ^ 16 then s.pwr.tripHot + 1 else 2 ^ 16 - 1) ∧ t.sec = s.sec ∧ t.mem = s.mem) ∧
  (∀ (s : State) (temps : List Int), s.pwr.hot = true → s.pos % 2 ^ s.spn.k = 0 → (∀ x ∈ temps, x ≤ 1648) →
    let u := s.updPwr fun w => { w with hot := false }
    exec (.hotRelease temps) s = .next (u.updPwr fun w => { w with withheld := u.withheldIn s.turn }))) ∧
  ((∀ s : State, s.released = true → ∃ t, exec .fastCurrentTrip s = .next t ∧ t.pwr.lastCause = 1 ∧
    t.pwr.tripCurrent = (if s.pwr.tripCurrent + 1 < 2 ^ 16 then s.pwr.tripCurrent + 1 else 2 ^ 16 - 1) ∧
    t.spn = { s.spn with tripAt := some (if s.frozen then s.pos else s.spn.tripAt.getD s.pos) } ∧ t.sec = s.sec ∧ t.mem = s.mem ∧ t.cells = s.cells) ∧
  (∀ (s : State) (w : Nat) (rails : List (Fin 8)), s.released = true → ∃ t, exec (.vrAlert w rails) s = .next t ∧ t.pwr.lastCause = 2 ∧
    t.pwr.tripAlert = (if s.pwr.tripAlert + 1 < 2 ^ 16 then s.pwr.tripAlert + 1 else 2 ^ 16 - 1) ∧
    t.spn = { s.spn with tripAt := some (if s.frozen then s.pos else s.spn.tripAt.getD s.pos) } ∧ t.sec = s.sec ∧ t.mem = s.mem ∧ t.cells = s.cells) ∧
  (∀ (s : State) (c : Cmd), s.accepts 0x90 c = true → 450 ≤ c.a0 → c.a0 ≤ 1050 → s.dbg.fw.state ≠ .stopped →
    exec (.powerLimitSet c) s = .next (s.updPwr fun w => { w with limitCmds := w.limitCmds ++ [c] })) ∧
  (∀ (s : State) (c : Cmd), s.accepts 0x90 c = true → (c.a0 < 450 ∨ 1050 < c.a0) → exec (.powerLimitSet c) s = s.refuses c .bounds) ∧
  (∀ (s : State) (w : Nat), exec (.mfrPowerCap w) s =
    .next (s.updPwr fun x => { x with sidebandW := if w = 0 then 0 else if w < 450 then 450 else if 1050 < w then 1050 else w })) ∧
  (∀ s : State, exec .mfrPowerCapRead s = .next { s with out := .smbus s.pwr.sidebandW :: s.out }) ∧
  (∀ s : State, ∃ v, exec .readTemperature1 s = .next { s with out := .smbus v :: s.out }) ∧
  (∀ s : State, s.pwr.lastDw < 10240 → exec .readPin s = .next { s with out := .smbus (s.pwr.lastDw / 10) :: s.out }) ∧
  (∀ (s : State) (mv v : Nat), s.dbg.fw.state = .running → s.spn.frozenAt = none → s.turn % 8 = 6 → s.pwr.vddWait = some v →
    985 * v ≤ 1000 * mv → ∃ t, exec (.vddCoreCheck mv) s = .next t ∧ t.pwr.vddWait = none ∧ t.pwr.vddMv = mv ∧
      t = { s with pwr := t.pwr }))

/-- KEY_GENERATE without a refusal writes the lowest free entry with the type, owner, uses and EXPIRE that ARG0 names, GENERATED, with a value from
the owner's DRBG, completes with OK, that entry and VARIED, and touches no other entry (R472); the lowest free entry is the model's choice
(notes/assumptions/5.md). A refusal changes nothing but the completion. KEY_IMPORT of 32 readable bytes, outside ENFORCE and within the range of its
type, writes the lowest free entry, IMPORTED (R472); KEY_DESTROY zeroes an entry that its caller may destroy and no registered object uses, and no
other entry (R472). -/
def Obligations.KeysAreGeneratedImportedAndDestroyed : Prop :=
  ((∀ (s : State) (c : Cmd) (i : Nat) (r : List Nat), s.accepts 0x60 c = true → s.keyRefusal c = none → s.freeTenantKeys = i :: r →
    s.sec.healthFail = false →
    ∃ (t : State) (v : Nat), exec (.keyGenerate c) s = .next (t.complete c .ok i 0 1) ∧
      t.sec.keys = Tab.put {} s.sec.keys i {
        type := bits c.a0 0 4, owner := keyOwner c, uses := bits c.a0 4 16, expire := bitAt c.a0 20, value := v } ∧
      v = drawnKey (bits c.a0 0 4) (Config.freeNat s.freeCtr) ∧ v < 2 ^ 256 ∧ (bits c.a0 0 4 = 3 → 0 < v ∧ v < p256Order) ∧ t.mem = s.mem ∧ t.hif = s.hif ∧ t.agg = s.agg ∧ t.sec.lifecycle = s.sec.lifecycle) ∧
  (∀ (s : State) (c : Cmd) (st : Status), s.accepts 0x60 c = true → s.keyRefusal c = some st →
    exec (.keyGenerate c) s = s.refuses c st ∧ (s.accepts 0x61 c = true → exec (.keyImport c) s = s.refuses c st))) ∧
  ((∀ (s : State) (c : Cmd) (i : Nat) (r : List Nat), s.accepts 0x61 c = true → s.keyRefusal c = none → s.freeTenantKeys = i :: r →
    s.sec.enforce = false → c.len = 32 → s.blockFail (cmdActs c) c.addr 32 (fun p => p.r) = none →
    let v := beNat (s.readVA (cmdActs c) c.addr 32 c.host)
    (bits c.a0 0 4 = 3 → v ≠ 0 ∧ v < p256Order) →
    exec (.keyImport c) s = .next ((s.setKey i {
      type := bits c.a0 0 4, owner := keyOwner c, uses := bits c.a0 4 16, expire := bitAt c.a0 20, imported := true, value := v }).complete c .ok i 0 0)) ∧
  (∀ (s : State) (c : Cmd), s.accepts 0x62 c = true → c.a0 ≤ 1023 → (s.key c.a0).type ≠ 0 → s.keyInUse c.a0 = false →
    (if c.fn = 0 then (s.key c.a0).owner ≤ 7 else (s.key c.a0).owner = c.fn.val) →
    exec (.keyDestroy c) s = .next ((s.setKey c.a0 {}).ok c)) ∧
  (∀ (s : State) (c : Cmd), s.accepts 0x62 c = true → c.a0 ≤ 1023 → (s.key c.a0).type ≠ 0 → c.fn ≠ 0 →
    (s.key c.a0).owner ≠ c.fn.val → exec (.keyDestroy c) s = s.refuses c .rights))

/-- The signed answers (R471, R473, R476 to R479, R484): with the identity ready, room in the buffer and both identity keys usable, a key statement,
a device statement or the current assembly attestation is written to the caller's buffer, each identity key counts one use, and the completion
returns the bytes written. Identity, challenge, approved mode and the noise source (R475, R487, R494 to R496): after alignment in PROVISIONED, OWNED
and OPEN both identity seeds fill entries 1,022 and 1,023 and IDENTITY_READY sets; NEW draws a valid challenge; ENFORCE sets; a key quota of at most
960 is taken; a health failure sets HEALTH_FAIL and counts. -/
def Obligations.AttestationIdentityChallengeAndApprovedMode : Prop :=
  ((∀ (s : State) (c : Cmd) (tn : Nat) (body rest : List Byte), s.sec.identityReady = true → body.length + 8240 + rest.length ≤ c.len →
    s.blockFail tn c.addr (body.length + 8240 + rest.length) (fun p => p.w) = none → s.keyUse 1022 deviceOwner 14 = none →
    s.keyUse 1023 deviceOwner 14 = none →
    ∃ sig : List Byte, sig.length = 8240 ∧
      s.answer c tn body rest = (State.writeVA { (s.countKey 1022).countKey 1023 with freeCtr := s.freeCtr + 1 } tn c.addr
        (body ++ sig ++ rest) ((body.length + 8240 + rest.length) / 64 + 2)).complete c .ok (body.length + 8240 + rest.length) 0 0) ∧
  (∀ (s : State) (c : Cmd), s.accepts 0x63 c = true → c.a0 ≤ 1023 → (s.key c.a0).type ≠ 0 → (s.key c.a0).owner = cmdActs c →
    exec (.keyAttest c) s = .next (s.answer c (cmdActs c) (s.keyStatement c (s.key c.a0))
      (leBytes (publicBytes (s.key c.a0).type) (Config.publicKey (s.key c.a0).type (s.key c.a0).value)))) ∧
  (∀ (s : State) (c : Cmd), s.accepts 0x81 c = true → s.sec.identityReady = true →
    (c.fn = 0 → c.a0 = 0 → attestScope s.sec.lifecycle ≥ 1 →
      exec (.attestDevice c) s = .next (s.answer c (cmdActs c) (s.deviceStatement c 0 (cmdActs c)) (certBytes s.sec.partB))) ∧
    (c.fn = 0 → c.a0 = 1 → attestScope s.sec.lifecycle = 2 →
      exec (.attestDevice c) s = .next (s.answer c (cmdActs c) (s.deviceStatement c 1 (cmdActs c)) (certBytes s.sec.partB))) ∧
    (c.fn ≠ 0 → attestScope s.sec.lifecycle = 2 →
      exec (.attestDevice c) s = .next (s.answer c (cmdActs c) (s.deviceStatement c 1 (cmdActs c)) (certBytes s.sec.partB)))) ∧
  (∀ (s : State) (c : Cmd), s.accepts 0x82 c = true → s.sec.identityReady = true → attestScope s.sec.lifecycle = 2 →
    s.sec.attSerial ≠ 0 → ∃ v, exec (.attestAssembly c) s =
      .next (State.answer { s with freeCtr := s.freeCtr + 1 } c (cmdActs c)
        (State.assemblyStatement { s with freeCtr := s.freeCtr + 1 } v) (certBytes s.sec.partB)))) ∧
  ((∀ (s : State) (a : Nat), s.sec.lifecycle.live = true → s.sec.identityReady = false → (s.spn.align = .done ∨ s.spn.align = .checked a) →
    ∃ t, exec .identityDerivation s = .next t ∧ t.sec.identityReady = true ∧ (t.key 1022).type = 6 ∧ (t.key 1023).type = 7 ∧
      (t.key 1022).owner = 0xA ∧ (t.key 1023).owner = 0xA ∧ bitAt (t.key 1022).uses 14 = true ∧ bitAt (t.key 1023).uses 14 = true ∧
      t = { s with sec := t.sec } ∧ t.sec.lifecycle = s.sec.lifecycle ∧ t.sec.rootSecret = s.sec.rootSecret) ∧
  (∀ s : State, s.sec.lifecycle ≠ .tampered →
    (s.sec.healthFail = false → ∃ v, exec .secChallengeNew s =
      .next { s with freeCtr := s.freeCtr + 1, sec := { s.sec with challenge := v, chalValid := true } }) ∧
    exec .secApprovedEnforce s = .next { s with sec := { s.sec with enforce := true } } ∧
    (∀ (tn : TenantId) (v : Word64), v.toNat % 1024 ≤ 960 →
      exec (.secKeyQuotaWrite tn v) s =
        .next { s with sec := { s.sec with keyQuota := Tab.put 120 s.sec.keyQuota tn.val (v.toNat % 1024) } }) ∧
    (∀ (tn : TenantId) (v : Word64), 960 < v.toNat % 1024 →
      exec (.secKeyQuotaWrite tn v) s = .next (s.discarded 0 (0x00E00140 + 8 * tn.val) v.toNat))) ∧
  (∀ (s : State) (adaptive : Bool), ∃ t, exec (.trngHealthFail adaptive) s = .next t ∧ t = { s with sec := t.sec } ∧
    t.sec.healthFail = true ∧ t.sec.keys = s.sec.keys ∧ t.sec.lifecycle = s.sec.lifecycle ∧
    (adaptive = false → t.sec.rctFails = (if s.sec.rctFails + 1 < 256 then s.sec.rctFails + 1 else 255) ∧ t.sec.aptFails = s.sec.aptFails) ∧
    (adaptive = true → t.sec.aptFails = (if s.sec.aptFails + 1 < 256 then s.sec.aptFails + 1 else 255) ∧ t.sec.rctFails = s.sec.rctFails)))

/-- CAL_USER_LOAD of one readable, unsigned entry in OPEN replaces the deltas loaded before, which take effect at the next turn boundary (R490 to
R492); a delta beyond the limit of its ID is clamped, in sign and size. LIFECYCLE_ADVANCE (R485 to R489): a transition of the table whose authority
is given, with no tenant left, no tenant-0 work and no commit pending, destroys the key register, records the state, posts its completion and runs a
COLD reset; an owner record becomes the owner's keys and password (R486), the password opens an OWNED engine, and a wrong one counts (R488); every pair the table does not give is refused with LIFECYCLE. -/
def Obligations.CalibrationAndLifecycleAdvance : Prop :=
  ((∀ (s : State) (c : Cmd) (sig : SigPair), s.accepts 0x91 c = true → s.blockFail 0 c.addr c.len (fun p => p.r) = none →
    s.dbg.fw.state ≠ .stopped → s.sec.lifecycle = .open_ → c.len = 16 →
    let b := s.readVA 0 c.addr 16 c.host
    field b 0 4 = 0x4C414358 → field b 4 1 = 1 → field b 5 1 = 0 → field b 6 2 = 1 → (calLimit (field b 8 2)).isSome = true →
    field b 10 2 = 0 →
    exec (.calUserLoad c sig) s =
      .next ((s.updSec fun x => { x with calLoaded := Tab.put 0 [] (field b 8 2) (field b 12 4), calPending := true }).ok c)) ∧
  (∀ id d l, calLimit id = some l → -(l : Int) ≤ calClamp id d ∧ calClamp id d ≤ l ∧
    (-(l : Int) ≤ toSigned 32 d → toSigned 32 d ≤ l → calClamp id d = toSigned 32 d))) ∧
  ((∀ (s : State) (c : Cmd) (sig : SigPair) (l : Lifecycle), s.accepts 0x80 c = true → lifecycleOf c.a0 = some l →
    (advanceNeeds s.sec.lifecycle l = some 0 ∨ ((advanceNeeds s.sec.lifecycle l = some 2 ∨ advanceNeeds s.sec.lifecycle l = some 3) ∧ c.len = 8240 ∧ sig.ok = true ∧
      s.sec.chalValid = true ∧ s.blockFail 0 c.addr c.len (fun p => p.r) = none)) →
    (s.sec.enforce && l == .open_) = false → (∀ t, 0 < t → t < 8 → (s.tenant t).state = .absent) → s.busyZero = false →
    s.jig.commit = none →
    ∃ t, exec (.lifecycleAdvance c sig) s = .next t ∧ t.sec.lifecycle = l ∧ t.sec.keys = [] ∧ t.ram = [] ∧ t.jig = {} ∧
      t.sec.otpSvn = s.sec.otpSvn ∧ t.dbg.fw.state = .loadWait ∧
      (l = .retired → t.sec.rootSecret = 0) ∧ (l = .provisioned ∨ l = .retired → t.sec.ownerKeys = 0 ∧ t.sec.password = none) ∧
      (s.hif.discard.contains (16 * c.fn.val + c.qp.val, c.cid) = false → s.dbg.host.lost = false →
        ∃ k r, t.hif.posted = k :: r ∧ k.cid = c.cid ∧ k.status = .ok)) ∧
  (∀ (s : State) (c : Cmd) (sig : SigPair), s.accepts 0x80 c = true → s.sec.lifecycle = .provisioned → lifecycleOf c.a0 = some .owned →
    (∀ t, 0 < t → t < 8 → (s.tenant t).state = .absent) → s.busyZero = false → s.jig.commit = none → c.len = 488 →
    s.blockFail 0 c.addr 488 (fun p => p.r) = none →
    let b := s.readVA 0 c.addr 488 c.host
    ownerRecordOk b = true →
    ∃ t, exec (.lifecycleAdvance c sig) s = .next t ∧ t.sec.lifecycle = .owned ∧ t.sec.ownerKeys = Config.digest "owner" (b.take 420) ∧
      t.sec.password = (if field b 420 1 = 0 then none else some (field b 420 1, field b 421 (field b 420 1))) ∧ t.sec.keys = [] ∧
      t.sec.rootSecret = s.sec.rootSecret ∧ t.jig = {}) ∧
  (∀ (s : State) (c : Cmd) (sig : SigPair) (v : Nat), s.accepts 0x80 c = true → s.sec.lifecycle = .owned → lifecycleOf c.a0 = some .open_ →
    s.sec.enforce = false → (∀ t, 0 < t → t < 8 → (s.tenant t).state = .absent) → s.busyZero = false → s.jig.commit = none →
    16 ≤ c.len → c.len ≤ 64 → s.blockFail 0 c.addr c.len (fun p => p.r) = none → s.sec.pwLocked = false →
    (∀ p, s.sec.lastFail = some p → p + 100000000 ≤ s.pos) → s.sec.password = some (c.len, v) →
    (v = field (s.readVA 0 c.addr c.len c.host) 0 c.len → ∃ t, exec (.lifecycleAdvance c sig) s = .next t ∧ t.sec.lifecycle = .open_ ∧
      t.sec.openMethod = 2 ∧ t.sec.pwFails = 0 ∧ t.sec.keys = [] ∧ t.jig = {}) ∧
    (v ≠ field (s.readVA 0 c.addr c.len c.host) 0 c.len → exec (.lifecycleAdvance c sig) s = .next ((s.updSec fun x => { x with
      pwFails := x.pwFails + 1, pwLocked := decide (8 ≤ x.pwFails + 1), lastFail := some s.pos }).fail c .lifecycle))) ∧
  (∀ (s : State) (c : Cmd) (sig : SigPair), s.accepts 0x80 c = true →
    (∀ l, lifecycleOf c.a0 = some l → advanceNeeds s.sec.lifecycle l = none) →
    exec (.lifecycleAdvance c sig) s = s.refuses c .lifecycle))

/-- What a COLD or POWER-ON reset leaves (R24, R540, R554): BBRAM, OTP and the life-cycle state stay; the key register, the tenants, the jig, the
firmware, cells, rounds, memory contents and the queue pairs are as after reset. POWER_ON_RESET with a good BBRAM, BROWN_OUT, a PERST# pulse of 100
µs or more and a confirmed HIF_RESET all do so; a shorter pulse does nothing. A WARM reset at its turn boundary (R24, R566, R567): commands in flight
are dropped and the queue pairs return to their reset values; programs, descriptors, ring macros, endpoint messages and barriers are abandoned; the
keys and pages of tenants 1 to 7 are lost; tenant 0 keeps its memory; the jig, the firmware, the position and the life cycle stay, and Shavings
queues 2 to 8 are emptied. Function-level resets (R463, R541): PF0's clears PF0's queue pairs, its MSI-X table, and discards the completions of its
commands that still run, and nothing outside the host interface changes; a VF's starts a TENANT reset of its tenant unless the tenant is ABSENT or a
removal or reset of it is in progress; in an assembly a member that is not the coordinator asks the coordinator for it. -/
def Obligations.ResetsKeepAndClearWhatTheyShould : Prop :=
  (let cold := fun (s t : State) =>
    t.sec.lifecycle = s.sec.lifecycle ∧ t.sec.otpSvn = s.sec.otpSvn ∧ t.sec.rootSecret = s.sec.rootSecret ∧
    t.sec.ownerKeys = s.sec.ownerKeys ∧ t.sec.password = s.sec.password ∧ t.sec.pwFails = s.sec.pwFails ∧
    t.sec.pwLocked = s.sec.pwLocked ∧ t.sec.keys = [] ∧ t.sec.tenants = [] ∧ t.sec.identityReady = false ∧ t.sec.chalValid = false ∧
    t.sec.enforce = false ∧ t.jig = {} ∧ t.cells = [] ∧ t.progs = [] ∧ t.agg = {} ∧ t.ring = {} ∧ t.fab = {} ∧ t.dbg = {} ∧ t.ram = [] ∧
    t.mem.pages = [] ∧ t.mem.keys = [] ∧ t.hif.queues = [] ∧ t.spn.pos = 0 ∧ t.coldDue = false ∧ t.warmAt = none
  (∀ s : State, ∃ t, exec (.powerOnReset true) s = .next t ∧ cold s t ∧ t.perst = true ∧ t.spn.align = .inReset) ∧
  (∀ s : State, ∃ t, exec .brownOut s = .next t ∧ cold s t ∧ t.perst = true) ∧
  (∀ (s : State) (us : Nat), 100 ≤ us → ∃ t, exec (.perstAssert us) s = .next t ∧ cold s t ∧ t.perst = true) ∧
  (∀ (s : State) (us : Nat), us < 100 → exec (.perstAssert us) s = .next s) ∧
  (∀ s : State, s.coldDue = true → s.perst = false → ∃ t, exec .coldReset s = .next t ∧ cold s t ∧ t.spn.align = .qualifying) ∧
  (∀ s : State, s.perst = true → s.spn.align = .inReset →
    exec .perstDeassert s = .next { s with perst := false, spn := { s.spn with align := .qualifying } })) ∧
  (∀ (s : State) (b : Nat), s.warmAt = some b → s.due b = true → s.coldDue = false →
    ∃ t, exec .warmReset s = .next t ∧ t.warmAt = none ∧ t.hif.queues = [] ∧ t.hif.fetched = [] ∧ t.progs = [] ∧ t.mem.work = [] ∧
      t.mem.parked = [] ∧ t.ring.macros = [] ∧ t.ring.reqs = [] ∧ t.spn.barriers = [] ∧ t.spn.pos = s.spn.pos ∧ t.jig.cfg = s.jig.cfg ∧
      t.sec.lifecycle = s.sec.lifecycle ∧
      (∀ n k, (n, k) ∈ t.sec.keys → k.type ≠ 0 → k.owner = 0 ∨ 8 ≤ k.owner) ∧ (∀ p ∈ t.mem.pages, p.1 / 2 ^ 33 = 0 ∨ 8 ≤ p.1 / 2 ^ 33) ∧
      (∀ q ∈ t.dbg.shv, q.1 < 2)) ∧
  ((∀ s : State, ∃ t, exec .pf0Flr s = .next t ∧ t = { s with hif := t.hif } ∧ (∀ e ∈ t.hif.queues, e.1 / 16 ≠ 0) ∧
    (∀ e ∈ s.hif.queues, e.1 / 16 ≠ 0 → e ∈ t.hif.queues) ∧ (∀ e ∈ t.hif.unmasked, e.1 / 64 ≠ 0) ∧ (∀ e ∈ t.hif.pba, e.1 / 64 ≠ 0) ∧
    (∀ x ∈ s.hif.fetched, x.1 = 0 → (x.2.1, x.2.2.1) ∈ t.hif.discard) ∧ t.hif.posted = s.hif.posted) ∧
  (∀ (s : State) (v : TenantId), v ≠ 0 → (s.tenant v.val).removal = none → (s.tenant v.val).state ≠ .removing →
    (s.tenant v.val).state ≠ .absent → ∃ t, exec (.vfFlr v) s = .next t ∧
      ((s.bigE ≤ 1 ∨ s.isCoord = true) → (t.tenant v.val).removal.isSome = true ∧ (t.tenant v.val).state = .removing) ∧
      (2 ≤ s.bigE → s.isCoord = false → (t.tenant v.val).flr = true ∧ (t.tenant v.val).state = (s.tenant v.val).state) ∧
      (∀ e ∈ t.hif.queues, e.1 / 16 ≠ v.val) ∧ t.ram = s.ram ∧ t.jig = s.jig) ∧
  (∀ (s : State) (v : TenantId), v ≠ 0 → ((s.tenant v.val).removal.isSome = true ∨ (s.tenant v.val).state = .removing) →
    exec (.vfFlr v) s = .next s))

/-- TENANT_CREATE that passes the checks of R458 waits for its turn boundary and changes nothing else; a tenant number 0 or over 7 is refused with
BOUNDS, a tenant that exists, here or on another member, with CFG_LOCKED, a key limit or register too short with QUOTA_EXCEEDED; in an assembly the coordinator gives notice to
the other members. At the boundary, where the decision is OK, the tenant is CREATED with the quotas of the jig, the DRBG seeded and its creations
counted (R459); where it is another status, the command ends with that status and no tenant is created. TENANT_REMOVE of a tenant that exists makes it REMOVING from its turn boundary
on; tenant 0 is refused with BOUNDS, a tenant that is ABSENT or already REMOVING with TENANT_GONE (R460). At the boundary everything of the tenant
stops (R461). The fence of a removal (R451, R461): once the FENCE frames of a round have come back from every fabric port the round is over, FENCE
frames of the next leave each of them in slot 0, behind the tenant's own, and the sixteenth ends the fence: the tenant's regions and endpoints are
released. SCRUB then ends the removal: none of its frames is held, and it is ABSENT without quotas, or CREATED after a TENANT reset (R412, R461, R463);
on a single engine the command completes with the descriptors ended and the packets and frames refused (R462). -/
def Obligations.TenantsAreCreatedRemovedFencedAndScrubbed : Prop :=
  ((∀ (s : State) (c : Cmd), s.accepts 0x10 c = true → 1 ≤ c.tenant → c.tenant ≤ 7 → (s.sec.lifecycle = .owned ∨ s.sec.lifecycle = .open_) →
    s.jig.loaded = true → s.jig.commit = none → (s.tenant c.tenant).state = .absent → (s.tenant c.tenant).creating = none →
    (s.bigE ≤ 1 ∨ s.isCoord = true) → s.keysHeld c.tenant + 5 ≤ s.keyLimit c.tenant → 5 ≤ s.freeTenantKeys.length →
    s.sec.healthFail = false →
    (∀ busy, s.bigE ≤ 1 → exec (.tenantCreate c busy) s = .next (s.updTenant c.tenant fun x => { x with
      creating := some { boundary := s.boundaryAfter s.pos, cmd := some c, decision := some .ok } })) ∧
    (2 ≤ s.bigE → exec (.tenantCreate c true) s = s.refuses c .cfgLocked) ∧
    (2 ≤ s.bigE → let b := s.boundaryFrom (s.pos + 150000 + 2 ^ (s.spn.k + 1))
      exec (.tenantCreate c false) s = .next ((s.updTenant c.tenant fun x => { x with
        creating := some { boundary := b, cmd := some c } }).sendDevice (.tenantNotice (Fin.ofNat 8 c.tenant) b)))) ∧
  (∀ (s : State) (c : Cmd), s.accepts 0x10 c = true → (c.tenant = 0 ∨ 7 < c.tenant) →
    ∀ busy, exec (.tenantCreate c busy) s = s.refuses c .bounds) ∧
  (∀ (s : State) (c : Cmd), s.accepts 0x10 c = true → 1 ≤ c.tenant → c.tenant ≤ 7 → s.sec.lifecycle = .owned →
    (s.tenant c.tenant).state ≠ .absent → ∀ busy, exec (.tenantCreate c busy) s = s.refuses c .cfgLocked) ∧
  (∀ (s : State) (c : Cmd), s.accepts 0x10 c = true → 1 ≤ c.tenant → c.tenant ≤ 7 → s.sec.lifecycle = .owned → s.jig.loaded = true →
    s.jig.commit = none → (s.tenant c.tenant).state = .absent → (s.tenant c.tenant).creating = none → (s.bigE ≤ 1 ∨ s.isCoord = true) →
    (s.keyLimit c.tenant < s.keysHeld c.tenant + 5 ∨ s.freeTenantKeys.length < 5) →
    exec (.tenantCreate c false) s = s.refuses c .quotaExceeded) ∧
  (∀ (s : State) (t : Nat) (x : Creating), 1 ≤ t → t ≤ 7 → (s.tenant t).creating = some x → s.due x.boundary = true →
    (∀ u, u < 8 → u ≠ t → (s.tenant u).creating = none) →
    (x.decision = some .ok → exec .tenantCreateBoundary s = .next (s.createTenant t x.cmd)) ∧
    (∀ st c, x.decision = some st → st ≠ .ok → x.cmd = some c →
      exec .tenantCreateBoundary s = .next ((s.updTenant t fun y => { y with creating := none }).fail c st))) ∧
  (∀ (s : State) (t : Nat) (c : Option Cmd), ((s.createTenant t c).tenant t).state = .created ∧
    ((s.createTenant t c).tenant t).drbg = true ∧ ((s.createTenant t c).tenant t).drawn = 0 ∧
    ((s.createTenant t c).tenant t).creating = none ∧
    ((s.createTenant t c).tenant t).creations = wrapAdd 16 (s.tenant t).creations 1 ∧
    (s.createTenant t c).limitUnits t 0 = Tab.look 0 s.jig.cfg.quotas (3 * t) / 65536 ∧
    (s.createTenant t c).limitUnits t 1 = Tab.look 0 s.jig.cfg.quotas (3 * t + 1) / 65536 ∧
    (s.createTenant t c).limitUnits t 2 = 0 ∧ Tab.look 0 (s.createTenant t c).agg.lastRound t = 0)) ∧
  ((∀ (s : State) (c : Cmd), s.accepts 0x11 c = true → c.tenant ≠ 0 → (s.tenant c.tenant).state ≠ .absent →
    (s.tenant c.tenant).state ≠ .removing → s.jig.commit = none → (s.bigE ≤ 1 ∨ s.isCoord = true) →
    exec (.tenantRemove c) s = .next (s.startRemoval c.tenant false (some c)) ∧
      ((s.startRemoval c.tenant false (some c)).tenant c.tenant).state = .removing ∧
      (s.startRemoval c.tenant false (some c)).mem = s.mem ∧ (s.startRemoval c.tenant false (some c)).cells = s.cells) ∧
  (∀ (s : State) (c : Cmd), s.accepts 0x11 c = true → c.tenant = 0 → exec (.tenantRemove c) s = s.refuses c .bounds) ∧
  (∀ (s : State) (c : Cmd), s.accepts 0x11 c = true → c.tenant ≠ 0 →
    ((s.tenant c.tenant).state = .absent ∨ (s.tenant c.tenant).state = .removing) → exec (.tenantRemove c) s = s.refuses c .tenantGone) ∧
  (∀ (s : State) (t : Nat) (r : Removal), t ≤ 7 → (s.tenant t).removal = some r → r.begun = false → s.due r.boundary = true →
    (∀ u, u < 8 → u ≠ t → (s.tenant u).removal = none) → (∀ c e d k, (s.cell c).running = true → (s.cell c).waiting ≠ .feedQueue e d k) →
    exec .tenantRemoveBoundary s = .next (s.removalBegins t r) ∧ (∀ d, d < 32 → (s.removalBegins t r).work t d = []) ∧
      (s.removalBegins t r).macros t = [] ∧
      (∀ e, ((s.removalBegins t r).ep e).state = 1 → ((s.removalBegins t r).ep e).tenant ≠ t))) ∧
  ((∀ (s : State) (t : TenantId) (r : Removal) (ports : List PortId) (n : Nat), (s.tenant t.val).removal = some r → r.begun = true →
    (s.tenant t.val).phase = n → n < 15 → s.due (r.boundary + (n + 1) * 2 ^ s.spn.k) = true →
    s.slotOf s.pos = 0 → (∀ f ∈ s.waiting, f.owner = t.val → f.port ∉ s.fabricUp) →
    (∀ p ∈ s.fabricUp, ∃ q ∈ ports, q.val = p) →
    ∃ u : State, exec (.fenceRound t ports) s = .next u ∧ (u.tenant t.val).phase = n + 1 ∧ (u.fabTenant t.val).fenceRound = n + 1 ∧
      u.out = (s.fabricUp.map (fun p => Out.fence p t.val (n + 1))).reverse ++ s.out ∧ u.mem = s.mem ∧ u.cells = s.cells ∧
      u.hif = s.hif) ∧
  (∀ (s : State) (t : TenantId) (r : Removal) (ports : List PortId), (s.tenant t.val).removal = some r → r.begun = true →
    (s.tenant t.val).phase = 15 → s.due (r.boundary + 16 * 2 ^ s.spn.k) = true →
    s.slotOf s.pos = 0 → (∀ f ∈ s.waiting, f.owner = t.val → f.port ∉ s.fabricUp) →
    (∀ p ∈ s.fabricUp, ∃ q ∈ ports, q.val = p) →
    ∃ u : State, exec (.fenceRound t ports) s = .next u ∧ (u.tenant t.val).phase = 17 ∧ (∀ x ∈ u.fab.regions, x.2.tenant ≠ t.val) ∧
      (∀ x ∈ u.fab.eps, x.2.tenant ≠ t.val) ∧ (∀ x ∈ u.ring.descs, x.2.owner ≠ t.val) ∧ (∀ x ∈ u.ring.evks, x.2.owner ≠ t.val) ∧
      (u.tierKey t.val 0).cur = [] ∧ (u.tierKey t.val 1).cur = []) ∧
  (∀ (s : State) (t : TenantId) (r : Removal) (n : Nat), (s.tenant t.val).removal = some r → 17 ≤ (s.tenant t.val).phase →
    (∀ c, c < 64 → s.cellTenant c = t.val → (s.cell c).clearing = false) → s.frozen = false → s.scrubMode = 0 →
    s.deviceEngines ≠ [] →
    ∃ u : State, exec (.scrub t n []) s = .next u ∧ (u.tenant t.val).state = (if r.reset then .created else .absent) ∧
      (u.tenant t.val).removal = none ∧ (r.reset = false → ∀ i, i < 3 → u.limitUnits t.val i = 0) ∧
      (∀ h ∈ u.mem.held, h.tenant = t.val → h.stuck = true) ∧
      (∀ c, r.cmd = some c → s.bigE ≤ 1 → s.jig.me = 0 → s.spn.lost = [] → (s.tenant t.val).early = [] →
        ∃ w : State, u = w.complete c .ok (r.descsEnded % 2 ^ 32 + (s.fabTenant t.val).gone % 2 ^ 32 * 2 ^ 32) 0 0)))

/-- The map operations (R384 to R387): with the checks of R385 passed a MAP of host memory enters its pages at once; a MAP of HBM or DDR takes frames
and waits, BUSY, for their zero fill; UNMAP takes the pages off; PROTECT sets the rights of each page; a failed check is the status and changes
nothing else; a write while BUSY reads 1 is discarded. -/
def Obligations.MapOperations : Prop :=
  (∀ (s : State) (fn : FnId) (t : TenantId) (v : Word64), s.sec.lifecycle ≠ .tampered → (fn = 0 ∨ fn = t) → (s.mapRegs t.val).busy = true →
    exec (.memMap fn t v) s = .next s ∧ exec (.memUnmap fn t v) s = .next s ∧ exec (.memProtect fn t v) s = .next s) ∧
  (∀ (s : State) (fn : FnId) (t : TenantId) (v : Word64), s.sec.lifecycle ≠ .tampered → (fn = 0 ∨ fn = t) → (s.mapRegs t.val).busy = false →
    let m (op : Nat) : MapRegs := { s.mapRegs t.val with
      op := op, tier := bits v.toNat 2 2, large := bitAt v.toNat 4, rights := bits v.toNat 5 4, exch := bitAt v.toNat 9,
      count := bits v.toNat 32 21, byHost := fn == 0, frames := [] }
    let done (op : Nat) : MapRegs := { m op with status := .ok, done := (m op).count, busy := false }
    let size := if (m 0).large then 2 ^ 21 else 65536
    (∀ st, s.mapCheck fn.val t.val 0 (m 0) = some st → exec (.memMap fn t v) s = .next (s.setMapRegs t.val { m 0 with status := st, done := 0 })) ∧
    (∀ st, s.mapCheck fn.val t.val 1 (m 1) = some st → exec (.memUnmap fn t v) s = .next (s.setMapRegs t.val { m 1 with status := st, done := 0 })) ∧
    (∀ st, s.mapCheck fn.val t.val 2 (m 2) = some st → exec (.memProtect fn t v) s = .next (s.setMapRegs t.val { m 2 with status := st, done := 0 })) ∧
    (s.mapCheck fn.val t.val 0 (m 0) = none → (m 0).tier = 3 → ∃ u, exec (.memMap fn t v) s = .next u ∧ u.mapRegs t.val = done 0 ∧
      (∀ i, i < (m 0).count → ((Tab.look ({} : Page) u.mem.pages (pageKey t.val ((m 0).va + size * i))).tier = 3 ∧
        (Tab.look ({} : Page) u.mem.pages (pageKey t.val ((m 0).va + size * i))).frame = (m 0).arg / 65536 + pageUnits (m 0).large * i)) ∧
      u.ram = s.ram ∧ u.sec = s.sec ∧ u.cells = s.cells) ∧
    (s.mapCheck fn.val t.val 0 (m 0) = none → (m 0).tier ≠ 3 → (m 0).exch = false →
      ∀ fs u, s.takeFrames t.val (m 0).tier (pageUnits (m 0).large) (m 0).count (s.firstFrame (m 0).tier) = some (fs, u) →
      ∃ w, exec (.memMap fn t v) s = .next w ∧ w.mapRegs t.val = { m 0 with busy := true, done := 0, frames := fs, job := (m 0).named } ∧
        w.mem.pages = s.mem.pages ∧ w.ram = s.ram ∧ w.sec = s.sec) ∧
    (s.mapCheck fn.val t.val 0 (m 0) = none → (m 0).tier = 2 → (m 0).exch = true → ∃ u, exec (.memMap fn t v) s = .next u ∧ u.mapRegs t.val = done 0 ∧
      (∀ i, i < (m 0).count → ((Tab.look ({} : Page) u.mem.pages (pageKey t.val ((m 0).va + size * i))).exch = true ∧
        (Tab.look ({} : Page) u.mem.pages (pageKey t.val ((m 0).va + size * i))).frame =
          (s.exchBase + (m 0).arg) / 65536 + pageUnits (m 0).large * i)) ∧ u.ram = s.ram ∧ u.sec = s.sec ∧ u.cells = s.cells) ∧
    (s.mapCheck fn.val t.val 1 (m 1) = none → ∃ u, exec (.memUnmap fn t v) s = .next u ∧ u.mapRegs t.val = done 1 ∧
      (∀ i, i < (m 1).count → Tab.look ({} : Page) u.mem.pages (pageKey t.val ((m 1).va + size * i)) = {}) ∧ u.ram = s.ram ∧ u.cells = s.cells) ∧
    (s.mapCheck fn.val t.val 2 (m 2) = none → ∃ u, exec (.memProtect fn t v) s = .next u ∧ u.mapRegs t.val = done 2 ∧
      (∀ i, i < (m 2).count → Tab.look ({} : Page) u.mem.pages (pageKey t.val ((m 2).va + size * i)) =
        { Tab.look ({} : Page) s.mem.pages (pageKey t.val ((m 2).va + size * i)) with
          r := bitAt (m 2).rights 0, w := bitAt (m 2).rights 1, acc := bitAt (m 2).rights 2, x := bitAt (m 2).rights 3 }) ∧
      u.ram = s.ram ∧ u.sec = s.sec ∧ u.cells = s.cells))

/-- ZERO_FILL makes a waiting MAP valid over frames of zeros and takes the tenant's returned frames out of the hold (R386, R412); without a DEVICE
slot it waits. MEM_WALK_VA answers the leaf entry of its address (R414), MEM_EXCH takes a size up to 32,768 while no jig is loaded (R379), and
MEM_RETIRE takes a free frame out of the pool and refuses one of the reservation with RIGHTS; a mapped frame is first copied to a spare, which takes
its place, and one that cannot be read leaves its page BROKEN (R411). -/
def Obligations.ZeroFillWalkExchangeAndRetire : Prop :=
  (∀ (s : State) (t : TenantId), s.deviceEngines = [] → exec (.zeroFill t) s = .next s) ∧
  (∀ (s : State) (t : TenantId), s.deviceEngines ≠ [] → s.frozen = false → (s.mapRegs t.val).busy = true → (s.tenant t.val).removal = none →
    ∃ u, exec (.zeroFill t) s = .next u ∧
      u.mapRegs t.val = { s.mapRegs t.val with busy := false, status := .ok, done := (s.mapRegs t.val).job.count, frames := [] } ∧
      (∀ f ∈ (s.mapRegs t.val).frames, ∀ a, a < pageUnits (s.mapRegs t.val).job.large * 65536 →
        u.ramByte (ramKey (s.mapRegs t.val).job.tier (f * 65536) + a) = 0) ∧
      (∀ h ∈ u.mem.held, h.tenant = t.val → h.round = none → h.stuck = true) ∧ u.sec = s.sec ∧ u.cells = s.cells ∧ u.hif = s.hif) ∧
  (∀ (s : State) (fn : FnId) (t : TenantId) (va : Word64), s.sec.lifecycle ≠ .tampered → (fn = 0 ∨ fn = t) →
    exec (.memWalkLookup fn t va) s = .next { s with mem := { s.mem with
      walkVa := Tab.put 0 s.mem.walkVa t.val (va.toNat % 281474976710656),
      walkPte := Tab.put 0 s.mem.walkPte t.val (s.page t.val (va.toNat % 281474976710656)).word } }) ∧
  (∀ (s : State) (v : Word64), s.sec.lifecycle ≠ .tampered → s.jig.loaded = false → v.toNat % 65536 ≤ 32768 →
    exec (.memExchWrite v) s = .next { s with mem := { s.mem with exch := v.toNat % 65536 } }) ∧
  (∀ (s : State) (v : Word64), s.sec.lifecycle ≠ .tampered → (s.jig.loaded = true ∨ 32768 < v.toNat % 65536) →
    exec (.memExchWrite v) s = .next (s.discarded 0 0x00A00010 v.toNat)) ∧
  (∀ (s : State) (v : Word64) (ue : Bool), s.sec.lifecycle ≠ .tampered →
    let f := bits v.toNat 16 31
    let tier := bits v.toNat 47 2
    let status (u : State) (st : Status) : State := { u with mem := { u.mem with retireStatus := st } }
    ((tier = 0 ∨ tier = 3 ∨ s.frameCount tier ≤ f) → exec (.memRetire v ue) s = .next (status s .bounds)) ∧
    (1 ≤ tier → tier ≤ 2 → f < s.frameCount tier → f < s.firstFrame tier → exec (.memRetire v ue) s = .next (status s .rights)) ∧
    (1 ≤ tier → tier ≤ 2 → f < s.frameCount tier → s.firstFrame tier ≤ f → (s.mem.retired.filter (fun x => x.1 == tier)).length < 4096 →
      (tier, f) ∉ s.mem.retired → s.pageOfFrame tier f = none →
      exec (.memRetire v ue) s = .next (status { s with mem := { s.mem with
        retired := s.mem.retired ++ [(tier, f)], inUse := Tab.put 0 s.mem.inUse (frameKey tier f) 0 } } .ok)) ∧
    (1 ≤ tier → tier ≤ 2 → f < s.frameCount tier → s.firstFrame tier ≤ f → (s.mem.retired.filter (fun x => x.1 == tier)).length < 4096 →
      (tier, f) ∉ s.mem.retired → ∀ key p, s.pageOfFrame tier f = some (key, p) →
      (ue = true → ∃ u, exec (.memRetire v ue) s = .next u ∧ u.mem.retireStatus = .memUe ∧ (tier, f) ∈ u.mem.retired ∧
        Tab.look ({} : Page) u.mem.pages key = { Tab.look ({} : Page) s.mem.pages key with broken := true } ∧ u.ram = s.ram) ∧
      (ue = false → ∀ g u, s.takeSpare (key / 2 ^ 33) tier (pageUnits p.large) = some ([g], u) →
        ∃ w, exec (.memRetire v ue) s = .next w ∧ w.mem.retireStatus = .ok ∧ (tier, f) ∈ w.mem.retired ∧
          Tab.look ({} : Page) w.mem.pages key = { Tab.look ({} : Page) s.mem.pages key with frame := g } ∧
          w.ram = ramZero (ramCopy s.ram tier p.frame g (pageUnits p.large)) tier p.frame (pageUnits p.large))))

/-- The key rotation of a tier (R405 to R409): KEY_ROTATE_MEM makes a new set and waits for the next turn boundary, refused with ROTATION_BUSY while
one runs; at the boundary the current set becomes the previous one, the epoch moves on and the command completes with VARIED; the sweep copies an old-epoch page to a spare frame and
gives it the new epoch, and a write that landed meanwhile counts a retry. What the memories hold (R376, R379, R401 to R403): a data unit of 64 bytes in
HBM, of 256 in DDR5, under AES-256-XTS with its physical address as the tweak: a page's under the key set of its epoch, an exchange frame's under the
device's exchange keys, the rest of the reservation under its own; a DDR5 block's tag is 8 bytes of the GMAC over the ciphertext under an IV that is
that address. -/
def Obligations.MemoryKeyRotation : Prop :=
  (∀ (s : State) (c : Cmd), s.accepts 0x64 c = true → (c.a0 = 1 ∨ c.a0 = 2) → (s.tierKey (cmdActs c) (c.a0 - 1)).prevValid = false →
    (s.tierKey (cmdActs c) (c.a0 - 1)).cmd = none → (memoryKeys (c.a0 - 1 == 1)).length ≤ s.freeTenantKeys.length →
    s.present (cmdActs c) = true → s.sec.healthFail = false →
    ∃ u, exec (.keyRotateMem c) s = .next u ∧ (u.tierKey (cmdActs c) (c.a0 - 1)).cmd = some (c, s.boundaryAfter s.pos) ∧
      (u.tierKey (cmdActs c) (c.a0 - 1)).cur = (s.tierKey (cmdActs c) (c.a0 - 1)).cur ∧
      (u.tierKey (cmdActs c) (c.a0 - 1)).fresh.length = (memoryKeys (c.a0 - 1 == 1)).length ∧
      u.mem.pages = s.mem.pages ∧ u.ram = s.ram ∧ u.hif = s.hif) ∧
  (∀ (s : State) (c : Cmd), s.accepts 0x64 c = true → (c.a0 = 1 ∨ c.a0 = 2) →
    ((s.tierKey (cmdActs c) (c.a0 - 1)).prevValid = true ∨ (s.tierKey (cmdActs c) (c.a0 - 1)).cmd ≠ none) →
    exec (.keyRotateMem c) s = s.refuses c .rotationBusy) ∧
  (∀ (s : State) (t : TenantId) (ddr : Bool) (c : Cmd) (b : Nat), (s.tierKey t.val (b2n ddr)).cmd = some (c, b) → s.due b = true →
    (∃ e ∈ s.mem.pages, e.1 / 2 ^ 33 = t.val ∧ e.2.tier = b2n ddr + 1 ∧ e.2.exch = false) →
    ∃ u : State, exec (.keyRotationSwitch t ddr) s = .next (u.complete c .ok 0 0 1) ∧ (u.tierKey t.val (b2n ddr)).prev = (s.tierKey t.val (b2n ddr)).cur ∧
      (u.tierKey t.val (b2n ddr)).cur = (s.tierKey t.val (b2n ddr)).fresh ∧
      (u.tierKey t.val (b2n ddr)).epoch = ((s.tierKey t.val (b2n ddr)).epoch + 1) % 4 ∧
      (u.tierKey t.val (b2n ddr)).prevValid = true ∧ (u.tierKey t.val (b2n ddr)).sweeping = true ∧ u.sec.keys = s.sec.keys ∧
      u.mem.pages = s.mem.pages ∧ u.ram = s.ram) ∧
  (∀ (s : State) (t : TenantId) (ddr : Bool) (key g : Nat) (p : Page) (u : State), (s.tierKey t.val (b2n ddr)).sweeping = true →
    s.deviceEngines ≠ [] → s.frozen = false → s.sweepNext t.val (b2n ddr) = some (key, p) →
    s.takeSpare t.val (b2n ddr + 1) (pageUnits p.large) = some ([g], u) →
    pageUnits p.large < (s.tierKey t.val (b2n ddr)).oldPages →
    ∃ w : State, exec (.keySweepUnit t ddr false false) s = .next w ∧
      Tab.look ({} : Page) w.mem.pages key = { Tab.look ({} : Page) s.mem.pages key with
        frame := g, epoch := (s.tierKey t.val (b2n ddr)).epoch } ∧
      (w.tierKey t.val (b2n ddr)).oldPages = (s.tierKey t.val (b2n ddr)).oldPages - pageUnits p.large ∧
      w.ram = ramCopy s.ram (b2n ddr + 1) p.frame g (pageUnits p.large) ∧ w.sec = s.sec ∧ w.hif = s.hif) ∧
  (∀ (s : State) (t : TenantId) (ddr ue : Bool) (key : Nat) (p : Page), (s.tierKey t.val (b2n ddr)).sweeping = true →
    s.deviceEngines ≠ [] → s.frozen = false → s.sweepNext t.val (b2n ddr) = some (key, p) →
    ∃ w : State, exec (.keySweepUnit t ddr true ue) s = .next w ∧ w.mem.pages = s.mem.pages ∧ w.ram = s.ram ∧
      (w.tierKey t.val (b2n ddr)).retries =
        (if (s.tierKey t.val (b2n ddr)).retries + 1 < 256 then (s.tierKey t.val (b2n ddr)).retries + 1 else 255)) ∧
  (∀ (s : State) (tier phys : Nat), (tier = 1 ∨ tier = 2) → phys < 18446744073709551616 →
    let n := if tier = 1 then 64 else 256
    (tier = 2 → s.exchBase ≤ phys → phys < s.exchBase + s.mem.exch * 2097152 → s.unitKeys tier phys = some (s.deviceKeys true)) ∧
    (s.inExchange tier phys = false → ∀ a p, s.pageOfFrame tier (phys / 65536) = some (a, p) → p.tier = tier →
      let K := s.tierKey (a / 8589934592) (tier - 1)
      let set := fun (l : List Nat) => some ({ first := (s.key (l.getD 0 0)).value, second := (s.key (l.getD 1 0)).value, mac := (s.key (l.getD 2 0)).value } : UnitKeys)
      (p.epoch = K.epoch → s.unitKeys tier phys = set K.cur) ∧ (p.epoch ≠ K.epoch → s.unitKeys tier phys = set K.prev)) ∧
    (s.inExchange tier phys = false → s.pageOfFrame tier (phys / 65536) = none →
      (phys / 65536 < s.firstFrame tier → s.unitKeys tier phys = some (s.deviceKeys false)) ∧
      (s.firstFrame tier ≤ phys / 65536 → s.unitKeys tier phys = none ∧ s.storedUnit tier phys = none)) ∧
    (∀ k, s.unitKeys tier phys = some k → ∃ tweak plain iv c, s.storedUnit tier phys = some c ∧ c = Config.xts k.first k.second tweak plain ∧
      tweak.length = 16 ∧ leNat tweak = phys / n * n ∧ plain.length = n ∧ (∀ i, i < n → plain.getD i 0 = s.ramByte (ramKey tier (phys / n * n + i))) ∧
      (tier = 2 → s.storedTag phys = some ((Config.gmac k.mac iv c).take 8) ∧ iv.length = 12 ∧ leNat iv = phys / 256 * 256)))

/-- DMA_SUBMIT puts a chain of descriptors behind the work of its engine and changes nothing else (R392); an engine number, length or address out of
form is refused with BOUNDS, an engine without a slot of the tenant with BUDGET (R71). The DMA engines run (R392 to R396): an engine's head
descriptor of the row's operation runs in a slot its tenant owns, charges its blocks, and a DMA_COPY, DMA_ACC_ADD or DMA_ZERO row of another
operation, or outside such a slot, does nothing; a descriptor that a check of R393 stops ends with its status; a descriptor that runs to its end with no further one completes with OK, its index and its length.
RESUME lets a parked one go on, ABANDON and an expired fault limit end it with XLATE_FAULT at its resume offset. -/
def Obligations.DmaQueuesChainsRunsParksAndEnds : Prop :=
  ((∀ (s : State) (c : Cmd), s.accepts 0x30 c = true → c.a0 ≤ 31 → c.len % 64 = 0 → c.len ≠ 0 → c.len ≤ 262144 → c.addr % 64 = 0 →
    s.ownsSlot .dma c.a0 (cmdActs c) = true → s.dmaBudgetFull (cmdActs c) ≠ 0 → s.blockFail (cmdActs c) c.addr c.len (fun p => p.r) = none →
    exec (.dmaSubmit c) s = .next (s.setWork (cmdActs c) c.a0 (s.work (cmdActs c) c.a0 ++ [
      { source := .cmd c, descs := chainOf (s.readVA (cmdActs c) c.addr c.len c.host) (c.len / 64), idx := 0, off := 0,
        preempted := false, resumed := false, varied := s.onHost (cmdActs c) c.addr c.len, begun := false, round := none }]))) ∧
  (∀ (s : State) (c : Cmd), s.accepts 0x30 c = true →
    (31 < c.a0 ∨ c.len % 64 ≠ 0 ∨ c.len = 0 ∨ 262144 < c.len ∨ c.addr % 64 ≠ 0) → exec (.dmaSubmit c) s = s.refuses c .bounds) ∧
  (∀ (s : State) (c : Cmd), s.accepts 0x30 c = true → c.a0 ≤ 31 → c.len % 64 = 0 → c.len ≠ 0 → c.len ≤ 262144 → c.addr % 64 = 0 →
    (s.ownsSlot .dma c.a0 (cmdActs c) = false ∨ s.dmaBudgetFull (cmdActs c) = 0) → exec (.dmaSubmit c) s = s.refuses c .budget)) ∧
  ((∀ (s : State) (t : TenantId) (d : EngineId) (h : List Byte) (e : Option Nat) (w : DmaWork) (c : Cmd) (u : State),
    let x := w.descs.getD w.idx (parseDesc [])
    s.work t.val d.val = [w] → w.source = .cmd c → w.idx + 1 = w.descs.length → (w.begun = true ∨ s.descCheck t.val d.val x = none) →
    s.mayIssue t.val .dma d.val = true → (s.parkedAt t.val d.val).pending = false →
    s.descPages t.val x (fun p => p.tier != 3 && !p.exch) (fun p => p.tier != 3 && !p.exch) = true →
    let s0 := (s.setParked t.val d.val {}).setEngine d.val { (s.setParked t.val d.val {}).engine d.val with active := true, tenant := t.val, op := x.op, device := false }
    State.dmaBeats t.val d.val { w with begun := true } x h e {} (x.length / 64 + 1) s0 w.off (w.off % 4096 != 0) (s0.runCycles .dma d.val t.val) =
      (u, x.length, none) →
    ∃ v : State, v = s.dmaStep t.val d.val x.op h e {} ∧
      (x.op = 0 → exec (.dmaCopy t d h e {}) s = .next v) ∧ (x.op = 1 → exec (.dmaAccAdd t d h e {}) s = .next v) ∧
      (x.op = 2 → h = [] → exec (.dmaZero t d e {}) s = .next v) ∧
      v.work t.val d.val = [] ∧ v.ram = u.ram ∧ v.cells = (u.settleFeed s0 (s.feedCells d.val x) {}).cells ∧ v.mem.pages = u.mem.pages ∧ v.spn.budgetDma = u.spn.budgetDma ∧
      (v.engine d.val).active = false ∧ (v.engine d.val).lastStatus = .ok) ∧
  (∀ (s : State) (t : TenantId) (d : EngineId) (h : List Byte) (e : Option Nat) (w : DmaWork) (r : List DmaWork),
    s.work t.val d.val = w :: r → (s.mayIssue t.val .dma d.val = false ∨ ((s.parkedAt t.val d.val).pending = true ∧ (s.parkedAt t.val d.val).resume = false)) →
    ∀ m, exec (.dmaCopy t d h e m) s = .next s ∧ exec (.dmaAccAdd t d h e m) s = .next s ∧ exec (.dmaZero t d e m) s = .next s) ∧
  (∀ (s : State) (t : TenantId) (d : EngineId) (h : List Byte) (e : Option Nat) (m : Met) (w : DmaWork) (r : List DmaWork) (st : Status),
    let x := w.descs.getD w.idx (parseDesc [])
    s.work t.val d.val = w :: r → w.begun = false → s.mayIssue t.val .dma d.val = true → (s.parkedAt t.val d.val).pending = false →
    s.descCheck t.val d.val x = some st →
    (x.op = 0 → exec (.dmaCopy t d h e m) s = .next (s.endDesc t.val d.val w r w.off st)) ∧
    (x.op = 1 → exec (.dmaAccAdd t d h e m) s = .next (s.endDesc t.val d.val w r w.off st)) ∧
    (x.op = 2 → exec (.dmaZero t d e m) s = .next (s.endDesc t.val d.val w r w.off st))) ∧
  (∀ (s : State) (fn : FnId) (t : TenantId) (d : EngineId), s.sec.lifecycle ≠ .tampered → (fn = 0 ∨ fn = t) →
    (s.parkedAt t.val d.val).pending = true →
    exec (.resume fn t d) s = .next (s.setParked t.val d.val { s.parkedAt t.val d.val with resume := true }) ∧
    (∀ w r c, s.work t.val d.val = w :: r → w.source = .cmd c →
      let ended := ((s.setEngine d.val { s.engine d.val with active := false, bytes := w.off % 2 ^ 40, lastStatus := .xlateFault }).setParked t.val d.val {}).setWork t.val d.val r
      exec (.abandon fn t d) s = .next (ended.complete c .xlateFault (w.idx + w.off * 2 ^ 16) 0 w.flags) ∧
      (s.mem.faultLimit ≠ 0 → s.mem.faultLimit ≤ (s.parkedAt t.val d.val).turns → s.frozen = false →
        exec (.faultLimitExpire t d) s = .next (ended.complete c .xlateFault (w.idx + w.off * 2 ^ 16) 0 w.flags)))) ∧
  (∀ (s : State) (t : TenantId) (d : EngineId), s.mem.faultLimit = 0 → exec (.faultLimitExpire t d) s = .next s))

/-- One beat of a descriptor moves 64 bytes (R391, R394): a COPY's and a ZERO's beat leaves at the destination what the source gave, an ACC_ADD's
leaves the element sums, both on device memory, at exactly the 64 bytes of the destination address of the page; a page that is not mapped parks the
descriptor, a right that is missing ends it with RIGHTS (R395, R397). -/
def Obligations.DmaBeatMovesItsBytes : Prop :=
  ∀ (s : State) (t d : Nat) (w : DmaWork) (x : Desc) (off : Nat) (bs : List Byte), x.dstCell = false → bs.length = 64 →
    (x.dst + off) % 64 = 0 →
    let va := x.dst + off
    let p := s.page t va
    let k := ramKey p.tier (p.phys va)
    (p.tier = 0 → s.beatDest t d w x off bs none = .error (.park (va / 65536 * 65536) false)) ∧
    (p.tier ≠ 0 → p.broken = false → (if x.op = 1 then p.acc else p.w) = false → s.beatDest t d w x off bs none = .error (.fail .rights)) ∧
    (p.tier = 1 ∨ p.tier = 2 → p.broken = false → (if x.op = 1 then p.acc else p.w) = true → p.sealed_ = false → p.locks = 0 →
      ∃ u, s.beatDest t d w x off bs none = .ok u ∧ u = { s with ram := u.ram } ∧
        (∀ a, (a < k ∨ k + 64 ≤ a) → u.ramByte a = s.ramByte a) ∧
        (x.op ≠ 1 → ∀ i, i < 64 → u.ramByte (k + i) = bs.getD i 0) ∧
        (x.op = 1 → ∀ i, i < 64 → u.ramByte (k + i) =
          (addBeat x.arith.1 x.arith.2 ((List.range 64).map (fun j => s.ramByte (k + j))) bs).getD i 0))

/-- JIG_LOAD (R104 to R106): while another load or a commit is pending, or tenants are in being, it is refused with CFG_LOCKED, in the wrong
life-cycle state with LIFECYCLE; otherwise the image in the buffer, read as R97 to R103 lay it out, is checked, and one that passes every check waits;
at the first multiple of 2^16 ticks later its values are the committed, shadowed and live ones, tenant 0 runs and the command completes with OK, with
VARIED where the buffer lies in the HOST tier. JIG_EDIT (R107 to R110): the records in its buffer take effect together, in order, on shadow and live
values, and the shadow digest follows; a record of an unknown section refuses the whole command with CFG_MISMATCH, one past its section's end with
BOUNDS, one of a locked field, or live and shadowed ones mixed, with CFG_LOCKED, and then nothing changes. A live field out of range keeps its value,
and a DISCARDED event is raised (R119). -/
def Obligations.JigImagesAndEditsTakeEffectWhole : Prop :=
  ((∀ (s : State) (c : Cmd) (img : JigImage), s.accepts 0x01 c = true → s.loadLocked = true →
    exec (.jigLoad c img) s = .next (s.endJig c .cfgLocked 0)) ∧
  (∀ (s : State) (c : Cmd) (img : JigImage), s.accepts 0x01 c = true → s.loadLocked = false → s.sec.lifecycle ≠ .owned →
    s.sec.lifecycle ≠ .open_ → exec (.jigLoad c img) s = .next (s.endJig c .lifecycle 0)) ∧
  (∀ (s : State) (c : Cmd) (img : JigImage), s.accepts 0x01 c = true → s.loadLocked = false →
    (s.sec.lifecycle = .owned ∨ s.sec.lifecycle = .open_) → s.blockFail 0 c.addr c.len (fun p => p.r) = none →
    let r := readJig (s.readVA 0 c.addr (min c.len 4194304) c.host) img.cfg
    (∀ st, s.jigImageCheck r.1 r.2.2 img.sig c.len = some st → ∃ t : State, exec (.jigLoad c img) s = .next (t.endJig c st 0) ∧
      t.jig.cfg = s.jig.cfg ∧ t.jig.loading = s.jig.loading ∧ t.jig.checkId = 0 ∧ t.cells = s.cells ∧ t.sec = s.sec) ∧
    (∀ k, s.jigImageCheck r.1 r.2.2 img.sig c.len = none → firstCheck (s.loadChecks r.1 r.2.1 r.2.2 img.misshapen) = some k →
      ∃ t : State, exec (.jigLoad c img) s = .next (t.endJig c .cfgMismatch 0) ∧
        t.jig.cfg = s.jig.cfg ∧ t.jig.loading = s.jig.loading ∧ t.jig.checkId = k.id ∧ t.jig.checkSection = k.type ∧
        t.jig.checkInst = k.inst ∧ (∀ n, k.off = some n → t.jig.checkOffset = n % 2 ^ 24) ∧ t.sec = s.sec) ∧
    (s.jigImageCheck r.1 r.2.2 img.sig c.len = none → firstCheck (s.loadChecks r.1 r.2.1 r.2.2 img.misshapen) = none →
      exec (.jigLoad c img) s = .next (s.updJig fun j => { j with
        loading := some (c, { header := r.1, lengths := sectionLengths r.2.1, cfg := r.2.2 }, s.pos) }))) ∧
  (∀ (s : State) (c : Cmd) (img : LoadedJig) (p : Nat), s.jig.loading = some (c, img, p) → s.due ((p / 65536 + 1) * 65536) = true →
    ∃ t : State, exec .jigLoadEffect s = .next (t.endJigWith c .ok 0 (if s.onHost 0 c.addr c.len then 1 else 0)) ∧
      t.jig.loaded = true ∧ t.jig.loading = none ∧
      t.jig.cfg = { img.cfg with live := none } ∧ t.jig.shadow = { img.cfg with live := none } ∧ t.jig.active = 0 ∧ t.jig.activeShadow = 0 ∧
      t.jig.live = (match img.cfg.live with | some v => (liveTake s.jig.live v).1 | none => s.jig.live) ∧ t.jig.serial = img.header.serial ∧
      t.jig.measurement = jigMeasurement img.header img.header.serial { img.cfg with live := none } ∧
      t.jig.shadowDigest = jigMeasurement img.header 0 { img.cfg with live := none } ∧
      (t.tenant 0).state = .running ∧ t.spn.k = img.cfg.spindle.k ∧ t.ram = s.ram) ∧
  (∀ s : State, s.jig.loading = none → exec .jigLoadEffect s = .next s)) ∧
  ((∀ (s : State) (c : Cmd) (means : List EditMeaning), s.accepts 0x02 c = true → s.blockFail 0 c.addr c.len (fun p => p.r) = none →
    let recs := s.editRecords c means
    let bad := recs.any (fun r => !s.sectionKnown r.1)
    let past := recs.any (fun r => s.recordOutside r.1)
    let locked := (recs.any (fun r => recordLive r.1) && recs.any (fun r => !recordLive r.1)) || recs.any (fun r => s.recordLocked r.1 r.2) ||
      (recs.any (fun r => !recordLive r.1) && s.jig.commit.isSome)
    (bad = true → exec (.jigEdit c means) s = s.refuses c .cfgMismatch) ∧
    (bad = false → past = true → exec (.jigEdit c means) s = s.refuses c .bounds) ∧
    (bad = false → past = false → locked = true → exec (.jigEdit c means) s = s.refuses c .cfgLocked) ∧
    (bad = false → past = false → locked = false → ∃ t : State, exec (.jigEdit c means) s = .next (t.ok c) ∧
      t.jig.shadow = (recs.foldl State.applyRecord s).jig.shadow ∧ t.jig.live = (recs.foldl State.applyRecord s).jig.live ∧
      t.jig.cfg = s.jig.cfg ∧ t.jig.active = s.jig.active ∧ t.jig.shadowDigest = jigMeasurement s.jig.header 0 t.jig.shadow ∧
      t.mem = s.mem ∧ t.cells = s.cells ∧ t.sec = s.sec)) ∧
  (∀ (s : State) (r : EditRecord) (m : EditMeaning) (v : JigSpindle), s.jig.loaded = true → r.type = 2 → recordResets r = false →
    m.value = .spindle v → (State.applyRecord s (r, m)).jig.shadow = { s.jig.shadow with spindle := v }) ∧
  (∀ (s : State) (r : EditRecord) (m : EditMeaning), recordResets r = true → r.type = 0xFFFF →
    (State.applyRecord s (r, m)).jig.shadow = s.jig.cfg ∧ (State.applyRecord s (r, m)).jig.activeShadow = s.jig.activeShadow) ∧
  (∀ (s : State) (v : Word64), s.sec.lifecycle ≠ .tampered →
    let hb := v.toNat % 4294967296
    let hl := v.toNat / 4294967296 % 4294967296
    (100 ≤ hb → hb ≤ 60000 → 60 ≤ hl → hl ≤ 86400 →
      exec (.liveFieldWrite 0 v) s = .next (s.updJig fun j => { j with live := { j.live with heartbeatMs := hb, hostLostS := hl } })) ∧
    ((hb < 100 ∨ 60000 < hb) → ∃ u : State, exec (.liveFieldWrite 0 v) s = .next (u.discarded 0 0x00200100 v.toNat) ∧
      u.jig.live.heartbeatMs = s.jig.live.heartbeatMs ∧ u.jig.cfg = s.jig.cfg ∧ u.sec = s.sec) ∧
    exec (.liveFieldWrite 1 v) s = .next (s.updJig fun j => { j with live := { j.live with deviceMask := hb } }) ∧
    (70 ≤ v.toNat % 256 → v.toNat % 256 ≤ 104 →
      exec (.liveFieldWrite 2 v) s = .next (s.updJig fun j => { j with live := { j.live with tempWarnC := v.toNat % 256 } })) ∧
    ((v.toNat % 256 < 70 ∨ 104 < v.toNat % 256) → exec (.liveFieldWrite 2 v) s = .next (s.discarded 0 0x00200110 v.toNat))))

/-- The commit of a jig (R111 to R116): JIG_COMMIT in order is pending with the shadow digest and this member's own verdict, which is CFG_MISMATCH where
a check of the shadow fails; an unsigned one only in OPEN; one whose turn lies too near is refused with BARRIER_TIMEOUT, one with a bad signature, or
signed over another digest, turn or serial, with CFG_SIGNATURE, one while a commit is pending with CFG_LOCKED. At B − 2^(k+1) each verdict goes to
the coordinator, which takes them until it decides at B − 2^k: the first failing verdict in order of member refuses the swap, a missing one counting
as BARRIER_TIMEOUT; every member takes the decision; at B the shadow is swapped in, or the committed values stand. A commit that no decision has
reached by B keeps the committed values and completes with BARRIER_TIMEOUT (the model's choice: notes/assumptions/44.md). -/
def Obligations.JigCommitDecidesAndSwaps : Prop :=
  (∀ (s : State) (c : Cmd) (sig : SigPair), s.accepts 0x03 c = true → s.jig.loaded = true → s.jig.commit = none → s.jig.loading = none →
    (s.bigE ≤ 1 ∨ (s.isCoord = true ∧ bitAt c.a2 0 = true)) →
    ((c.len = 0 ∧ s.sec.lifecycle = .open_) ∨ (c.len = 8240 ∧ sig.ok = true ∧ s.blockFail 0 c.addr 8240 (fun p => p.r) = none)) →
    let signed := (s.jig.shadowDigest, c.a0, c.a1)
    let near := c.a0 * 2 ^ s.spn.k < s.pos + 150000 + 2 ^ (s.spn.k + 1)
    (near → exec (.jigCommit c sig signed) s = .next (s.endJig c .barrierTimeout 0)) ∧
    (¬near → ∃ t, exec (.jigCommit c sig signed) s = .next t ∧ t.jig.commit = some {
        turn := c.a0, serial := c.a1, assembly := bitAt c.a2 0, digest := s.jig.shadowDigest, cmd := some c, verdicts := [], sent := false,
        own := (if firstCheck s.commitChecks = none then .ok else .cfgMismatch, ((firstCheck s.commitChecks).map (·.id)).getD 0),
        readmit := [], decision := none } ∧
      t.jig.cfg = s.jig.cfg ∧ t.jig.shadow = s.jig.shadow ∧ t.hif = s.hif ∧ t.mem = s.mem ∧ t.cells = s.cells ∧ t.sec = s.sec ∧
      (s.bigE ≤ 1 → t.out = s.out ∧ t.slot0 = s.slot0) ∧
      (2 ≤ s.bigE → ∃ u : State, t = u.sendDevice (.commitNotice c.a0 c.a1 s.jig.shadowDigest s.jig.activeShadow)))) ∧
  (∀ (s : State) (c : Cmd) (sig : SigPair) (signed : Digest × Nat × Nat), s.accepts 0x03 c = true → c.len = 8240 →
    s.blockFail 0 c.addr 8240 (fun p => p.r) = none →
    (sig.ok = false ∨ signed ≠ (s.jig.shadowDigest, c.a0, c.a1) → exec (.jigCommit c sig signed) s = .next (s.endJig c .cfgSignature 0)) ∧
    (sig.ok = true → signed = (s.jig.shadowDigest, c.a0, c.a1) →
      (s.jig.commit ≠ none ∨ (2 ≤ s.bigE ∧ (s.isCoord = false ∨ bitAt c.a2 0 = false))) →
      exec (.jigCommit c sig signed) s = .next (s.endJig c .cfgLocked 0))) ∧
  (∀ (s : State) (k : Commit), s.jig.commit = some k → k.sent = false → s.due (s.commitAt k - 2 ^ (s.spn.k + 1)) = true →
    (s.isCoord = true → k.verdicts = [] → exec (.commitVerdict none) s =
      .next (s.updJig fun j => { j with commit := some { k with sent := true, verdicts := [(s.jig.me, k.own.1, k.own.2)] } })) ∧
    (s.isCoord = false → exec (.commitVerdict none) s =
      .next ((s.updJig fun j => { j with commit := some { k with sent := true } }).sendDevice (.commitVerdict s.jig.me k.own.1 k.own.2)))) ∧
  (∀ (s : State) (k : Commit) (m ck : Nat) (st : Status), s.jig.commit = some k → k.decision = none → s.decides = true → s.frozen = false →
    s.pos ≤ s.commitAt k - 2 ^ s.spn.k → (∀ v ∈ k.verdicts, v.1 ≠ m) →
    exec (.commitVerdict (some (m, st, ck))) s = .next (s.updJig fun j => { j with commit := some { k with verdicts := k.verdicts ++ [(m, st, ck)] } })) ∧
  (∀ (s : State) (k : Commit), s.jig.commit = some k → k.decision = none → s.decides = true → s.due (s.commitAt k - 2 ^ s.spn.k) = true →
    ((∀ m, m < s.bigE → m ∉ s.spn.lost → ∃ ck, k.verdicts.find? (fun v => v.1 == m) = some (m, .ok, ck)) →
      ∃ t, exec (.commitDecision none) s = .next t ∧
        t.jig = { s.jig with commit := some { k with decision := some (true, .ok, 0, 0), readmit := s.readmits k } } ∧ t.cells = s.cells ∧ t.mem = s.mem) ∧
    (∀ m, m < s.bigE → m ∉ s.spn.lost → (∀ v ∈ k.verdicts, v.1 ≠ m) →
      (∀ j, j < m → j ∉ s.spn.lost → ∃ ck, k.verdicts.find? (fun v => v.1 == j) = some (j, .ok, ck)) →
      ∃ t, exec (.commitDecision none) s = .next t ∧ t.jig.commit = some { k with decision := some (false, .barrierTimeout, m, 0) } ∧
        t.jig.cfg = s.jig.cfg)) ∧
  (∀ (s : State) (k : Commit) (swap : Bool) (back : List Nat), s.jig.commit = some k → k.decision = none → s.isCoord = false → s.frozen = false →
    exec (.commitDecision (some (swap, back))) s =
      .next (s.updJig fun j => { j with commit := some { k with decision := some (swap, .ok, 0, 0), readmit := back } })) ∧
  (∀ (s : State) (k : Commit) (c : Cmd), s.jig.commit = some k → s.due (s.commitAt k) = true → k.cmd = some c →
    (∀ x, k.decision = some (true, x) → ∃ t : State, exec .jigSwap s = .next (t.endJig c .ok 0) ∧ t.jig.commit = none ∧ t.jig.cfg = s.jig.shadow ∧
      t.jig.active = s.jig.activeShadow ∧ t.jig.serial = k.serial ∧ t.jig.measurement = jigMeasurement s.jig.header k.serial s.jig.shadow ∧
      t.jig.header.compositionHash = compositionHash s.jig.shadow.assembly ∧ t.ram = s.ram) ∧
    (∀ st m ck, k.decision = some (false, st, m, ck) →
      exec .jigSwap s = .next ((s.updJig fun j => { j with commit := none }).endJig c st m)) ∧
    (k.decision = none → exec .jigSwap s = .next ((s.updJig fun j => { j with commit := none }).endJig c .barrierTimeout 0)))

/-- Bringing the time base up (R81, R82, R552, R565): a qualified SPIN_CLK starts the position at 0; PLLs not locked 20,000 ticks later fail; reset
is released at a multiple of 100 strictly after the lock or the repeat; a FIFO check that differs repeats the release, the fourth time it fails; a
check that agrees leads, at A + 200, to link training. Time positions (R33, R52 to R54, R56, R95): SPN_EPOCH is taken by a quiet MASTER with SYNC
where it is a multiple of 100 and otherwise sets EPOCH_ERR; the sync edge makes it the position, once alignment has not failed; a PTP message is kept
and answered with a delay request and, for one quiet engine, adopted at an alignment edge strictly later; the offset is PTP time less Spindle time in
ns; an assembly's quiet follower that agrees takes half of each round trip as a link's delay and adopts its upstream's position corrected by it, one
that differs is refused CFG_MISMATCH. The rounding of the corrected position is the model's (notes/assumptions/27.md). -/
def Obligations.AlignmentAndAdoption : Prop :=
  ((∀ s : State, s.spn.align = .qualifying → s.perst = false → exec .spinClkQualified s = .next (s.updSpn fun x => { x with
    clk := true, pos := 0, lastBoundary := 0, align := .locking, locked := false, releaseAfter := some 0 })) ∧
  (∀ s : State, s.spn.align = .locking → s.spn.locked = false → 20000 ≤ s.pos →
    exec .pllLockTimeout s = .next (s.updSpn fun x => { x with align := .failed })) ∧
  (∀ s : State, s.spn.align = .locking → s.pos % 100 = 0 → (s.spn.locked = true ∨ s.pos ≤ 20100) →
    ((∀ p, s.spn.releaseAfter = some p → p < s.pos) →
      exec .alignRelease s = .next (s.updSpn fun x => { x with align := .released x.pos, locked := true, releaseAfter := none })) ∧
    (∀ p, s.spn.releaseAfter = some p → s.pos ≤ p → exec .alignRelease s = .next s)) ∧
  (∀ (s : State) (a : Nat), s.spn.align = .released a → a + 100 ≤ s.pos →
    exec (.fifoCheck true) s = .next (s.updSpn fun x => { x with align := .checked a, alignRepeats := 0 }) ∧
    (s.spn.alignRepeats < 3 →
      exec (.fifoCheck false) s = .next (s.updSpn fun x => { x with align := .locking, alignRepeats := x.alignRepeats + 1, releaseAfter := some x.pos })) ∧
    (3 ≤ s.spn.alignRepeats → exec (.fifoCheck false) s = .next (s.updSpn fun x => { x with align := .failed }))) ∧
  (∀ (s : State) (a : Nat), s.spn.align = .checked a → a + 200 ≤ s.pos →
    exec .cxlTrainingStart s = .next (s.updSpn fun x => { x with align := .done }))) ∧
  ((∀ (s : State) (v : Word64), s.sec.lifecycle ≠ .tampered →
    (v.toNat % 9223372036854775808 % 100 = 0 → s.spn.role = .master → s.jig.cfg.spindle.epoch = .sync → s.quiet = true →
      exec (.spnEpochWrite 0 v) s = .next (s.updSpn fun x => { x with
        epoch := v.toNat % 9223372036854775808, arm := x.arm || bitAt v.toNat 63 })) ∧
    ((v.toNat % 9223372036854775808 % 100 ≠ 0 ∨ s.spn.role ≠ .master ∨ s.quiet = false) →
      exec (.spnEpochWrite 0 v) s = .next (s.updSpn fun x => { x with epochErr := true }))) ∧
  (∀ s : State, s.spn.arm = true → s.spn.role = .master → s.mayAdopt = true → ∃ t, exec .spinSyncEdge s = .next t ∧ t.spn.pos = s.spn.epoch ∧
    t.spn.arm = false ∧ t.spn.epochSet = true ∧ t.spn.align = .locking ∧ t.mem = s.mem ∧ t.cells = s.cells ∧ t.agg = s.agg) ∧
  (∀ s : State, s.mayAdopt = true ↔ s.quiet = true ∧ s.frozen = false ∧ s.spn.align ≠ .failed) ∧
  (∀ (s : State) (p : PortId) (d ns : Nat), s.jig.loaded = true → s.spn.role = .master → s.jig.cfg.spindle.epoch = .ptp →
    p.val = s.jig.cfg.spindle.ptpPort → d = s.jig.cfg.spindle.ptpDomain → (s.port p.val).state = 1 → s.frozen = false →
    ∃ t, exec (.ptpMessage p d ns) s = .next t ∧ t.spn.ptpTime = some (ns, s.pos) ∧ t.spn.ptpReady = some (s.spn.ptpReady.getD s.pos) ∧
      t.out = .ptpDelayReq p.val :: s.out ∧ t.mem = s.mem ∧ t.cells = s.cells) ∧
  (∀ (s : State) (ns q r : Nat), s.spn.ptpTime = some (ns, q) → s.spn.ptpReady = some r → r < s.pos → s.jig.loaded = true → s.bigE = 1 →
    s.spn.role = .master → s.jig.cfg.spindle.epoch = .ptp → s.spn.epochSet = false → s.pos % 100 = 0 → s.mayAdopt = true →
    ∃ t, exec .ptpAdopt s = .next t ∧ t.spn.pos = (ns + 10 * (s.pos - q) + 999) / 1000 * 100 ∧ t.spn.epochSet = true ∧ t.mem = s.mem) ∧
  (∀ (s : State) (ns q : Nat), s.spn.ptpTime = some (ns, q) → s.spn.epochSet = true → s.spn.ptpUpdated + 100000000 ≤ s.pos →
    exec .ptpOffsetUpdate s = .next (s.updSpn fun x => { x with
      ptpOffset := ((ns + 10 * (s.pos - q) : Nat) : Int) - 10 * (s.pos : Int), ptpUpdated := s.pos })) ∧
  (∀ (s : State) (pos : Nat) (ds : List (PortId × Nat)), s.jig.loaded = true → 2 ≤ s.bigE → s.mayAdopt = true → s.spn.stopped = false →
    s.jig.me ∉ s.spn.lost → s.spn.role = .follower →
    (s.spn.locked = true → s.spn.source ≠ .holdover → s.measuresBoth ds = true →
      ∃ t, exec (.assemblyAlignment pos s.dbg.fw.fwClass (compositionHash s.jig.cfg.assembly) s.jig.measurement ds) s = .next t ∧
        t.spn.pos = (pos + (s.setDelays ds).delayOf (s.upstreamPort.getD 0) / 10000 + 99) / 100 * 100 ∧
        t.spn.epochSet = true ∧ t.jig.alignDue = false ∧ t.mem = s.mem ∧ t.cells = s.cells) ∧
    (∀ (fw : Nat) (c m : Digest), (fw ≠ s.dbg.fw.fwClass ∨ c ≠ compositionHash s.jig.cfg.assembly ∨ m ≠ s.jig.measurement) →
      ∃ t, exec (.assemblyAlignment pos fw c m ds) s = .next t ∧ t.jig.lastStatus = .cfgMismatch ∧ t.jig.alignDue = false ∧
        t.out = .alignRefused .cfgMismatch :: s.out ∧ t.spn = s.spn ∧ t.mem = s.mem)) ∧
  (∀ (s : State) (l : List (PortId × Nat)) (p : PortId) (d : Nat), (s.setDelays (l ++ [(p, d)])).delayOf p.val = d / 2))

/-- Sources and freezes (R57, R59, R68, R79, R90): a follower that loses its upstream holds over, 16 turns later issue stops at the next boundary; a
MASTER without SPIN_CLK holds over and stops; a new ratio takes effect at the first alignment edge from its boundary; a trip freezes the clocks no
later than 10 ticks after it, and they restart at the first alignment edge strictly after both the trip has cleared and 200 ticks of freeze have
passed; a refresh window is noted. -/
def Obligations.SourcesRatiosAndFreezes : Prop :=
  (∀ s : State, s.spn.role = .follower → (s.spn.source = .primary ∨ s.spn.source = .secondary) →
    exec .upstreamLoss s = .next (s.updSpn fun x => { x with
      switchDue := decide (s.spn.source = .primary), source := .holdover, holdoverTurns := 0, locked := false })) ∧
  (∀ s : State, s.spn.role = .follower → s.spn.source = .holdover → 16 ≤ s.spn.holdoverTurns →
    exec .holdoverLimit s = .next (s.updSpn fun x => { x with stopDue := true })) ∧
  (∀ s : State, s.spn.role = .master → s.spn.clkLostAt = none → exec .spinClkLoss s = .next (s.updSpn fun x => { x with
    clk := false, clkLostAt := some s.pos, source := .holdover, holdoverTurns := 0, locked := false, stopDue := true })) ∧
  (∀ (s : State) (r b : Nat), s.spn.ratioDue = some (r, b) → s.due ((b + 99) / 100 * 100) = true →
    exec .ratioSwitch s = .next (s.updSpn fun x => { x with ratio := r, ratioDue := none })) ∧
  (∀ (s : State) (p : Nat), s.spn.tripAt = some p → s.spn.frozenAt = none → ∃ t, exec .freezeBegin s = .next t ∧
    t.spn.frozenAt = some (min s.pos (p + 10)) ∧ t.spn.tripAt = some p ∧ t.spn.freezes = (if s.spn.freezes + 1 < 2 ^ 32 then s.spn.freezes + 1 else 2 ^ 32 - 1) ∧
    t.mem = s.mem ∧ t.cells = s.cells ∧ t.sec = s.sec) ∧
  (∀ (s : State) (f c : Nat), s.spn.frozenAt = some f → (∀ p, s.spn.tripAt = some p → p ≤ c) → c < s.pos → s.pos % 100 = 0 → f + 200 < s.pos →
    ∃ t, exec (.thaw c) s = .next t ∧ t.spn.frozenAt = none ∧ t.spn.tripAt = none ∧ t.spn.lastFreeze = min 4294967295 (s.pos - f) ∧ t.spn.pos = s.pos ∧
      t.mem = s.mem ∧ t.cells = s.cells ∧ t.sec = s.sec) ∧
  (∀ (s : State) (f c : Nat), s.spn.frozenAt = some f → (s.pos % 100 ≠ 0 ∨ s.pos ≤ f + 200 ∨ s.pos ≤ c ∨ ∃ p, s.spn.tripAt = some p ∧ c < p) →
    exec (.thaw c) s = .next s) ∧
  (∀ (s : State) (ddr : Bool) (u : Fin 16) (p : Nat), s.frozen = false → u.val < (if ddr then 12 else 8) →
    s.refreshAt (s.slotTable (if ddr then .ddrRefresh else .hbmRefresh) u.val) s.pos = some p →
    exec (.refreshWindow ddr u) s = .next (s.updSpn fun x => { x with refresh := Tab.put 0 x.refresh (if ddr then 8 + u.val else u.val) p }))

/-- At a turn boundary (R45, R46, R60, R69, R447, R456): every DMA budget is back at its full value, a stop that was due holds, the losses declared
are in effect, the NAK counts of the turn are 0, and a running tenant whose Bus Master Enable was cleared is SUSPENDED; before the boundary's
position, and while the clocks are frozen, the row does nothing. Losing members (R45 to R47, R59, R67): the coordinator's MEMBER_LOSS of a member
in being that missed a barrier, or whose fabric ports have been out for two turns, is announced and due at the next boundary, and changes nothing
otherwise; the standby declares a coordinator that it has not heard for two turns lost from the boundary that ends this
turn; an isolated coordinator, and a member that hears neither coordinator for four turns, stop issue at the next boundary; in slot 0 each member
sends its DEVICE frame and the frames that wait for the slot. Which slot a notice leaves in is R67's; it is queued until slot 0 comes. -/
def Obligations.TurnBoundaryAndMemberLoss : Prop :=
  ((∀ s : State, (s.pos < s.spn.lastBoundary + 2 ^ s.spn.k ∨ s.frozen = true) → exec .turnBoundary s = .next s) ∧
  (∀ s : State, s.spn.lastBoundary + 2 ^ s.spn.k ≤ s.pos → s.frozen = false →
    ∃ t, exec .turnBoundary s = .next t ∧ t.spn.lastBoundary = s.spn.lastBoundary + 2 ^ s.spn.k ∧ t.spn.pos = s.spn.pos ∧
      t.spn.stopDue = false ∧ (t.spn.stopped = (s.spn.stopped || s.spn.stopDue)) ∧ t.spn.lossDue = [] ∧
      (∀ u, u < 8 → (t.dmaBudget u).remaining = s.dmaBudgetFull u) ∧ (∀ m ∈ s.spn.lossDue, m ∈ t.spn.lost) ∧
      (∀ e, (t.ep e).naksTurn = 0) ∧
      (∀ u, 1 ≤ u → u < 8 → (s.tenant u).state = .running → (s.tenant u).suspendDue ≠ 0 → Tab.look false s.hif.bme u = false →
        (t.tenant u).state = .suspended))) ∧
  (∀ s : State, s.jig.loaded = true → 2 ≤ s.bigE →
    (∀ m n, s.decides = true → m < s.bigE → m ≠ s.jig.me → m ∉ s.spn.lost → m ∉ s.spn.lossDue → (2 ≤ n ∨ m ∈ s.spn.missedBy) →
      exec (.memberLoss m n) s = .next ((s.updSpn fun x => { x with lossDue := x.lossDue ++ [m] }).sendDevice (.lost m))) ∧
    (∀ m n, n < 2 → m ∉ s.spn.missedBy → exec (.memberLoss m n) s = .next s) ∧
    (s.spn.standbyTree = false → s.jig.me = s.standby → 2 ≤ s.spn.quietCoord → s.spn.coordLossAt = none → s.slotOf s.pos = 0 →
      exec .coordinatorLoss s = .next ((s.updSpn fun x => { x with coordLossAt := some ((s.pos / 2 ^ s.spn.k + 1) * 2 ^ s.spn.k) }).emit
        (.device (.lost s.coordinator)))) ∧
    (s.isCoord = true → 2 ≤ s.spn.quietMembers → exec .isolatedCoordinatorStop s = .next (s.updSpn fun x => { x with stopDue := true })) ∧
    (s.isCoord = false → 4 ≤ s.spn.quietBoth → s.spn.ceased = false → exec .noStandbyStop s =
      .next ((s.updSpn fun x => { x with stopDue := true, ceased := true }).sendDevice (.timeout s.jig.me))) ∧
    (∀ m, s.slotOf s.pos = 0 → s.sendDevice m = s.emit (.device m)) ∧
    (∀ m, s.slotOf s.pos ≠ 0 → s.sendDevice m = { s with slot0 := s.slot0 ++ [.device m] }) ∧
    (s.frozen = false → s.slotOf s.pos = 0 → s.spn.slot0Sent = false →
      (s.isCoord = true → s.spn.stopped = false → s.spn.clkLostAt = none → s.spn.ceased = false →
        exec .slot0DeviceFrames s = .next ((s.updSpn fun x => { x with slot0Sent := true }).flushSlot0.emit (.device (.status true)))) ∧
      (s.isCoord = false → s.jig.me ≠ s.standby → exec .slot0DeviceFrames s =
        .next ((s.updSpn fun x => { x with slot0Sent := true }).flushSlot0.emit (.device (.member s.jig.me s.spn.heardCoord)))) ∧
      s.flushSlot0 = { s with slot0 := [], out := s.slot0.reverse ++ s.out }))

/-- Ports in service (R421 to R423): a cause takes a port that is UP out with its reason (1 link, 2 laser, 4 host), a lane error of 16 or fewer
codewords leaves it in service; READMIT of a port in OUT trains it, and it may rise at the first boundary after one whole turn, then UP with reason
0. -/
def Obligations.PortsLeaveAndReturnToService : Prop :=
  (∀ (s : State) (p : PortId) (lane : Fin 4) (n : Nat), 1 ≤ (s.port p.val).role → (s.port p.val).state = 1 → s.spn.role ≠ .follower →
    (n = 0 ∨ 16 < n → ∃ t, exec (.laneFailure p lane n) s = .next t ∧ (t.port p.val).state = 2 ∧ (t.port p.val).reason = 1 ∧
      (∀ q, q ≠ p.val → t.port q = s.port q) ∧ t.spn = s.spn ∧ t.mem = s.mem ∧ t.cells = s.cells) ∧
    (1 ≤ n → n ≤ 16 → ∃ t, exec (.laneFailure p lane n) s = .next t ∧ (t.port p.val).state = 1 ∧
      (t.port p.val).fecUncorr = (if (s.port p.val).fecUncorr + n < 65536 then (s.port p.val).fecUncorr + n else 65535) ∧
      t.hif = s.hif ∧ t.spn = s.spn) ∧
    (∃ t, exec (.laserInputLow p) s = .next t ∧ (t.port p.val).state = 2 ∧ (t.port p.val).reason = 1 ∧ (t.port p.val).lanesOk = 0 ∧
      t.spn = s.spn ∧ t.mem = s.mem) ∧
    (s.sec.lifecycle ≠ .tampered → ∃ t, exec (.takeOut 0 p) s = .next t ∧ (t.port p.val).state = 2 ∧ (t.port p.val).reason = 4 ∧ t.spn = s.spn)) ∧
  (∀ (s : State) (m : Fin 4), s.spn.role ≠ .follower → ∃ t, exec (.laserFault m) s = .next t ∧ (t.laser m.val).fault = true ∧
    (∀ p, 4 * m.val ≤ p → p < 4 * m.val + 4 → 1 ≤ (s.port p).role → (s.port p).state = 1 → (t.port p).state = 2 ∧ (t.port p).reason = 2) ∧
    (∀ p, (p < 4 * m.val ∨ 4 * m.val + 4 ≤ p) → t.port p = s.port p) ∧ t.spn = s.spn ∧ t.mem = s.mem) ∧
  (∀ (s : State) (p : PortId), s.sec.lifecycle ≠ .tampered → (s.port p.val).state = 2 →
    exec (.readmit 0 p) s = .next (s.updPort p.val fun x => { x with
      readmit := true, keyed := false, upAt := some ((s.pos / 2 ^ s.spn.k + 1) * 2 ^ s.spn.k + 2 ^ s.spn.k) })) ∧
  (∀ (s : State) (p : PortId) (d : Nat), s.mayRise p.val = true → ∃ t, exec (.portUp p d) s = .next t ∧ (t.port p.val).state = 1 ∧
    (t.port p.val).reason = 0 ∧ (∀ q, q ≠ p.val → t.port q = s.port q) ∧ t.mem = s.mem ∧ t.cells = s.cells) ∧
  (∀ (s : State) (p : PortId) (d : Nat), s.mayRise p.val = false → exec (.portUp p d) s = .next s)

/-- Link keys, replay, and Ethernet frames (R416, R417, R419, R420): a failed exchange takes the port out with AUTH, one that succeeds at training
holds at once and starts SEQ again, and a refresh runs in slot 0 and leaves the keys in use as they are; LINK_REPLAY, once the oldest unacknowledged
frame has waited 200 ticks, sends every unacknowledged frame again, and nothing before; a solicitation and an echo request for the port's own address
are answered, in slot 0, others counted as drops; a frame that breaks the rules is dropped and counted in its field. -/
def Obligations.LinkKeysReplayAndEthernet : Prop :=
  (∀ (s : State) (p : PortId) (sig : SigPair) (f : Digest) (x : Nat), (s.port p.val).role = 1 → (s.port p.val).state ≠ 2 → s.frozen = false →
    ((s.port p.val).state = 1 → s.slotOf s.pos = 0) → sig.ok = false → ∃ t, exec (.linkKeyExchange p sig f x) s = .next t ∧ (t.port p.val).state = 2 ∧ (t.port p.val).reason = 3 ∧
      (t.port p.val).keyed = false ∧ t.sec = s.sec ∧ t.mem = s.mem) ∧
  (∀ (s : State) (p : PortId) (sig : SigPair) (x : Nat) (m : JigMember), (s.port p.val).role = 1 → (s.port p.val).state = 0 → s.frozen = false →
    sig.ok = true → s.jig.cfg.assembly.members.find? (fun m => m.index == (s.jigPort s.jig.me p.val).peerMember) = some m →
    ∃ t, exec (.linkKeyExchange p sig m.fingerprint x) s = .next t ∧ (t.port p.val).keyed = true ∧
      (t.port p.val).peer = (s.jigPort s.jig.me p.val).peerMember ∧ (t.port p.val).rxSeq = 0 ∧ (t.port p.val).txSeq = 0 ∧
      (t.port p.val).replay = [] ∧ t.out = .linkKey p.val :: s.out ∧ t.mem = s.mem ∧ t.cells = s.cells) ∧
  (∀ (s : State) (p : PortId) (sig : SigPair) (f : Digest) (x : Nat), (s.port p.val).state = 1 → s.slotOf s.pos ≠ 0 →
    exec (.linkKeyExchange p sig f x) s = .next s) ∧
  (∀ (s : State) (p : PortId) (sig : SigPair) (x : Nat) (m : JigMember), (s.port p.val).role = 1 → (s.port p.val).state = 1 → s.frozen = false →
    s.slotOf s.pos = 0 → sig.ok = true →
    s.jig.cfg.assembly.members.find? (fun m => m.index == (s.jigPort s.jig.me p.val).peerMember) = some m →
    ∃ t, exec (.linkKeyExchange p sig m.fingerprint x) s = .next t ∧ (t.port p.val).keys = (s.port p.val).keys ∧
      (t.port p.val).rxSeq = (s.port p.val).rxSeq ∧ (t.port p.val).txSeq = (s.port p.val).txSeq ∧
      (t.port p.val).replay = (s.port p.val).replay ∧ t.out = .linkKey p.val :: s.out ∧ t.mem = s.mem) ∧
  (∀ (s : State) (p : PortId) (f : HeldSent) (r : List HeldSent), (s.port p.val).replay = f :: r → s.pos < f.at_ + 200 →
    exec (.linkReplay p) s = .next s) ∧
  (∀ (s : State) (p : PortId) (f : HeldSent) (r : List HeldSent), (s.port p.val).role = 1 → (s.port p.val).state = 1 → s.frozen = false →
    (s.port p.val).replay = f :: r → f.at_ + 200 ≤ s.pos →
    ∃ t, exec (.linkReplay p) s = .next t ∧ t.out = ((f :: r).map (fun f => Out.frame p.val f.head)).reverse ++ s.out ∧
      (t.port p.val).replay = (f :: r).map (fun f => { f with at_ := s.pos }) ∧
      (t.port p.val).replays = (if (s.port p.val).replays + 1 < 256 then (s.port p.val).replays + 1 else 255) ∧
      t.hif = s.hif ∧ t.mem = s.mem) ∧
  (∀ (s : State) (p : PortId) (a b : Nat) (d : List Byte) (w : EthDrop), (s.port p.val).role = 2 → (s.port p.val).state = 1 →
    let count (i : Nat) := (if Tab.look 0 (s.port p.val).drops i + 1 < 65536 then Tab.look 0 (s.port p.val).drops i + 1 else 65535)
    (a = s.ownAddress p.val → s.slotOf s.pos = 0 →
      (∃ t, exec (.neighborSolicitation p a b) s = .next t ∧ t.out = .icmp p.val b a [] :: s.out ∧ t.mem = s.mem) ∧
      (∃ t, exec (.echoRequest p a b d) s = .next t ∧ t.out = .icmp p.val b a d :: s.out ∧ t.mem = s.mem)) ∧
    (a = s.ownAddress p.val → s.slotOf s.pos ≠ 0 →
      (∃ t, exec (.neighborSolicitation p a b) s = .next t ∧ t.out = s.out ∧ t.slot0 = s.slot0 ++ [.icmp p.val b a []] ∧ t.mem = s.mem) ∧
      (∃ t, exec (.echoRequest p a b d) s = .next t ∧ t.out = s.out ∧ t.slot0 = s.slot0 ++ [.icmp p.val b a d] ∧ t.mem = s.mem)) ∧
    (a ≠ s.ownAddress p.val → (∃ t, exec (.neighborSolicitation p a b) s = .next t ∧ t.out = s.out ∧ Tab.look 0 (t.port p.val).drops 0 = count 0) ∧
      (∃ t, exec (.echoRequest p a b d) s = .next t ∧ t.out = s.out ∧ Tab.look 0 (t.port p.val).drops 1 = count 1)) ∧
    (∃ t, exec (.ethFrameDrop p w) s = .next t ∧ t.out = s.out ∧
      Tab.look 0 (t.port p.val).drops (match w with | .format => 0 | .address => 1 | .checksum => 2 | .unknown => 3) =
        count (match w with | .format => 0 | .address => 1 | .checksum => 2 | .unknown => 3) ∧
      t.mem = s.mem ∧ t.cells = s.cells))

/-- Frames on fabric ports (R47, R56, R420, R424, R449 to R451): a scheduled frame whose tag fails is counted and discarded, one out of order is
discarded, one of a tenant fenced away is refused and counted; one whose data may land lands; FENCE frames come back, a TIMING frame from below is
answered in slot 0, but not by an engine without its SPIN_CLK, one on the upstream port measures the link; a DEVICE status frame marks the coordinator as heard. -/
def Obligations.FramesOnFabricPorts : Prop :=
  (∀ (s : State) (f : SchedFrame), (s.port f.port.val).role = 1 → (s.port f.port.val).state = 1 → s.frozen = false →
    (f.tagOk = false → ∃ t, exec (.scheduledFrame f) s = .next t ∧
      (t.port f.port.val).tagFail = (if (s.port f.port.val).tagFail + 1 < 256 then (s.port f.port.val).tagFail + 1 else 255) ∧
      (t.port f.port.val).rxSeq = (s.port f.port.val).rxSeq ∧ t.mem = s.mem ∧ t.ram = s.ram ∧ t.hif = s.hif) ∧
    (f.tagOk = true → f.seq ≠ ((s.port f.port.val).rxSeq + 1) % 4294967296 → exec (.scheduledFrame f) s = .next s) ∧
    (f.tagOk = true → f.seq = ((s.port f.port.val).rxSeq + 1) % 4294967296 → f.dstMember = s.jig.me → f.owner ≤ 7 → f.answer = none →
      ((s.fabTenant f.owner).fenceRound = 17 → ∃ t, exec (.scheduledFrame f) s = .next t ∧ (t.port f.port.val).rxSeq = f.seq ∧
        t.ram = s.ram ∧ t.hif = s.hif) ∧
      ((s.fabTenant f.owner).fenceRound ≠ 17 → f.last = false → s.refusedSoFar f = none → ∀ u,
        ((s.rxFrame f.port.val (32 + f.len)).updPort f.port.val fun x => { x with replay := x.replay.filter (fun y => decide (f.ackSeq < y.seq)) }).landPush f
          = .ok u → exec (.scheduledFrame f) s = .next u))) ∧
  (∀ (s : State) (p : PortId) (t : TenantId) (rt pos : Nat), (s.port p.val).role = 1 → (s.port p.val).state = 1 → s.frozen = false →
    (∃ u, exec (.fenceFrame p t) s = .next u ∧ u.out = .fence p.val t.val (s.fabTenant t.val).fenceRound :: s.out ∧ u.mem = s.mem) ∧
    (s.spn.role = .master → s.spn.clkLostAt = none →
      (s.slotOf s.pos = 0 → ∃ u, exec (.timingFrame p rt pos) s = .next u ∧ u.out = .timing p.val pos :: s.out ∧ u.mem = s.mem) ∧
      (s.slotOf s.pos ≠ 0 → ∃ u, exec (.timingFrame p rt pos) s = .next u ∧ u.out = s.out ∧ u.slot0 = s.slot0 ++ [.timing p.val pos] ∧
        u.mem = s.mem)) ∧
    (s.spn.role = .master → s.spn.clkLostAt ≠ none → ∃ u, exec (.timingFrame p rt pos) s = .next u ∧ u.out = s.out ∧ u.slot0 = s.slot0) ∧
    (s.spn.role = .follower → s.upstream.1 = some p.val → ∃ u, exec (.timingFrame p rt pos) s = .next u ∧ u.out = s.out ∧
      Tab.look none u.spn.linkDelay p.val = some (rt / 2) ∧ u.spn.pos = s.spn.pos) ∧
    (∃ u, exec (.deviceFrame p (.status true)) s = .next u ∧ u.spn.heardCoord = true ∧ u.spn.heardEither = true ∧ u.jig = s.jig ∧ u.agg = s.agg ∧
      u.mem = s.mem))

/-- PROG_LOAD (R197 to R199): a group of another tenant is refused with RIGHTS, one that does not exist with CFG_MISMATCH, a ring group or a busy one
with CFG_LOCKED, one without a DMA engine or budget with BUDGET; an image on unmapped pages or without the X right, or one that fails a check, leaves
the group as it was, its check in CEL_FAULT; one that passes is in every cell's instruction store, at once where the DMA slots and the budget of this
moment suffice, and otherwise goes on as a load that holds its pages locked. PROG_START in order waits for its first slot
(R200, R201). Barriers (R84 to R88): one in order, at least two turns ahead and with slots, is armed; a position too near is refused with
BARRIER_TIMEOUT. Two ticks past its position a named member starts the work; one that is frozen, holds over or has stopped counts a miss and
reports it instead, and with a miss anywhere the command completes with BARRIER_TIMEOUT and the coordinator declares the member lost. -/
def Obligations.ProgramsLoadStartAndBarriersArm : Prop :=
  ((∀ (s : State) (c : Cmd), s.accepts 0x40 c = true →
    let g := c.a0
    let t := s.groupOwner g
    let locked := s.ringGroup g || s.groupBusy g || s.groupAwaited g
    let b := s.readVA t c.addr c.len c.host
    (s.notOwner c g = true → exec (.progLoad c) s = s.refuses c .rights) ∧
    (s.notOwner c g = false → s.groupCells g = [] → exec (.progLoad c) s = s.refuses c .cfgMismatch) ∧
    (s.notOwner c g = false → s.groupCells g ≠ [] → locked = true → exec (.progLoad c) s = s.refuses c .cfgLocked) ∧
    (s.notOwner c g = false → s.groupCells g ≠ [] → locked = false → s.canFeed g t = false → exec (.progLoad c) s = s.refuses c .budget) ∧
    (s.notOwner c g = false → s.groupCells g ≠ [] → locked = false → s.canFeed g t = true →
      (s.mapped t c.addr c.len = false → exec (.progLoad c) s = .next (s.loadFails c g 1 .xlateFault 0)) ∧
      (s.mapped t c.addr c.len = true → s.allPages t c.addr c.len (fun p => p.x) = false →
        exec (.progLoad c) s = .next (s.loadFails c g 2 .rights 0)) ∧
      (s.mapped t c.addr c.len = true → s.allPages t c.addr c.len (fun p => p.x) = true → s.allPages t c.addr c.len (fun p => !p.broken) = true →
        (∀ o st i, s.imageCheck (readImage b) c.len g = some (o, st, i) → exec (.progLoad c) s = .next (s.loadFails c g o st i)) ∧
        (s.imageCheck (readImage b) c.len g = none → s.feedMoves g t c.len < c.len → ∃ u, exec (.progLoad c) s = .next u ∧
          u.loads = s.loads ++ [{ cmd := c, group := g, tenant := t, moved := s.feedMoves g t c.len }] ∧
          u.mem = (s.lockPages t c.addr c.len true).mem ∧ u.cells = s.cells ∧ u.hif = s.hif ∧ u.ram = s.ram ∧ u.sec = s.sec) ∧
        (s.imageCheck (readImage b) c.len g = none → s.feedMoves g t c.len = c.len →
          ∃ u f, exec (.progLoad c) s = .next (State.complete u c .ok 0 0 f) ∧
          (∀ k ∈ s.groupCells g, (u.cell k).store = (readImage b).code ∧ (u.cell k).loaded = true ∧
            (u.cell k).entry = (readImage b).entry ∧ (u.cell k).waitLimit = (readImage b).waitLimit ∧
            (u.cell k).measurement = Config.digest "program" b ∧ (u.cell k).buildId = (readImage b).buildId) ∧
          (∀ k, k ∉ s.groupCells g → u.cell k = s.cell k) ∧
          u.mem = ((s.lockPages t c.addr c.len true).lockPages t c.addr c.len false).mem ∧ u.loads = s.loads ∧ u.ram = s.ram ∧
          u.sec = s.sec)))) ∧
  (∀ (s : State) (c : Cmd), s.accepts 0x41 c = true →
    let g := c.a0 % 65536
    let e := c.a0 / 65536 % 65536
    (s.notOwner c g = true → exec (.progStart c) s = s.refuses c .rights) ∧
    (s.notOwner c g = false → (s.ringGroup g || s.groupBusy g) = true → exec (.progStart c) s = s.refuses c .cfgLocked) ∧
    (s.notOwner c g = false → (s.ringGroup g || s.groupBusy g) = false → s.noProgram g e = true → exec (.progStart c) s = s.refuses c .instrIllegal) ∧
    (s.notOwner c g = false → (s.ringGroup g || s.groupBusy g) = false → s.noProgram g e = false →
      s.ownsSlot .cellGroup g (s.groupOwner g) = false → exec (.progStart c) s = s.refuses c .budget) ∧
    (s.notOwner c g = false → (s.ringGroup g || s.groupBusy g) = false → s.noProgram g e = false →
      s.ownsSlot .cellGroup g (s.groupOwner g) = true → exec (.progStart c) s = .next { s with progs := s.progs ++ [
        { group := g, entry := s.entryOf g e, args := [c.a1, c.a2, c.a3, c.a4], cmd := c, begun := false, at_ := s.pos }] }))) ∧
  ((∀ (s : State) (c : Cmd) (l : List Nat), s.accepts 0x42 c = true → s.jig.loaded = true → (s.bigE ≤ 1 ∨ s.isCoord = true) → c.len = 96 →
    s.blockFail (cmdActs c) c.addr 96 (fun p => p.r) = none →
    let blk := s.readVA (cmdActs c) c.addr 96 c.host
    let b := parseBarrier c.a0 (cmdActs c) blk (some c) c.cid
    barrierFieldsOk blk s.bigE = true → s.barrierOwned b = true →
    (∀ m ∈ b.members, b.kind = 0 → (if m = s.jig.me then s.noProgram b.group b.entry else l.contains m) = true →
      exec (.barrierArm c l) s = s.refuses c .instrIllegal) ∧
    ((b.kind = 0 → ∀ m ∈ b.members, (if m = s.jig.me then s.noProgram b.group b.entry else l.contains m) = false) →
      (c.a0 < s.pos + 2 * 2 ^ s.spn.k → exec (.barrierArm c l) s = s.refuses c .barrierTimeout) ∧
      (s.pos + 2 * 2 ^ s.spn.k ≤ c.a0 → s.spn.barriers.length < 64 → barrierSlots s.jig.cfg s.spn.k b = true →
        let u : State := { s with spn := { s.spn with barriers := s.spn.barriers ++ [b] } }
        exec (.barrierArm c l) s = .next (if s.bigE ≤ 1 then u else u.sendDevice (.barrier b.pos (Fin.ofNat 8 (cmdActs c)) blk c.cid))))) ∧
  (∀ (s : State) (l : List Nat), (∀ b ∈ s.spn.barriers, s.pos < b.pos + 2) → exec (.barrierStart l) s = .next s) ∧
  (∀ (s : State) (b : Barrier) (r : List Barrier) (c : Cmd), s.spn.barriers = b :: r → b.pos + 2 = s.pos → b.cmd = some c → s.jig.me ∈ b.members →
    let s1 : State := { s with spn := { s.spn with barriers := r } }
    (s.frozen = false → s.spn.source ≠ .holdover → s.spn.stopped = false →
      (b.kind = 0 → ∀ k ∈ s.groupCells b.group, (s.cell k).running = false) →
      exec (.barrierStart []) s = .next ((s1.startWork b).ok c) ∧
      (∀ m ∈ b.members, m ≠ s.jig.me → exec (.barrierStart [m]) s = .next (((s1.startWork b).declareLost m).fail c .barrierTimeout))) ∧
    ((s.frozen = true ∨ s.spn.source = .holdover ∨ s.spn.stopped = true) →
      let u : State := { s1 with spn := { s1.spn with missed := if s.spn.missed + 1 < 65536 then s.spn.missed + 1 else 65535, ceased := true } }
      (s.inAssembly = false → exec (.barrierStart []) s = .next (u.fail c .barrierTimeout)) ∧
      (s.inAssembly = true → exec (.barrierStart []) s = .next ((u.sendDevice (.timeout s.jig.me)).fail c .barrierTimeout)))))

/-- ROUND_OPEN (R230 to R238, R268): a block that cannot be read, no free handle and a failed noise source end the command at once; otherwise the round
takes the lowest handle that is free everywhere and waits for B_open, the first boundary at least 150,000 + 2^(k+1) ticks later. Where the checks of
R236 pass, it takes its keys and memory; otherwise the first that fails is the verdict of this member. An engine alone decides by its own verdict, one
of an assembly sends the notice and awaits the verdicts. At B_open a round that was decided for is ARMED with its tiles zero, and the command completes
with OK and the handle; a refused one leaves no round and completes with the status; BARRIER_TIMEOUT where no decision has come is the model's choice
(notes/assumptions/44.md). -/
def Obligations.RoundOpenTakesHandleAndArms : Prop :=
  (∀ (s : State) (c : Cmd) (l : List Nat), s.accepts 0x50 c = true → (s.bigE ≤ 1 ∨ s.isCoord = true) → c.len = 128 → c.a0 = 65535 → c.a1 = 0 →
    c.a2 = 0 → s.readFail (cmdActs c) c.addr 128 = none →
    let b := s.readVA (cmdActs c) c.addr 128 c.host
    1 ≤ field b 8 2 → field b 8 2 ≤ 4096 →
    (∀ st, s.readFail (cmdActs c) (field b 64 8) (4 * field b 8 2) = some st → exec (.roundOpen c l) s = s.refuses c st) ∧
    (s.readFail (cmdActs c) (field b 64 8) (4 * field b 8 2) = none →
      let tb := s.readVA (cmdActs c) (field b 64 8) (4 * field b 8 2) (c.host.drop 128)
      let r0 := s.parseRound c (cmdActs c) b tb s.bOpenNow []
      let r := { r0 with repaired := if r0.repair then s.uncovered r0.parent else [] }
      (s.freeHandle l = none → exec (.roundOpen c l) s = s.refuses c .quotaExceeded) ∧
      (∀ h, s.freeHandle l = some h → s.sec.healthFail = true → exec (.roundOpen c l) s = s.refuses c .internal) ∧
      (∀ h, s.freeHandle l = some h → s.sec.healthFail = false →
        let u := (s.draw).2.pendOpen h { r with openCmd := some c } ((s.draw).1 % 2 ^ 256) none ((s.roundChecks r b s.bOpenNow).getD .ok)
        (s.bigE ≤ 1 → exec (.roundOpen c l) s = .next (u.updRound h fun x => { x with openDecision := some x.openOwn })) ∧
        (2 ≤ s.bigE → exec (.roundOpen c l) s = .next (u.sendDevice (.roundNotice c b tb (Fin.ofNat 64 h) (u.round h).graphSeed s.bOpenNow
          r.repaired ((u.round h).ownKeys.map (fun i => (u.key i).value))))) ∧
        (u.round h).bOpen = some (s.boundaryFrom (s.pos + 150000 + 2 ^ (s.spn.k + 1))) ∧ (u.round h).number = field b 0 6 ∧
        (u.round h).state = .free ∧ (u.round h).openCmd = some c ∧ (∀ k, k ≠ h → u.round k = s.round k) ∧ u.cells = s.cells ∧
        u.hif = s.hif))) ∧
  (∀ (s : State) (h seed : Nat) (r : Round) (keys : Option (List Nat)),
    (∀ st, st ≠ Status.ok → s.pendOpen h r seed keys st = s.setRound h { r with openOwn := st }) ∧
    (s.startRound h r seed keys = none → s.pendOpen h r seed keys .ok = s.setRound h { r with openOwn := .quotaExceeded }) ∧
    (∀ u, s.startRound h r seed keys = some u → s.pendOpen h r seed keys .ok = u ∧ (u.round h).number = r.number ∧
      (r.repair = false → Tab.look 0 u.agg.lastRound r.tenant = r.number + 1 ∧ (u.round h).graphSeed = seed) ∧
      (r.repair = true → (u.round h).keyEntries = (s.round r.parent).keyEntries.take 3 ∧
        (u.round h).graphSeed = (s.round r.parent).graphSeed))) ∧
  (∀ (s : State) (h : Handle) (p : Nat) (c : Cmd), (s.round h.val).bOpen = some p → (s.round h.val).openCmd = some c →
    (s.round h.val).state = .free → s.due p = true →
    ((s.round h.val).openDecision = some .ok →
      ∃ u : State, exec (.roundOpenBoundary h) s = .next (u.complete c .ok h.val 0 flagVaried) ∧ (u.round h.val).state = .armed ∧
        (u.round h.val).bOpen = none ∧ (u.round h.val).number = (s.round h.val).number ∧ (∀ k, k ≠ h.val → u.round k = s.round k) ∧
        u.agg.binds = s.agg.binds ∧ u.cells = s.cells ∧ u.mem = s.mem) ∧
    (∀ st, st ≠ Status.ok → (s.round h.val).openDecision = some st → ∃ u : State, exec (.roundOpenBoundary h) s = .next (u.fail c st) ∧
      u.round h.val = {} ∧ (∀ k, k ≠ h.val → u.round k = s.round k) ∧ u.cells = s.cells ∧ u.hif = s.hif) ∧
    ((s.round h.val).openDecision = none → exec (.roundOpenBoundary h) s = .next (s.cancelOpen h.val .barrierTimeout)))

/-- The phases of a round (R240, R242, R260, R262, R280, R284): ROUND_SET_DEADLINE in order waits for its boundary, where deadline and share end move
and REVISION rises; at P_COLLECT a covered round is COLLECTING and one that is not ABORTED; at P_DEADLINE it is FROZEN and every open bin a batch;
the exchange, once both twins' mirror queues are empty, publishes the sets that this member works out for the cohorts of which it is the home engine
and takes those of the others; then it is UNMASKING; at P_SHARE_END every kept cohort is settled. -/
def Obligations.RoundPhasesFollowTheirPositions : Prop :=
  (∀ (s : State) (c : Cmd), s.accepts 0x51 c = true → s.coordCmd c = none → (s.round c.a0).state.early = true →
    (c.a1 % 2 ^ s.spn.k ≠ 0 ∨ c.a1 ≤ (s.round c.a0).lastDeadline → exec (.roundSetDeadline c) s = s.refuses c .bounds) ∧
    (c.a1 % 2 ^ s.spn.k = 0 → (s.round c.a0).lastDeadline < c.a1 →
      (c.a1 < s.pos + 150000 + 2 ^ (s.spn.k + 1) → exec (.roundSetDeadline c) s = s.refuses c .barrierTimeout) ∧
      (s.pos + 150000 + 2 ^ (s.spn.k + 1) ≤ c.a1 →
        let b := s.boundaryFrom (s.pos + 150000)
        let u := s.updRound c.a0 fun r => { r with newDeadlines := r.newDeadlines ++ [(b, c.a1, some c)] }
        exec (.roundSetDeadline c) s = .next (if 2 ≤ s.bigE then u.sendDevice (.deadlineNotice (Fin.ofNat 64 c.a0) c.a1 b) else u)))) ∧
  (∀ (s : State) (h : Handle) (b d : Nat) (c : Cmd) (rest : List (Nat × Nat × Option Cmd)), (s.round h.val).newDeadlines = (b, d, some c) :: rest →
    s.due b = true →
    ((s.round h.val).state.early = true → ∃ u : State, exec (.deadlineChange h) s = .next (u.ok c) ∧
      u.round h.val = { s.round h.val with
        newDeadlines := rest, pShareEnd := (s.round h.val).pShareEnd + (d - (s.round h.val).pDeadline), pDeadline := d,
        revision := ((s.round h.val).revision + 1) % 256 } ∧ u.cells = s.cells ∧ u.mem = s.mem) ∧
    ((s.round h.val).state.early = false →
      exec (.deadlineChange h) s = .next ((s.updRound h.val fun r => { r with newDeadlines := rest }).fail c .roundClosed))) ∧
  (∀ (s : State) (h : Handle), (s.round h.val).state = .armed → s.due ((s.round h.val).pCollect) = true →
    (s.covered h.val = true → ∃ u, exec (.collectStart h true) s = .next u ∧ u.round h.val = { s.round h.val with state := .collecting } ∧
      u.cells = s.cells ∧ u.mem = s.mem ∧ u.hif = s.hif) ∧
    (s.covered h.val = false → exec (.collectStart h true) s = .next (s.abortRound h.val .cfgMismatch true)) ∧
    exec (.collectStart h false) s = .next (s.abortRound h.val .cfgMismatch true)) ∧
  (∀ (s : State) (h : Handle), (s.round h.val).state = .collecting → s.due ((s.round h.val).pDeadline) = true →
    exec (.deadline h) s = .next (s.updRound h.val fun r => { r with
      state := .frozen, batches := r.batches ++ r.bins, bins := [], drained := r.mirrorQueue.isEmpty })) ∧
  (∀ (s : State) (h : Handle) (dr : Bool) (l m : List Nat) (hs : List HomeSets), (s.round h.val).state = .frozen →
    s.due ((s.round h.val).pDeadline + 2 ^ (s.spn.k + 2)) = true → (s.round h.val).mirrorQueue = [] →
    (dr = true ∨ s.twin (s.round h.val) = none) → ((s.round h.val).cohort 0).published = false → (s.round h.val).repair = false →
    (∀ c k, c < (s.round h.val).sizes.length → s.home (s.round h.val) c = some k → k ≠ s.jig.me → hs.any (fun x => x.cohort == c) = true) →
    ∃ u, exec (.freezeExchange h l m dr hs) s = .next u ∧ (u.round h.val).state = .frozen ∧ u.cells = s.cells ∧ u.mem = s.mem ∧ u.ram = s.ram ∧
      (∀ c, c < (s.round h.val).sizes.length → ((u.round h.val).cohort c).published = true ∧
        (s.home (s.round h.val) c = some s.jig.me →
          ((u.round h.val).cohort c).s = ((s.round h.val).freezeSets s.jig.me c l m).1 ∧
          ((u.round h.val).cohort c).d = ((s.round h.val).freezeSets s.jig.me c l m).2.1 ∧
          (((u.round h.val).cohort c).reason = 2 ↔ ((s.round h.val).freezeSets s.jig.me c l m).2.2 = true)) ∧
        (∀ k x, s.home (s.round h.val) c = some k → k ≠ s.jig.me → hs.find? (fun x => x.cohort == c) = some x →
          ((u.round h.val).cohort c).s = x.survivors ∧ ((u.round h.val).cohort c).d = x.dropped) ∧
        (s.home (s.round h.val) c = none → ((u.round h.val).cohort c).discarded = true))) ∧
  (∀ (s : State) (h : Handle), (s.round h.val).state = .frozen → ((s.round h.val).cohort 0).published = true →
    s.due ((s.round h.val).pDeadline + 2 ^ (s.spn.k + 4)) = true → s.verdictsIn (s.round h.val) = true →
    ∃ u, exec (.unmaskingEntry h) s = .next u ∧ (u.round h.val).state = .unmasking ∧ u.cells = s.cells ∧ u.mem = s.mem) ∧
  (∀ (s : State) (h : Handle), (s.round h.val).state = .unmasking → s.due ((s.round h.val).pShareEnd) = true →
    ∃ u, exec (.shareEnd h) s = .next u ∧ u.cells = s.cells ∧ u.mem = s.mem ∧ u.ram = s.ram ∧
      (∀ c, c < (s.round h.val).sizes.length → ((s.round h.val).cohort c).reason = 0 → ((u.round h.val).cohort c).settled = true) ∧
      (∀ c, (s.round h.val).sizes.length ≤ c → (u.round h.val).cohort c = (s.round h.val).cohort c))

/-- What commands do to a round (R240, R243, R291, R297, R303): ROUND_UNMASK arms delivery at the next boundary; ROUND_COMMIT of a SUMMED round makes
it COMMITTED there, or ABORTED with COHORT_BELOW_MIN where too few survived; ROUND_RELEASE of a COMMITTED one starts its release, which an engine alone
agrees to at once and writes; every member's write reported, the round is RELEASED at the next boundary, and one that failed leaves it COMMITTED with
the failure's status; ROUND_ABORT makes it ABORTED; out of its state each is refused with ROUND_CLOSED. Of an assembly the coordinator sends the
notice of each. -/
def Obligations.RoundCommandsActAtBoundaries : Prop :=
  (∀ (s : State) (c : Cmd), s.coordCmd c = none →
    let sends := fun (m : DeviceMsg) (u : State) => if 2 ≤ s.bigE then u.sendDevice m else u
    (s.accepts 0x52 c = true →
      ((s.round c.a0).state = .unmasking → (s.round c.a0).unmaskCmd = none → (s.round c.a0).unmaskArmed = false → (s.round c.a0).armAt = none →
        exec (.roundUnmask c) s = .next (sends (.unmaskNotice (Fin.ofNat 64 c.a0) (s.boundaryAfter s.pos))
          (s.updRound c.a0 fun r => { r with unmaskCmd := some c, armAt := some (s.boundaryAfter s.pos) }))) ∧
      ((s.round c.a0).state ≠ .unmasking → exec (.roundUnmask c) s = s.refuses c .roundClosed)) ∧
    (s.accepts 0x53 c = true →
      ((s.round c.a0).state = .summed → (s.round c.a0).change = none → ∃ u, exec (.roundCommit c) s = .next u ∧
        (u.round c.a0).change = some (s.boundaryAfter s.pos, if (s.round c.a0).survivors < (s.round c.a0).roundMin then .aborted else .committed) ∧
        (u.round c.a0).changeCmds = (s.round c.a0).changeCmds ++
          [(c, if (s.round c.a0).survivors < (s.round c.a0).roundMin then .cohortBelowMin else .ok, 0)] ∧
        (u.round c.a0).state = .summed ∧ u.cells = s.cells ∧ u.mem = s.mem ∧ u.hif = s.hif) ∧
      ((s.round c.a0).state ≠ .summed → exec (.roundCommit c) s = s.refuses c .roundClosed)) ∧
    (s.accepts 0x54 c = true →
      ((s.round c.a0).state = .committed → (s.round c.a0).releaseCmd = none → (s.round c.a0).change = none → (s.round c.a0).repair = false →
        s.uncovered c.a0 = [] → (s.iRelease (s.round c.a0) = true → s.hostTargetOk (s.round c.a0) = true) → s.noiseKeyOk (s.round c.a0) = true →
        exec (.roundRelease c false) s = .next ((sends (.releaseNotice (Fin.ofNat 64 c.a0))
          (s.updRound c.a0 fun r => { r.clearRelease with releaseCmd := some c })).startRelease c.a0) ∧
        exec (.roundRelease c true) s = s.refuses c .releaseRefused) ∧
      ((s.round c.a0).state ≠ .committed → ∀ p, exec (.roundRelease c p) s = s.refuses c .roundClosed)) ∧
    (s.accepts 0x55 c = true →
      ((s.round c.a0).state ≠ .released → (s.round c.a0).state ≠ .aborted → (s.round c.a0).change = none → (s.round c.a0).changeCmds = [] →
        exec (.roundAbort c) s = .next (sends (.roundEnds (Fin.ofNat 64 c.a0) false (s.boundaryAfter s.pos) .ok []) (s.updRound c.a0 fun r =>
          { r with change := some (s.boundaryAfter s.pos, .aborted), changeStatus := .ok, changeCmds := [(c, .ok, 0)] }))) ∧
      ((s.round c.a0).state = .aborted → exec (.roundAbort c) s = .next (s.ok c)) ∧
      ((s.round c.a0).state = .released → exec (.roundAbort c) s = s.refuses c .roundClosed))) ∧
  (∀ (s : State) (h : Handle) (b : Nat), (s.round h.val).armAt = some b → (s.round h.val).state = .unmasking → s.due b = true →
    exec (.deliveryArm h) s = .next (s.updRound h.val fun r => { r with unmaskArmed := true, armAt := none })) ∧
  (∀ (s : State) (h : Nat) (c : Cmd), s.bigE ≤ 1 → s.decides = true → s.jig.me = 0 → s.takesPart (s.round h) 0 = true →
    (s.round h).state = .committed → (s.round h).change = none → (s.round h).releaseCmd = some c →
    ((s.round h).writing = false → s.holdsGood h = true → s.iRelease (s.round h) = true → s.twin (s.round h) = none →
      ∀ u, (s.updRound h fun r => { r with releasing := true }).obtainSeed h = some u →
      ((s.startRelease h).round h).writing = true ∧ ((s.startRelease h).round h).releaseCmd = some c ∧
        ((s.startRelease h).round h).state = .committed ∧ (s.startRelease h).ram = s.ram ∧ (s.startRelease h).cells = s.cells) ∧
    ((s.round h).releasing = true → (s.round h).writing = true →
      (((s.reportWrite h .ok).round h).change = some (s.boundaryAfter s.pos, .released) ∧
        ((s.reportWrite h .ok).round h).changeCmds = (s.round h).changeCmds ++ [(c, .ok, flagVaried)] ∧
        ((s.reportWrite h .ok).round h).state = .committed ∧ (s.reportWrite h .ok).hif = s.hif) ∧
      (∀ st, st ≠ Status.ok → ∃ u : State, s.reportWrite h st = u.complete c st 0 0 flagVaried ∧ (u.round h).state = .committed ∧
        (u.round h).writing = false ∧ (u.round h).releaseCmd = none ∧ (u.round h).change = none ∧ u.hif = s.hif ∧ u.ram = s.ram))) ∧
  (∀ (s : State) (h : Handle), (s.round h.val).state = .committed → (s.round h.val).writing = true → (s.round h.val).written = false →
    (s.round h.val).change = none → s.frozen = false →
    (s.dbg.host.lost = false ∨ ((s.round h.val).release.target ≠ 0 ∧ (s.round h.val).release.flags ≠ 0) →
      let ks := (s.releaseSet h.val).filter (fun k => s.holdsGood k && s.iRelease (s.round k))
      exec (.releaseWrite h none) s = .next ((s.each ks (fun u k => u.writeShard (s.round h.val) k)).reportWrite h.val .ok) ∧
      (ks ≠ [] → ∀ st, exec (.releaseWrite h (some st)) s = .next (s.reportWrite h.val st))) ∧
    (s.dbg.host.lost = true → (s.round h.val).release.target = 0 → ∀ x,
      exec (.releaseWrite h x) s = .next (s.updRound h.val fun r => { r with heldWrite := true }))) ∧
  (∀ (s : State) (h : Handle) (p : Nat), (s.round h.val).clearedAt = some p → ((s.round h.val).state = .released ∨ (s.round h.val).state = .aborted) →
    s.due (s.boundaryAfter p) = true → ∃ u, exec (.roundFree h) s = .next u ∧ (u.round h.val).state = .free ∧
      (u.round h.val).bOpen = none ∧ (∀ k ∈ (s.round h.val).ownKeys, (s.key k).owner = (s.round h.val).tenant → u.key k = {}) ∧
      (∀ k, k ∉ (s.round h.val).ownKeys → u.key k = s.key k) ∧ (∀ k, k ≠ h.val → u.round k = s.round k) ∧ u.cells = s.cells ∧ u.mem = s.mem) ∧
  (∀ (s : State) (h : Handle), s.deviceEngines ≠ [] → s.frozen = false →
    ((s.round h.val).state = .released ∨ (s.round h.val).state = .aborted → (s.round h.val).clearedAt ≠ none) → ∃ u, exec (.roundMemoryZeroing h) s = .next u ∧
    (∀ x ∈ u.mem.held, x.round = some h.val → x.stuck = true) ∧
    (∀ x ∈ s.mem.held, x.round = some h.val → x.stuck = false → ∀ a, a < x.units * 65536 → u.ramByte (ramKey x.tier (x.frame * 65536) + a) = 0) ∧
    u.cells = s.cells ∧ u.sec = s.sec ∧ u.agg = s.agg)

/-- Client messages (R241, R244 to R259, R282): a message of the type's header, for a round of its tenant that this member handles, is counted by its
ingest engine and then refused with the first failing check of R256, or accepted: KEYEX enters the client's keys, CONTRIB its chunk with its
contribution bit, ABORT marks the client, SHARE enters the shares; each acceptance is answered with OK, a CONTRIB or SHARE that a live twin mirrors
only after its acknowledgement. -/
def Obligations.ClientMessagesAreCheckedAndTaken : Prop :=
  ∀ (s : State) (p : PortId) (x : ClientMsg) (e h : Nat), let m := msgHeader x
    (s.port p.val).state = 1 → (s.port p.val).role = (if m.forwarded then 1 else 2) →
    s.ingestEngine m.tenant m.client = some e → s.mayIssue m.tenant .ingest e = true → s.matchRound m.tenant m.round = some h →
    s.handler (s.round h) m = some (some s.jig.me) →
    let t := s.updIngest e fun y => { y with bytes := wrapAdd 48 y.bytes m.totalLength }
    let r := s.round h
    (∀ a, headerOk 1 m = false → headerOk 2 m = false → headerOk 3 m = false → headerOk 4 m = false →
      exec (.keyex p x.head x.payload x.toMsgSeen a) s = .next (t.dropMessage e) ∧ exec (.contrib p x a) s = .next (t.dropMessage e) ∧
      exec (.share p x.toMsgText x.toMsgSeen) s = .next (t.dropMessage e) ∧ exec (.abortMsg p x.head x.payload x.toMsgSeen a) s = .next (t.dropMessage e)) ∧
    (∀ ok, headerOk 1 m = true →
      (∀ st, s.messageFail r m 1 (keyexOk x.payload ok) (r.client m.client).keyHeld = some st → exec (.keyex p x.head x.payload x.toMsgSeen ok) s = .next (t.refuse h m st)) ∧
      (s.messageFail r m 1 (keyexOk x.payload ok) (r.client m.client).keyHeld = none → exec (.keyex p x.head x.payload x.toMsgSeen ok) s = .next (t.acceptKeyex h x) ∧
        (((t.acceptKeyex h x).round h).client m.client).keyHeld = true ∧
        (((t.acceptKeyex h x).round h).client m.client).maskKey = keyexMaskKey x.payload ∧
        (((t.acceptKeyex h x).round h).client m.client).wrapped = wrapKey (s.wrappingKey r) (s.sessionKey r x) ∧
        (t.acceptKeyex h x).cells = s.cells ∧ (t.acceptKeyex h x).mem = s.mem)) ∧
    (headerOk 2 m = true →
      exec (.contrib p x true) s = .next (t.refuse h m .roundClosed) ∧
      (∀ st, s.messageFail r m 2 true (r.bit m.client m.chunk) = some st → exec (.contrib p x false) s = .next (t.refuse h m st)) ∧
      (s.messageFail r m 2 true (r.bit m.client m.chunk) = none → ∀ u, t.takeChunk h m (r.elements m x.payload) = some u →
        (u.round h).bit m.client m.chunk = true ∧ (u.round h).chunksAccepted = r.chunksAccepted + 1 ∧ u.cells = s.cells ∧ u.mem = s.mem ∧
        ((r.r ≠ 2 ∨ s.twin r = none) → exec (.contrib p x false) s = .next (u.receipt m .ok false)) ∧
        (∀ k, r.r = 2 → s.twin r = some k → (r.mirrorQueue.map (fun y => y.bytes)).sum + (64 + m.payloadLength) ≤ s.mirrorLimit r k →
          exec (.contrib p x false) s = .next (u.mirror h k m.chunk x)))) ∧
    (headerOk 3 m = true →
      let es := shareEntries m x.payload
      (∀ st, s.messageFail r m 3 true false = some st → exec (.share p x.toMsgText x.toMsgSeen) s = .next (t.refuse h m st)) ∧
      (s.messageFail r m 3 true false = none → es.all (fun y => decide (y.value < gfP)) = false →
        exec (.share p x.toMsgText x.toMsgSeen) s = .next (t.refuse h m .bounds)) ∧
      (s.messageFail r m 3 true false = none → es.all (fun y => decide (y.value < gfP)) = true →
        (∀ st, r.shareFail m es = some st → exec (.share p x.toMsgText x.toMsgSeen) s = .next (t.refuseShare h m st)) ∧
        (r.shareFail m es = none → ∃ u : State, ((u.round h).client m.client).shared = true ∧
          (u.round h).sharesAccepted = (r.sharesAccepted + 1) % 4294967296 ∧ u.cells = s.cells ∧ u.mem = s.mem ∧ u.ram = s.ram ∧
          ((r.r ≠ 2 ∨ s.twin r = none) → exec (.share p x.toMsgText x.toMsgSeen) s = .next (u.receipt m .ok false)) ∧
          (∀ k, r.r = 2 → s.twin r = some k → exec (.share p x.toMsgText x.toMsgSeen) s = .next (u.mirror h k shareMark x))))) ∧
    (∀ el, headerOk 4 m = true →
      let dup := el || r.bitmap.any (fun y => y.1 / 2 ^ 34 == m.client)
      (zeroAt x.payload 4 12 = false → s.messageFail r m 4 true false = none → exec (.abortMsg p x.head x.payload x.toMsgSeen el) s = .next (t.refuse h m .bounds)) ∧
      (zeroAt x.payload 4 12 = true →
        (∀ st, s.messageFail r m 4 true dup = some st → exec (.abortMsg p x.head x.payload x.toMsgSeen el) s = .next (t.refuse h m st)) ∧
        (s.messageFail r m 4 true dup = none →
          ∃ u : State, exec (.abortMsg p x.head x.payload x.toMsgSeen el) s = .next (u.receipt m .ok false) ∧ ((u.round h).client m.client).aborted = true ∧
            u.cells = s.cells ∧ u.mem = s.mem ∧ u.ram = s.ram)))

/-- Messages between members (R42, R249, R257, R258, R283, R285, R288): a client's wrapped key, a mirrored chunk and a mirrored SHARE are taken and,
the mirrors, acknowledged; a duplicate chunk is acknowledged and counted; the acknowledgement releases the receipt with MIRRORED set; the home engine
rebuilds the seeds of a settled cohort and sends them, and a member takes seeds or the decision to discard. -/
def Obligations.MembersExchangeRoundMessages : Prop :=
  (∀ (s : State) (h : Handle) (c w : Nat), (s.round h.val).state.isOpen = true → c < (s.round h.val).nMax → s.frozen = false →
    exec (.wrappedSessionKey h c w) s = .next (s.updRound h.val fun r => r.setClient c { r.client c with keyHeld := true, wrapped := w })) ∧
  (∀ (s : State) (x : MsgText) (h : Nat), let m := msgHeader { toMsgText := x }
    s.frozen = false → s.matchRound m.tenant m.round = some h →
    ((s.round h).state = .collecting ∨ (s.round h).state = .frozen) →
    (s.round h).clientOk m.cohort m.client = true → (s.round h).sums s.jig.me m.cohort m.chunk = true →
    ((s.round h).bit m.client m.chunk = true →
      exec (.contribMirror x.head x.payload) s = .next ((s.countRefuse h .duplicateContrib).mirrorAck h m.client m.chunk)) ∧
    ((s.round h).bit m.client m.chunk = false → ∀ u, s.takeChunk h m ((s.round h).elements m x.payload) = some u →
      exec (.contribMirror x.head x.payload) s = .next (u.mirrorAck h m.client m.chunk) ∧ (u.round h).bit m.client m.chunk = true)) ∧
  (∀ (s : State) (x : MsgText) (h : Nat), let m := msgHeader { toMsgText := x }
    s.frozen = false → s.matchRound m.tenant m.round = some h → (s.round h).state = .unmasking →
    (s.round h).clientOk m.cohort m.client = true → ((s.round h).client m.client).shared = false →
    exec (.shareMirror x.head x.payload) s = .next ((s.updRound h fun r => r.addShares m (shareEntries m x.payload)).mirrorAck h m.client shareMark)) ∧
  (∀ (s : State) (h : Handle) (x : Mirror), s.frozen = false → x ∈ (s.round h.val).mirrorQueue →
    (∀ y ∈ (s.round h.val).mirrorQueue, y.client = x.client → y.chunk = x.chunk → y = x) →
    ∃ u, exec (.mirrorAck h x.client x.chunk) s = .next u ∧ (u.round h.val).mirrorQueue = (s.round h.val).mirrorQueue.erase x ∧
      u.out = .receipt x.sender (receiptBytes (if x.chunk = shareMark then 3 else 2) .ok (s.round h.val).tenant (s.round h.val).number
        ((s.round h.val).cohortOf x.client) x.client (b2n x.forwarded + 2) (if x.chunk = shareMark then 0 else x.chunk) s.jig.me) :: s.out ∧
      u.cells = s.cells ∧ u.mem = s.mem ∧ u.ram = s.ram) ∧
  (∀ (s : State) (h : Handle) (c : Nat) (km : Bool), (s.round h.val).state = .unmasking → c < (s.round h.val).sizes.length →
    s.isHome (s.round h.val) c = true → ((s.round h.val).cohort c).settled = true → ((s.round h.val).cohort c).rebuilt = false →
    ((s.round h.val).cohort c).reason = 0 →
    ∃ u : State, exec (.seedReconstruction h c km) s = .next (u.sendSeeds h.val c) ∧ u.out = s.out ∧ u.cells = s.cells ∧ u.mem = s.mem ∧
      (((u.round h.val).cohort c).rebuilt = true ↔ ((u.round h.val).cohort c).reason = 0) ∧
      (((s.round h.val).cohort c).d = [] → (∀ x ∈ ((s.round h.val).cohort c).s, ∃ v, (s.round h.val).rebuild c x 1 true = .ok v) →
        ((u.round h.val).cohort c).rebuilt = true ∧
        ∀ x ∈ ((s.round h.val).cohort c).s, ∀ v, (s.round h.val).rebuild c x 1 true = .ok v → ((u.round h.val).client x).secret = v + 1)) ∧
  (∀ (s : State) (h : Handle) (c : Nat) (seeds : List (Nat × Nat × Nat)), (s.round h.val).state = .unmasking → c < (s.round h.val).sizes.length →
    ((s.round h.val).cohort c).rebuilt = false → ((s.round h.val).cohort c).reason = 0 →
    (∀ e, exec (.seedDistribution h c seeds (some e)) s =
      .next (s.updRound h.val fun r => r.setCohort c { r.cohort c with settled := true, reason := e })) ∧
    (∃ u, exec (.seedDistribution h c seeds none) s = .next u ∧ ((u.round h.val).cohort c).rebuilt = true ∧
      ((u.round h.val).cohort c).settled = true ∧ ((u.round h.val).cohort c).pairs = seeds.filter (fun x => x.1 != x.2.1) ∧
      u.cells = s.cells ∧ u.mem = s.mem))

/-- Bindings (R189, R190, R264 to R267, R271, R289, R292): ENABLE of a binding that passes its checks puts it into effect and one that fails records
the status; while ENABLE is set, and once the round has left ARMED, the writes are discarded; a batch is dispatched, and a stream delivered, to the
cell with the binding's token raised; a cell zeroes its sealed blocks of a round that has ended. The gate (R43, R269, R294 to R296): once every
cohort is done and every binding has delivered, the gate takes the digests of the tiles and writes the chunk totals; a shard that has failed is only
reported; twins whose digests differ end the shard with REPLICA_MISMATCH; the coordinator announces SUMMED in slot 0 of a turn after the last report,
in effect at the next boundary. -/
def Obligations.BindingsDispatchDeliverAndTheGateAnnounces : Prop :=
  ((∀ (s : State) (e : Fin 256) (v : Word64), s.sec.lifecycle ≠ .tampered →
    ((s.bind e.val).enable = true → exec (.aggBindEnable 0 e v) s = .next (s.discarded 0 (bindOffset e.val) v.toNat) ∧
      ((s.round (s.bind e.val).round).state = .armed → exec (.aggBindDisable 0 e) s = .next (s.setBind e.val { s.bind e.val with
        enable := false, placed := 0, resident := false })) ∧
      ((s.round (s.bind e.val).round).state ≠ .armed → exec (.aggBindDisable 0 e) s = .next (s.discarded 0 (bindOffset e.val) 0))) ∧
    ((s.bind e.val).enable = false → exec (.aggBindDisable 0 e) s = .next s ∧
      (∀ st, s.bindFail e.val ((s.bind e.val).ctl v.toNat) = some st →
        exec (.aggBindEnable 0 e v) s = .next (s.setBind e.val { (s.bind e.val).ctl v.toNat with status := st })) ∧
      (s.bindFail e.val ((s.bind e.val).ctl v.toNat) = none → ((s.bind e.val).cohortCount ≠ 1 ∨ (s.bind e.val).chunkCount ≠ 1) →
        exec (.aggBindEnable 0 e v) s = .next (s.setBind e.val { (s.bind e.val).ctl v.toNat with
          enable := true, status := .ok, busy := false, resident := false, taken := false, streams := 0, delivered := 0, placed := 0,
          copies := [], current := none })))) ∧
  (∀ (s : State) (e : Fin 256) (x : Bin), (s.bind e.val).enable = true → (s.bind e.val).busy = false → s.nextBatch e.val = some x →
    let r := s.round (s.bind e.val).round
    let i := r.tileIndex s.jig.me x.cohort x.chunk
    s.mayIssue r.tenant .dma (s.bind e.val).engine = true → s.tileBudget e.val i = true → (s.bind e.val).placed = i + 1 →
    (s.cell (s.bind e.val).cell).waiting = .none → Tab.look 0 (s.cell (s.bind e.val).cell).tokens (s.bind e.val).token < 65535 →
    ∃ u, exec (.batchDispatch e) s = .next u ∧ Tab.look 0 (u.cell (s.bind e.val).cell).tokens (s.bind e.val).token =
        Tab.look 0 (s.cell (s.bind e.val).cell).tokens (s.bind e.val).token + 1 ∧ (u.bind e.val).busy = true ∧ (u.bind e.val).current = some x ∧
      (u.bind e.val).copies = (List.range (r.binBytes / 2 ^ 20)).map (fun n =>
        parseDesc (batchDescBytes r (s.bind e.val) (s.rank (s.bind e.val).cell) (s.bind e.val).round x.idx n)) ∧
      (u.round (s.bind e.val).round).batches = r.batches.erase x ∧
      (u.round (s.bind e.val).round).batchCount = (r.batchCount + 1) % 16777216 ∧ u.mem = s.mem ∧ u.ram = s.ram) ∧
  (∀ (s : State) (e : Fin 256) (c j n : Nat) (st : MaskStream) (l : List Nat), (s.bind e.val).enable = true → (s.bind e.val).busy = false →
    let r := s.round (s.bind e.val).round
    r.state = .unmasking → r.unmaskArmed = true → s.nextBatch e.val = none → s.mayIssue r.tenant .dma (s.bind e.val).engine = true →
    nthStream r ((s.bind e.val).tiles r) (s.bind e.val).delivered = some (c, j, n) → (r.streamList c)[n]? = some st →
    s.streamChunk r c j st = some l → (s.bind e.val).placed = r.tileIndex s.jig.me c j + 1 →
    s.tileBudget e.val (r.tileIndex s.jig.me c j) = true →
    (s.cell (s.bind e.val).cell).waiting = .none → Tab.look 0 (s.cell (s.bind e.val).cell).tokens (s.bind e.val).token < 65535 →
    ∃ u, exec (.streamDelivery e) s = .next u ∧ Tab.look 0 (u.cell (s.bind e.val).cell).tokens (s.bind e.val).token =
        Tab.look 0 (s.cell (s.bind e.val).cell).tokens (s.bind e.val).token + 1 ∧ (u.bind e.val).busy = true ∧
      (u.bind e.val).delivered = ((s.bind e.val).delivered + 1) % 4294967296 ∧
      (Tab.look none (u.cell (s.bind e.val).cell).streams 0) = some { elements := l } ∧ u.mem = s.mem ∧ u.ram = s.ram ∧ u.agg.rounds = s.agg.rounds) ∧
  (∀ (s : State) (c : CellId) (h : Handle), c.val ∈ (s.round h.val).sealedCells → s.cellGroup c.val = 255 → s.frozen = false →
    ∃ u, exec (.sealedClear c h) s = .next u ∧ (∀ x ∈ (u.cell c.val).seals, x.2 ≠ h.val + 1) ∧
      (∀ a, Tab.look 0 (s.cell c.val).seals (a / 4096) = h.val + 1 → Tab.look 0 (u.cell c.val).sram a = 0) ∧
      (∀ a, Tab.look 0 (s.cell c.val).seals (a / 4096) ≠ h.val + 1 → Tab.look 0 (u.cell c.val).sram a = Tab.look 0 (s.cell c.val).sram a) ∧
      c.val ∉ (u.round h.val).sealedCells ∧ (∀ k, k ≠ c.val → u.cell k = s.cell k) ∧ u.mem = s.mem ∧ u.hif = s.hif)) ∧
  ((∀ (s : State) (h : Handle), (s.round h.val).state = .unmasking → (s.round h.val).gateDone = false → s.frozen = false →
    (s.round h.val).cohortsDone = true →
    ((s.round h.val).shardStatus ≠ .ok → exec (.gatePass h) s =
      .next ((s.updRound h.val fun r => { r with gateDone := true, replicaOk := true }).reportGate h.val)) ∧
    ((s.round h.val).shardStatus = .ok → s.bindsDone h.val = true → s.gateSlot h.val = true → (s.round h.val).robust = false →
      ∃ u, exec (.gatePass h) s = .next u ∧ (u.round h.val).gateDone = true ∧
        (u.round h.val).totals = ((s.round h.val).myChunks s.jig.me).map (fun j => (j, s.chunkTotal h.val j)) ∧
        (u.round h.val).digests = (List.range (s.round h.val).sizes.length).flatMap (fun c =>
          ((s.round h.val).chunksOf s.jig.me c).map (fun j => s.tileDigest h.val c j)) ∧
        (u.round h.val).state = .unmasking ∧ u.mem = s.mem ∧ u.hif = s.hif)) ∧
  (∀ (s : State) (h : Handle) (l : List Digest), (s.round h.val).state = .unmasking → (s.round h.val).gateDone = true →
    (s.round h.val).replicaOk = false → (s.round h.val).shardStatus = .ok →
    (l = (s.round h.val).digests → exec (.replicaCompare h l) s = .next ((s.updRound h.val fun r => { r with replicaOk := true }).reportGate h.val)) ∧
    (l ≠ (s.round h.val).digests → exec (.replicaCompare h l) s = .next ((s.updRound h.val fun r => { r with
      shardStatus := .replicaMismatch }).reportGate h.val))) ∧
  (∀ (s : State) (h : Handle), (s.round h.val).state = .unmasking → s.decides = true → (s.round h.val).announced = false → (s.round h.val).change = none →
    s.slotOf s.pos = 0 → (s.round h.val).reportTurn < s.turn → s.frozen = false →
    (∀ m, m < max s.bigE 1 → s.takesPart (s.round h.val) m = true → ∃ st, (m, st) ∈ (s.round h.val).reports) →
    exec (.summedAnnounce h) s = .next ((s.updRound h.val fun r => { r with
      announced := true, change := some (s.boundaryAfter s.pos, .summed) }).emit (.device (.summed h)))))

/-- CT_REGISTER of parameter sets and descriptors (R309, R335): a set that passes the checks takes the lowest free PSID, one whose fields, primes or
key switching are out of order is refused with CT_PARAMS; a descriptor that passes takes the lowest free index, its fingerprint made and its noise at
least that of a fresh encryption. What is named is not released: CFG_LOCKED. Evaluation keys, plans and exit bindings (R330, R333, R353, R354, R363):
a key that passes takes the lowest free index with a digest key of its own, and its digest table is written, once its bytes have been read, at once
where DMA slots and budget suffice; a plan whose entries run symbolically
takes the lowest free identifier with its output's properties, and one that breaks a check completes with the entry in RESULT1; an exit binding is
kept under its number. Objects in use are not released. -/
def Obligations.RingObjectsAreRegisteredAndReleased : Prop :=
  ((∀ (s : State) (c : Cmd), s.accepts 0x70 c = true → c.a0 = 0 → c.len = 864 → c.a1 = 0 →
    s.blockFail (cmdActs c) c.addr 864 (fun p => p.r) = none →
    let b := s.readVA (cmdActs c) c.addr 864 c.host
    let p := parseParams (cmdActs c) b
    (p.fieldsOk b = false ∨ p.primesOk = false ∨ p.switchOk = false → exec (.ctRegisterParams c) s = s.refuses c .ctParams) ∧
    (p.fieldsOk b = true → p.primesOk = true → p.switchOk = true → s.ringGroupOk p = true → s.ringRoutesOk p = true →
      s.ringGroupLocked p = false → p.scratchNeed ≤ p.scratchLen → s.scratchOk (cmdActs c) p.scratch p.scratchLen = true → ∀ i, s.freeParams = some i →
      exec (.ctRegisterParams c) s = .next (State.complete { s with ring := { s.ring with params := Tab.put {} s.ring.params i p } } c .ok i 0 0))) ∧
  (∀ (s : State) (c : Cmd), s.accepts 0x70 c = true → (c.a0 ≠ 0 ∨ c.len ≠ 864) → exec (.ctRegisterParams c) s = s.refuses c .bounds) ∧
  (∀ (s : State) (c : Cmd), s.accepts 0x70 c = true → c.a0 = 1 → c.len = 64 → c.a1 = 0xFFFF →
    s.blockFail (cmdActs c) c.addr 64 (fun p => p.r) = none →
    let b := s.readVA (cmdActs c) c.addr 64 c.host
    let d := parseRingDesc (cmdActs c) b
    let p := s.params d.psid
    let d' : RingDesc := { d with
      fingerprint := p.fingerprint d.keyset, noise := if d.type = 0 then max d.noise p.fresh else d.noise, generation := 0 }
    (s.ownsParams (cmdActs c) d.psid = false → exec (.ctRegisterDescriptor c) s = s.refuses c .ctParams) ∧
    (s.ownsParams (cmdActs c) d.psid = true → d'.fieldsOk p b = true → s.descsHeld (cmdActs c) < Tab.look 512 s.ring.descLimit (cmdActs c) →
      disjointRanges (s.extents d') = true → (∀ x ∈ s.extents d', s.mapped (cmdActs c) x.1 x.2 = true) →
      (∀ x ∈ s.extents d', s.allPages (cmdActs c) x.1 x.2 (fun g => decide (g.tier ≤ 2) && g.r && g.w) = true) → ∀ i, s.freeDesc = some i →
      exec (.ctRegisterDescriptor c) s = .next (State.complete { s with ring := { s.ring with descs := Tab.put {} s.ring.descs i d' } } c .ok i 0 0))) ∧
  (∀ (s : State) (c : Cmd), s.accepts 0x70 c = true →
    (c.a0 = 8 → s.ownsParams (cmdActs c) c.a1 = true →
      exec (.releaseParams c) s = if s.paramsRefs c.a1 = 0 then .next ((s.setParams c.a1 {}).ok c) else s.refuses c .cfgLocked) ∧
    (c.a0 = 8 → s.ownsParams (cmdActs c) c.a1 = false → exec (.releaseParams c) s = s.refuses c .rights) ∧
    (c.a0 = 9 → s.ownsDesc (cmdActs c) c.a1 = true → s.descInUse (cmdActs c) c.a1 = false → s.plansName (cmdActs c) c.a1 = false →
      exec (.releaseDescriptor c) s = .next ((s.setDesc c.a1 {}).ok c)) ∧
    (c.a0 = 9 → s.ownsDesc (cmdActs c) c.a1 = true → s.descInUse (cmdActs c) c.a1 = true → exec (.releaseDescriptor c) s = s.refuses c .cfgLocked))) ∧
  ((∀ (s : State) (c : Cmd), s.accepts 0x71 c = true → c.len = 64 → s.blockFail (cmdActs c) c.addr 64 (fun p => p.r) = none →
    let t := cmdActs c
    let b := s.readVA t c.addr 64 c.host
    let k := parseEvk t b
    let n := s.evkChunks k
    (∀ u, s.evkFieldsOk t k b = false → exec (.evkRegister c u) s = s.refuses c .ctParams) ∧
    (s.evkFieldsOk t k b = true → s.mapped t k.base (65536 * n) = true → s.mapped t k.digests (8 * n) = true →
      s.allPages t k.base (65536 * n) (fun p => p.tier == 2 && p.r) = true → s.allPages t k.digests (8 * n) (fun p => p.w) = true →
      s.freeTenantKeys ≠ [] → s.keysHeld t < s.keyLimit t → ∀ i, s.freeEvk = some i →
      let g := (s.params k.psid).group
      (∀ ue, s.canFeed g t = false → exec (.evkRegister c ue) s = s.refuses c .budget) ∧
      (∀ ue, s.canFeed g t = true → s.feedMoves g t (65536 * n) < 65536 * n → ∃ (u : State) (j : EvkJob), exec (.evkRegister c ue) s = .next u ∧
        u.ring.evkJobs = s.ring.evkJobs ++ [j] ∧ j.cmd = c ∧ j.index = i ∧ j.moved = s.feedMoves g t (65536 * n) ∧ j.evk.chunks = n ∧
        u.ring.evks = s.ring.evks ∧ u.hif = s.hif ∧ u.ram = s.ram) ∧
      (s.canFeed g t = true → s.feedMoves g t (65536 * n) = 65536 * n →
      (∃ u : State, exec (.evkRegister c true) s = .next (u.fail c .memUe) ∧ u.ring.evks = s.ring.evks ∧ u.ram = s.ram ∧ u.hif = s.hif) ∧
      (s.allPages t k.base (65536 * n) (fun p => !p.broken) = true → ∃ (u : State) (e r1 : Nat), exec (.evkRegister c false) s = .next (u.complete c .ok i r1 flagVaried) ∧ (u.evk i).valid = true ∧
        (u.evk i).chunks = n ∧ (u.evk i).base = k.base ∧ (u.evk i).digestKey = e ∧ (u.key e).type = 2 ∧ (u.key e).owner = t ∧
        (∀ j, j ≠ e → u.key j = s.key j) ∧ (∀ j, j ≠ i → u.evk j = s.evk j) ∧ u.cells = s.cells ∧ u.agg = s.agg)))) ∧
  (∀ (s : State) (c : Cmd), s.accepts 0x70 c = true → c.a0 = 10 → s.ownsEvk (cmdActs c) c.a1 = true →
    (s.evkInUse (cmdActs c) c.a1 = true → exec (.releaseEvk c) s = s.refuses c .cfgLocked) ∧
    (s.evkInUse (cmdActs c) c.a1 = false → (∀ e ∈ s.ring.plans, e.2.owner = cmdActs c → c.a1 ∉ e.2.keysNamed) →
      exec (.releaseEvk c) s = .next (((s.zeroKey (s.evk c.a1).digestKey).setEvk c.a1 {}).ok c))) ∧
  (∀ (s : State) (c : Cmd), s.accepts 0x70 c = true → c.a0 = 2 → c.a1 = 0 → 64 ≤ c.len → s.blockFail (cmdActs c) c.addr c.len (fun p => p.r) = none →
    let t := cmdActs c
    let b := s.readVA t c.addr c.len c.host
    let p := parsePlan t b
    s.mapped t p.scratch p.scratchLen = true → s.scratchOk t p.scratch p.scratchLen = true → s.planHeaderOk t p b c.len = true →
    (∀ i, s.planForm t p [] p.entries = some i → exec (.ctRegisterPlan c) s = .next (s.complete c .ctParams 0 i 0)) ∧
    (s.planForm t p [] p.entries = none →
      (∀ st i, s.planSymbolic t p = .error (st, i) → exec (.ctRegisterPlan c) s = .next (s.complete c st 0 i 0)) ∧
      (∀ env n o i, s.planSymbolic t p = .ok (env, n) → s.planLook t env planOut = some o → o.type = 0 → s.planScratch p ≤ p.scratchLen →
        s.freePlan = some i →
        exec (.ctRegisterPlan c) s = .next ((s.setPlan i { p with
          outLevel := o.level, outNoise := o.noise, outScale := o.scale, outEval := o.eval, outPlain := o.plain, chunks := n,
          temps := p.tempsUsed }).complete c .ok i o.scale 0)))) ∧
  (∀ (s : State) (c : Cmd), s.accepts 0x70 c = true → c.a0 = 11 → s.ownsPlan (cmdActs c) c.a1 = true →
    exec (.releasePlan c) s = if s.planInUse (cmdActs c) c.a1 = true then s.refuses c .cfgLocked else .next ((s.setPlan c.a1 {}).ok c)) ∧
  (∀ (s : State) (c : Cmd), s.accepts 0x70 c = true → c.a0 = 3 → c.len = 32 → s.blockFail (cmdActs c) c.addr 32 (fun p => p.r) = none →
    let x := parseExit (s.readVA (cmdActs c) c.addr 32 c.host)
    (3 < c.a1 → exec (.ctRegisterExit c) s = s.refuses c .bounds) ∧
    (c.a1 ≤ 3 → x.fieldsOk (s.readVA (cmdActs c) c.addr 32 c.host) = true → (s.ep x.endpoint).state ≠ 0 → (s.ep x.endpoint).tenant = cmdActs c →
      (s.key x.macKey).type ≠ 0 → (s.key x.macKey).owner = cmdActs c → bitAt (s.key x.macKey).uses 13 = true →
      exec (.ctRegisterExit c) s = .next (State.complete { s with ring := { s.ring with
        exits := Tab.put {} s.ring.exits (4 * cmdActs c + c.a1) x } } c .ok c.a1 0 0))))

/-- RING_MACRO (R337, R341, R343): a list of 32-byte entries whose first operation is known joins the tenant's commands; a length that is no multiple
of 32 is refused with BOUNDS, a seventeenth command with QUOTA_EXCEEDED, one without a slot of the sequencer or a DMA budget for its keys with BUDGET,
one that names a detached set with CFG_MISMATCH. The operations of R338: at the head of its tenant's list, an entry whose check fails ends with the
first failing status and changes no data; one that passes begins where its pages are mapped and the sequencer, the group and its routes are in their
slots, pauses while its key streams, and then makes its exchanges, writes its result, raises GENERATION and ends with OK. -/
def Obligations.RingEntriesQueueAndOperationsRun : Prop :=
  ((∀ (s : State) (c : Cmd), s.accepts 0x72 c = true → (c.len % 32 ≠ 0 ∨ c.len = 0 ∨ 2097152 < c.len) → exec (.ringMacro c) s = s.refuses c .bounds) ∧
  (∀ (s : State) (c : Cmd), s.accepts 0x72 c = true → c.len % 32 = 0 → c.len ≠ 0 → c.len ≤ 2097152 → 16 ≤ (s.macros (cmdActs c)).length →
    exec (.ringMacro c) s = s.refuses c .quotaExceeded) ∧
  (∀ (s : State) (c : Cmd), s.accepts 0x72 c = true → c.len % 32 = 0 → c.len ≠ 0 → c.len ≤ 2097152 → (s.macros (cmdActs c)).length < 16 →
    s.blockFail (cmdActs c) c.addr c.len (fun p => p.r) = none →
    let es := parseEntries (s.readVA (cmdActs c) c.addr c.len c.host) 0 (c.len / 32)
    let starved := !s.ownsSlot .ring 0 (cmdActs c) || (es.any (fun e => usesEvk e.op) && s.dmaBudgetFull (cmdActs c) == 0)
    (starved = true → exec (.ringMacro c) s = s.refuses c .budget) ∧
    (starved = false → es.any s.namesDetached = true → exec (.ringMacro c) s = s.refuses c .cfgMismatch) ∧
    (starved = false → es.any s.namesDetached = false →
      (s.macros (cmdActs c) ≠ [] → (∀ m r, s.macros (cmdActs c) = m :: r → ringOpKnown m.head.op = true) →
        exec (.ringMacro c) s = .next (s.setMacros (cmdActs c) (s.macros (cmdActs c) ++ [
          { cmd := c, entries := es, pos := 0, flags := 0, waiting := false }]))) ∧
      (s.macros (cmdActs c) = [] → (∀ e r, es = e :: r → ringOpKnown e.op = true) →
        exec (.ringMacro c) s = .next (s.setMacros (cmdActs c) [{ cmd := c, entries := es, pos := 0, flags := 0, waiting := false }]))))) ∧
  (∀ (s : State) (t : TenantId) (v : RingEnv) (m : RingMacro), ∀ i ∈ ([(0x01, .ringAdd t v), (0x02, .ringSub t v), (0x03, .ringAddp t v), (0x04, .ringMulp t v),
      (0x05, .ringMulc t v), (0x06, .ringMul t v), (0x07, .ringRescale t v), (0x08, .ringRotate t v), (0x09, .ringLevelDrop t v), (0x0A, .ringNtt t v),
      (0x0B, .ringIntt t v), (0x0C, .ringToMont t v), (0x0D, .ringCopy t v)] : List (Nat × Instr)),
    (s.ringHead t.val i.1 = none → exec i.2 s = .next s) ∧
    (s.ringHead t.val i.1 = some m →
      let e := m.head
      let a := s.desc e.a
      let p := s.params a.psid
      let l := [s.desc e.dst, a] ++ (if usesB e.op then [s.desc e.b] else [])
      let n := entryChunks p e a.level
      (m.run = none → ∀ st, firstFail (s.entryChecks t.val e) = some st → exec i.2 s = .next (s.endEntry t.val st 0 0)) ∧
      ((m.run = none → firstFail (s.entryChecks t.val e) = none) → s.ringIssue t.val p.group = true → s.ringMapped t.val l = true → v.badChunk = none →
        let b := if m.run.isSome then s else s.beginEntry t.val m
        let at_ := m.run.getD (0, s.turn)
        let k := b.feedMoves p.group t.val (65536 * n - at_.1)
        let u := b.chargeDma t.val k
        (at_.1 + k < 65536 * n → exec i.2 s = .next (u.pauseEntry t.val m (at_.1 + k) at_.2)) ∧
        (65536 * n ≤ at_.1 + k → u.ringStop t.val l false v = none →
          let w := (u.updRing fun r => { r with paused := Tab.put false r.paused t.val false }).lockEntry t.val e false
          exec i.2 s = .next ((((w.entryExchanges t.val e).ringResult t.val e).ringLeaves t.val p p.scratch p.scratchLen).endEntry t.val .ok
            (Nat.lor (ringFlags v) (16 * b2n (at_.2 != s.turn))) n))))) ∧
  (∀ (s : State) (t : Nat) (e : RingEntry), let a := s.desc e.a
    (s.ringResult t e).desc e.dst = (s.desc e.dst).holds (resultDesc (s.params a.psid) e a (if usesB e.op then s.desc e.b else {}) 0) ∧
    (∀ d, d ≠ e.dst → (s.ringResult t e).desc d = s.desc d) ∧ (s.ringResult t e).cells = s.cells ∧ (s.ringResult t e).mem = s.mem)

/-- The macros of R374: REFRESH writes its plan's output, EXTRACT its positions as LWE ciphertexts, LWE_SWITCH the ciphertexts at the switch set's
dimension with the key's noise, BLIND_ROTATE a ciphertext of level 0 in every destination; a failing check ends the entry with its status. -/
def Obligations.RingMacrosRunAtTheHead : Prop :=
  ∀ (s : State) (t : TenantId) (v : RingEnv) (m : RingMacro),
    let e := m.head
    let a := s.desc e.a
    let d := s.desc e.dst
    let b := s.beginEntry t.val m
    let w := b.lockEntry t.val e false
    let go (l : List RingDesc) (n : Nat) : Bool := m.run.isNone && s.ringIssue t.val (s.params a.psid).group && s.ringMapped t.val l &&
      v.badChunk.isNone && b.feedMoves (s.params a.psid).group t.val (65536 * n) == 65536 * n &&
      ((b.chargeDma t.val (65536 * n)).ringStop t.val l false v).isNone
    (s.ringHead t.val 0x40 = some m →
      (∀ st, m.run = none → firstFail (s.refreshChecks t.val e) = some st → exec (.ringRefresh t v) s = .next (s.endEntry t.val st 0 0)) ∧
      (firstFail (s.refreshChecks t.val e) = none → go [d, a] (s.plan e.arg).chunks = true → ∃ u : State,
        exec (.ringRefresh t v) s = .next (u.endEntry t.val .ok (ringFlags v) (s.plan e.arg).chunks) ∧ (u.desc e.dst).level = (s.plan e.arg).outLevel ∧
          (u.desc e.dst).noise = (s.plan e.arg).outNoise ∧ (u.desc e.dst).scale = (s.plan e.arg).outScale ∧ (u.desc e.dst).eval = true ∧
          (u.desc e.dst).generation = (d.generation + 1) % 4294967296 ∧ u.mem = w.mem ∧ (∀ x, x ≠ e.dst → u.desc x = s.desc x))) ∧
    (s.ringHead t.val 0x41 = some m →
      (∀ st, m.run = none → firstFail (s.extractChecks t.val e) = some st → exec (.ringExtract t v) s = .next (s.endEntry t.val st 0 0)) ∧
      (firstFail (s.extractChecks t.val e) = none → go [d, a] 0 = true → ∃ u : State,
        exec (.ringExtract t v) s = .next (u.endEntry t.val .ok (ringFlags v) 0) ∧ (u.desc e.dst).noise = a.noise ∧ (u.desc e.dst).plain = true ∧
          (u.desc e.dst).generation = (d.generation + 1) % 4294967296 ∧ u.mem = w.mem ∧ (∀ x, x ≠ e.dst → u.desc x = s.desc x))) ∧
    (s.ringHead t.val 0x42 = some m →
      (∀ st, m.run = none → firstFail (s.lweChecks t.val e) = some st → exec (.ringLweSwitch t v) s = .next (s.endEntry t.val st 0 0)) ∧
      (firstFail (s.lweChecks t.val e) = none → go [d, a] (s.evk e.evk).chunks = true → ∃ u : State,
        exec (.ringLweSwitch t v) s = .next (u.endEntry t.val .ok (ringFlags v) (s.evk e.evk).chunks) ∧
          (u.desc e.dst).noise = min (max a.noise (s.evk e.evk).noiseAdd + 256) 65535 ∧ (u.desc e.dst).keyset = (s.evk e.evk).keyset ∧
          (u.desc e.dst).generation = (d.generation + 1) % 4294967296 ∧ u.mem = w.mem ∧ (∀ x, x ≠ e.dst → u.desc x = s.desc x))) ∧
    (s.ringHead t.val 0x43 = some m →
      (∀ st, m.run = none → firstFail (s.blindChecks t.val e) = some st → exec (.ringBlindRotate t v) s = .next (s.endEntry t.val st 0 0)) ∧
      (∀ n, n = ((a.cap + (s.groupCells (s.params a.psid).group).length - 1) / (s.groupCells (s.params a.psid).group).length) * (s.evk e.evk).chunks →
        firstFail (s.blindChecks t.val e) = none → go ((s.blindDests e).map s.desc ++ [a, s.desc e.b]) n = true → ∃ u : State,
        exec (.ringBlindRotate t v) s = .next (u.endEntry t.val .ok (ringFlags v) n) ∧
          (∀ x, e.dst ≤ x → x < e.dst + a.cap → (u.desc x).level = 0 ∧ (u.desc x).noise = (s.evk e.evk).noiseAdd ∧ (u.desc x).scale = (s.desc e.b).scale ∧
            (u.desc x).generation = ((s.desc x).generation + 1) % 4294967296) ∧
          (∀ x, (x < e.dst ∨ e.dst + a.cap ≤ x) → u.desc x = s.desc x) ∧ u.mem = w.mem))

/-- Committee exits (R364, R365, R370, R371): SIGN_EXIT sends its request and the entry waits with its pages locked; a valid reply writes its
ciphertext and ends the entry with OK, a refused one ends it with PEER_UNREACHABLE; a reply that matches no request, or whose tag fails, is counted
as BAD; WAIT_TURNS later the same request goes out again, and after the last copy the entry ends; a robust round's next survivor is checked with a
SIGN_REVEAL request. -/
def Obligations.CommitteeExitsAskAndSettle : Prop :=
  (∀ (s : State) (t : TenantId) (v : RingEnv) (m : RingMacro), s.ringHead t.val 0x44 = some m →
    let e := m.head
    let a := s.desc e.a
    let x := s.exitBind t.val e.arg
    (∀ st, firstFail (s.signChecks t.val e) = some st → exec (.ringSignExit t v) s = .next (s.endEntry t.val st 0 0)) ∧
    (firstFail (s.signChecks t.val e) = none → s.keyUse x.macKey t.val 13 = none → s.ringIssue t.val (s.params a.psid).group = true →
      s.ringMapped t.val [s.desc e.dst, a] = true → s.ringStop t.val [s.desc e.dst, a] false v = none →
      ∃ u, exec (.ringSignExit t v) s = .next u ∧ (u.macros t.val).head? = some { m with
          waiting := true, flags := Nat.lor m.flags (Nat.lor flagVaried (ringFlags v)) } ∧
        u.ring.nextReq = wrapAdd 64 s.ring.nextReq 1 ∧ (∃ q, u.ring.reqs = s.ring.reqs ++ [q] ∧ q.id = s.ring.nextReq ∧ q.kind = 0 ∧ q.sends = 1 ∧ q.check = none) ∧
        u.ring.descs = s.ring.descs ∧ u.hif = s.hif)) ∧
  (∀ (s : State) (t : TenantId) (r : ExitReplyMsg) (q : ExitReq), s.ring.reqs.find? (fun q => q.tenant == t.val && q.id == r.requestId) = some q →
    s.frozen = false → q.check = none → r.tagOk = true → r.kind = q.kind → r.fingerprint = q.fingerprint →
    (r.refused = false → r.payloadLength = s.replyLength q →
      exec (.exitReply t r) s = .next (((s.writeReply q r).endWait t.val).endEntry t.val .ok flagVaried 0)) ∧
    (r.refused = true → exec (.exitReply t r) s = .next (((s.countExit t.val 2).endWait q.tenant).endEntry q.tenant .peerUnreachable flagVaried 0))) ∧
  (∀ (s : State) (t : TenantId) (r : ExitReplyMsg), s.ring.reqs.find? (fun q => q.tenant == t.val && q.id == r.requestId) = none →
    s.frozen = false → (r.tagOk = false ∨ (t.val, r.requestId) ∉ s.ring.settled) → exec (.exitReply t r) s = .next (s.countExit t.val 0) ∧
      Tab.look 0 (s.countExit t.val 0).ring.exitCount (8 * t.val) = (if Tab.look 0 s.ring.exitCount (8 * t.val) + 1 < 65536
        then Tab.look 0 s.ring.exitCount (8 * t.val) + 1 else 65535)) ∧
  (∀ (s : State) (t : TenantId) (i : Nat) (q : ExitReq), s.ring.reqs = [q] → q.tenant = t.val → q.id = i → s.frozen = false →
    (s.turn < q.sentTurn + q.waitTurns → exec (.exitResend t i) s = .next s) ∧
    (q.sentTurn + q.waitTurns ≤ s.turn → q.sends < q.sendsMax → ∃ u, exec (.exitResend t i) s = .next u ∧
      u.ring.reqs = [{ q with sends := q.sends + 1, sentTurn := s.turn }] ∧ u.mem = s.mem ∧ u.hif = s.hif ∧
      (∀ k ty a b c d e f l o, s.out = .exitReq i k ty a b c d e f l :: o → u.out = .exitReq i k ty a b c d e f l :: s.out)) ∧
    (q.sentTurn + q.waitTurns ≤ s.turn → q.sendsMax ≤ q.sends → exec (.exitResend t i) s = .next ((s.countExit t.val 3).exitFails q))) ∧
  (∀ (s : State) (h : Handle) (x : Nat), (s.round h.val).state = .frozen → (s.round h.val).robust = true → (s.round h.val).test = 0 →
    ((s.round h.val).cohort 0).published = true → s.awaitsCheck h.val x = true → (∀ y, y < x → s.awaitsCheck h.val y = false) →
    s.mayIssue (s.round h.val).tenant .ring 0 = true →
    s.ringIssue (s.round h.val).tenant (s.params (s.plan (s.round h.val).checkPlan).psid).group = true →
    s.keyUse (s.exitBind (s.round h.val).tenant (s.round h.val).exitBind).macKey (s.round h.val).tenant 13 = none →
    let r := s.round h.val
    let total := 65536 * (s.plan r.checkPlan).chunks
    let n := s.feedMoves (s.params (s.plan r.checkPlan).psid).group r.tenant (total - r.checkMoved)
    (r.checkMoved + n < total → exec (.robustCheck h x) s = .next ((s.chargeDma r.tenant n).updRound h.val fun r =>
      { r with checkMoved := r.checkMoved + n })) ∧
    (total ≤ r.checkMoved + n → ∃ u, exec (.robustCheck h x) s = .next u ∧
      (∃ q, u.ring.reqs = s.ring.reqs ++ [q] ∧ q.kind = 1 ∧ q.check = some (h.val, x) ∧ q.id = s.ring.nextReq) ∧
      u.round h.val = { r with checkMoved := 0 } ∧ (∀ k, k ≠ h.val → u.round k = s.round k) ∧ u.hif = s.hif))

/-- The CTL instructions (R203, R211 to R222): a cell issues the word at its instruction pointer in a slot its group owns, and nothing happens
otherwise; each then has its effect and goes on at the next instruction, at its target, or holds; its cost is added to the work count; a wait past
its limit ends the program with BARRIER_TIMEOUT, a token past 65,535 with INSTR_ILLEGAL. A shift of 64 or more is a free value
(notes/assumptions/14.md). Control flow and scalar registers (R202, R222): going on past a loop's last instruction starts its
next pass while it has one left; past the program's end the program fails with INSTR_ILLEGAL; s0 reads 0 and a write of it is discarded, any other
register reads what was written last. -/
def Obligations.ControlInstructionsAndLoopsRun : Prop :=
  ((∀ (s : State) (a : CellAt) (n : Nat),
    (s.beginDue (s.cellGroup a.cell.val)).issues a.cell.val (cellWord a false 0x00 [(16, 16, n)]) (min (1 + n) 256) = false →
    exec (.nop a n) s = .next s) ∧
  (∀ (s : State) (a : CellAt) (w : InstrWord), s.beginDue (s.cellGroup a.cell.val) = s →
    let c := a.cell.val
    let on (cost : Nat) : State := s.updCell c fun x => x.addWork 0 cost 0
    let x := s.cell c
    (∀ n, w = cellWord a false 0x00 [(16, 16, n)] → s.issues c w (min (1 + n) 256) = true →
      exec (.nop a n) s = .next ((on (1 + n)).goTo c (x.pc + 1))) ∧
    (s.issues c w 1 = true →
    (w = cellWord a false 0x01 [] → exec (.halt a) s = .next (((on 1).updCell c fun x => { x with halting := true }).tryHalt c)) ∧
    (∀ t, w = cellWord a false 0x02 [(16, 12, t)] → exec (.jump a t) s = .next ((on 1).goTo c t)) ∧
    (∀ l i, w = cellWord a false 0x03 [(16, 12, l), (28, 4, 0), (32, 32, i)] →
      (i = 0 → exec (.loop a l 0 i) s = .next ((on 1).goTo c (l + 1))) ∧
      (0 < i → exec (.loop a l 0 i) s = .next (((on 1).updCell c fun y => { y with loops := (y.pc + 1, l, i) :: y.loops }).goTo c (x.pc + 1)))) ∧
    (∀ l (r : Fin 16) i, r ≠ 0 → w = cellWord a false 0x03 [(16, 12, l), (28, 4, r.val), (32, 32, i)] →
      (x.sreg r.val = 0 → exec (.loop a l r i) s = .next ((on 1).goTo c (l + 1))) ∧
      (x.sreg r.val ≠ 0 → exec (.loop a l r i) s = .next (((on 1).updCell c fun y => { y with
        loops := (y.pc + 1, l, (x.sreg r.val).toNat) :: y.loops }).goTo c (x.pc + 1)))) ∧
    (∀ t (cmp : Fin 4) v, w = cellWord a false 0x04 [(16, 12, t), (28, 2, cmp.val), (32, 6, v)] →
      let taken : Bool := decide ((cmp = 0 ∧ s.rank c = v) ∨ (cmp = 1 ∧ s.rank c ≠ v) ∨ (cmp = 2 ∧ s.rank c < v) ∨ (cmp = 3 ∧ v ≤ s.rank c))
      exec (.brank a t cmp v) s = .next ((on 1).goTo c (if taken then t else x.pc + 1))) ∧
    (∀ v (t : Fin 64) n, w = cellWord a v 0x05 [(16, 6, t.val), (32, 16, n)] → s.busyBinds c = [] →
      let y := (on 1).updCell c fun x => { x with
        lastToken := t.val, waitTurns := 0, flags := Nat.lor x.flags (if 48 ≤ t.val then 1 else 0) }
      (n ≤ Tab.look 0 x.tokens t.val → exec (.wait a v t n) s = .next ((y.updCell c fun x => { x with
        tokens := Tab.put 0 x.tokens t.val (Tab.look 0 x.tokens t.val - n), waiting := .none }).goTo c (x.pc + 1))) ∧
      (Tab.look 0 x.tokens t.val < n → exec (.wait a v t n) s = .next (y.updCell c fun x => { x with waiting := .token t.val n }))) ∧
    (∀ (t : Fin 64) n, w = cellWord a false 0x06 [(16, 6, t.val), (32, 16, n)] →
      (Tab.look 0 x.tokens t.val + n ≤ 65535 → exec (.signal a t n) s = .next (((on 1).updCell c fun x => { x with
        tokens := Tab.put 0 x.tokens t.val (Tab.look 0 x.tokens t.val + n) }).goTo c (x.pc + 1))) ∧
      (65535 < Tab.look 0 x.tokens t.val + n → exec (.signal a t n) s = .next (((on 1).updCell c fun x => { x with
        tokens := Tab.put 0 x.tokens t.val 65535 }).failCell c x.pc .instrIllegal 0 9))) ∧
    (w = cellWord a false 0x07 [] → exec (.gsync a) s = .next (((on 1).updCell c fun x => { x with
      gsyncs := x.gsyncs + 1, waiting := .gsync, waitTurns := 0 }).releaseGsync (s.cellGroup c))) ∧
    (∀ (d : Fin 16) v, w = cellWord a false 0x10 [(16, 4, d.val), (64, 64, v.toNat)] →
      exec (.smovi a d v) s = .next (((on 1).updCell c fun x => x.setSreg d.val v).goTo c (x.pc + 1))) ∧
    (∀ (d p q f : Fin 16) (u : Bool) (v : Word64), w = cellWord a false 0x11
        [(16, 4, d.val), (20, 4, p.val), (24, 4, q.val), (28, 4, f.val), (32, 1, b2n u), (64, 64, v.toNat)] →
      let l := x.sreg p.val
      let r := if u then v else x.sreg q.val
      let to_ (z : Word64) : Host.Outcome State Fault Refusal := .next (((on 1).updCell c fun x => x.setSreg d.val z).goTo c (x.pc + 1))
      (f = 0 → exec (.salu a d p q f u v) s = to_ (l + r)) ∧ (f = 1 → exec (.salu a d p q f u v) s = to_ (l - r)) ∧
      (f = 2 → exec (.salu a d p q f u v) s = to_ (l * r)) ∧ (f = 3 → exec (.salu a d p q f u v) s = to_ (l &&& r)) ∧
      (f = 4 → exec (.salu a d p q f u v) s = to_ (l ||| r)) ∧ (f = 5 → exec (.salu a d p q f u v) s = to_ (l ^^^ r)) ∧
      (f = 6 → r.toNat < 64 → exec (.salu a d p q f u v) s = to_ (l <<< r.toNat)) ∧
      (f = 7 → r.toNat < 64 → exec (.salu a d p q f u v) s = to_ (l >>> r.toNat)) ∧ (∃ z, exec (.salu a d p q f u v) s = to_ z)) ∧
    (∀ (d : Fin 16) b, w = cellWord a false 0x12 [(16, 4, d.val), (20, 1, b2n b)] →
      exec (.srank a d b) s = .next (((on 1).updCell c fun x => x.setSreg d.val (BitVec.ofNat 64
        (if b then (s.groupCells (s.cellGroup c)).length else s.rank c))).goTo c (x.pc + 1))))) ∧
  (∀ (s : State) (c : CellId), (s.cell c.val).running = true → (s.cell c.val).waiting ≠ .none → (s.cell c.val).waitLimit ≠ 0 →
    (s.cell c.val).waitLimit ≤ (s.cell c.val).waitTurns → s.frozen = false →
    exec (.waitLimitExpire c) s = .next (s.failCell c.val (s.cell c.val).pc .barrierTimeout
      (match (s.cell c.val).waiting with | .feedQueue _ _ _ => 4 | _ => 0) 0))) ∧
  ((∀ (s : State) (c p : Nat), (s.cell c).loops = [] → p < (s.cell c).store.length → s.goTo c p = s.updCell c fun x => { x with pc := p, loops := [] }) ∧
  (∀ (s : State) (c f e n : Nat) (r : List (Nat × Nat × Nat)), (s.cell c).loops = (f, e, n) :: r → 1 < n → f < (s.cell c).store.length →
    s.goTo c (e + 1) = s.updCell c fun x => { x with pc := f, loops := (f, e, n - 1) :: r }) ∧
  (∀ (s : State) (c f e n : Nat), (s.cell c).loops = [(f, e, n)] → n ≤ 1 → e + 1 < (s.cell c).store.length →
    s.goTo c (e + 1) = s.updCell c fun x => { x with pc := e + 1, loops := [] }) ∧
  (∀ (s : State) (c p : Nat), (s.cell c).loops = [] → (s.cell c).store.length ≤ p →
    s.goTo c p = (s.updCell c fun x => { x with pc := p % 4096, loops := [] }).failCell c (p % 4096) .instrIllegal 0 10) ∧
  (∀ (x : Cell) (r q : Nat) (v : Word64), x.sreg 0 = 0 ∧ x.setSreg 0 v = x ∧ (r ≠ 0 → (x.setSreg r v).sreg r = v) ∧
    (q ≠ r → (x.setSreg r v).sreg q = x.sreg q)))

/-- The vector and move instructions (R130, R142 to R144, R146, R147, R218 to R221, R224): with the operands aligned and no sealed block touched,
each has its effect on its cell alone, and completes; VLD and VST move 512 bytes little-endian, VPERM and VBCAST pick lanes, VOP works lane by lane,
MOVE copies blocks. What it reads is SRAM as its unit sees it, and what it meets besides is settled (`a.met`: notes/assumptions/45.md). A misaligned
operand ends the program with INSTR_ILLEGAL, detail 4, a sealed block with RIGHTS, an uncorrectable SRAM error with MEM_UE, counted and captured. -/
def Obligations.VectorAndMoveInstructionsRun : Prop :=
  ∀ (s : State) (a : CellAt), s.beginDue (s.cellGroup a.cell.val) = s → a.met.cut = none →
    let c := a.cell.val
    let x := s.cell c
    let seen := x.seen a.met
    let on (o : UnitOp) : State := s.updCell c fun y => y.addWork o.unit o.cost o.lat
    let ready (o : UnitOp) (w : InstrWord) : Prop := s.issues c w (min o.cost 256) = true
    let done (o : UnitOp) (f : Cell → Cell) : Host.Outcome State Fault Refusal :=
      .next ((((on o).updCell c f).settle (on o) c o a.met).completeInstr a)
    let failed (o : UnitOp) (st : Status) (k : Nat) : Host.Outcome State Fault Refusal :=
      .next (((on o).updCell c fun y => { y with work := wrapAdd 64 x.work 1 }).failCell c x.pc st o.unit k)
    (∀ (d : Fin 32) src, let o : UnitOp := { unit := 3, cost := 2, sram := true }
      ready o (cellWord a false 0x40 [(16, 5, d.val), (40, 26, addrCode src)]) →
      (x.misaligned src 256 = true → exec (.vld a d src) s = failed o .instrIllegal 4) ∧
      (x.misaligned src 256 = false → x.sealedRange (x.ea src) 512 none = true → exec (.vld a d src) s = failed o .rights 0) ∧
      (x.misaligned src 256 = false → x.sealedRange (x.ea src) 512 none = false →
        (a.met.ue = none → exec (.vld a d src) s =
          done o (fun y => y.setVreg d.val (fun l => BitVec.ofNat 64 (leNat (seen.read (x.ea src + 8 * l) 8))))) ∧
        (∀ b, a.met.ue = some (0, .sram b) → ∃ u : State, exec (.vld a d src) s = .next (u.failCell c x.pc .memUe 3 0) ∧
          (u.cell c).vregs = x.vregs ∧
          Tab.look 0 (u.cell c).err 2 = (if Tab.look 0 x.err 2 + 1 < 256 then Tab.look 0 x.err 2 + 1 else 255) ∧
          (u.cell c).errAddr = some (x.errAddr.getD (b % 4194304 / 8 * 8, 2))))) ∧
    (a.met.ue = none →
    (∀ (r : Fin 32) dst, let o : UnitOp := { unit := 3, cost := 2 }
      ready o (cellWord a false 0x41 [(16, 5, r.val), (40, 26, addrCode dst)]) → x.misaligned dst 256 = false →
      x.sealedRange (x.ea dst) 512 none = false →
      exec (.vst a r dst) s = done o (fun y => y.write (x.ea dst) ((List.range 64).flatMap (fun l => leBytes 8 (x.lane r.val l).toNat)))) ∧
    (∀ (d p q f : Fin 32) (pr : Bool) (m : Fin 16) (u : Bool) (v : Word64),
      let o : UnitOp := { unit := 3, cost := if f.val = 16 ∨ f.val = 17 then 2 else 1, lat := if f.val ≤ 14 then 2 else if 23 ≤ f.val then 4 else 6 }
      ready o (cellWord a false 0x42 [(16, 5, d.val), (21, 5, p.val), (26, 5, q.val),
        (31, 5, f.val), (36, 1, b2n pr), (37, 4, m.val), (41, 1, b2n u), (42, 64, v.toNat)]) →
      let e := Tab.look ({} : Modulus) x.modulus m.val
      (18 ≤ f.val → f.val ≤ 22 → e.valid = false → exec (.vop a d p q f pr m u v) s = failed o .instrIllegal 1) ∧
      ((18 ≤ f.val ∧ f.val ≤ 22 → e.valid = true) → exec (.vop a d p q f pr m u v) s = done o (fun y => y.setLanes d.val (fun l =>
        laneVop f.val pr e v.toNat (x.lane p.val l).toNat (if u then v.toNat else (x.lane q.val l).toNat) (x.lane d.val l).toNat)))) ∧
    (∀ (d p i : Fin 32), let o : UnitOp := { unit := 3, cost := 2, lat := 4 }
      ready o (cellWord a false 0x43 [(16, 5, d.val), (21, 5, p.val), (26, 5, i.val)]) →
      exec (.vperm a d p i) s = done o (fun y => y.setVreg d.val (fun l => x.lane p.val ((x.lane i.val l).toNat % 64)))) ∧
    (∀ (d p : Fin 32) (f : Fin 4) (pr : Bool), let o : UnitOp := { unit := 3, cost := 6, lat := 12 }
      ready o (cellWord a false 0x44 [(16, 5, d.val), (21, 5, p.val), (26, 2, f.val), (28, 1, b2n pr)]) →
      exec (.vred a d p f pr) s = done o (fun y => y.setVreg d.val (fun l => if l = 0 then BitVec.ofNat 64 (
        let v := (List.range 64).map (fun i => (x.lane p.val i).toNat)
        if pr then reduce f.val 32 (v.map (· % 4294967296)) + reduce f.val 32 (v.map (· / 4294967296)) * 4294967296 else reduce f.val 64 v) else 0))) ∧
    (∀ (d : Fin 32) (r : Fin 16), let o : UnitOp := { unit := 3, cost := 1, lat := 12 }
      ready o (cellWord a false 0x45 [(16, 5, d.val), (21, 4, r.val)]) →
      exec (.vbcast a d r) s = done o (fun y => y.setVreg d.val (fun _ => x.sreg r.val))) ∧
    (∀ (v : Bool) (d : Fin 32), let o : UnitOp := { unit := 3, cost := 2, lat := 12 }
      ready o (cellWord a v 0x46 [(16, 5, d.val)]) → ∃ (u : State) (r : Nat), exec (.vrand a v d) s = .next ((u.settle (on o) c o a.met).completeInstr a) ∧
      (r, ((on o).drbg (s.cellTenant c)).2) = (on o).drbg (s.cellTenant c) ∧ (∀ l, l < 64 → (u.cell c).lane d.val l = BitVec.ofNat 64 (r / 2 ^ (64 * l))) ∧
      (∀ k, k ≠ c → u.cell k = s.cell k) ∧ u.mem = s.mem ∧ u.hif = s.hif) ∧
    (∀ src dst n (tr : Bool), let o : UnitOp :=
        { unit := 3, cost := if tr then 2 * n else n, steps := if tr then (n + 127) / 128 else (n + 255) / 256, sram := true }
      ready o (cellWord a false 0x50 [(40, 26, addrCode src), (66, 26, addrCode dst), (92, 15, n), (107, 1, b2n tr)]) →
      let al := if tr then 4096 else 256
      let lap := (x.ea dst + 4194304 - x.ea src) % 4194304 < n * 256 ∨ (x.ea src + 4194304 - x.ea dst) % 4194304 < n * 256
      x.misaligned src al = false → x.misaligned dst al = false →
      (lap → exec (.move a src dst n tr) s = failed o .instrIllegal 6) ∧
      (¬ lap → x.sealedRange (x.ea src) (n * 256) none = false → x.sealedRange (x.ea dst) (n * 256) none = false →
        exec (.move a src dst n tr) s = done o (fun y =>
          if tr then y.copyUnits seen (x.ea src) (x.ea dst) 4096 transposed (n / 16) else y.copyUnits seen (x.ea src) (x.ea dst) 256 id n))))

/-- The accumulation and array instructions (R128 to R130, R135, R140, R158, R181, R187 to R189, R220, R225): with the group open, its modulus entry
valid, the tile and slots within its shape and the operands aligned and not sealed, GOPEN opens the group that its descriptor describes, MMA, EWADD and
MASK add into their slots, ACCLD and ACCST move slots, and GCLOSE writes the tiles and the record and frees the group; a group that is not open ends the
program with INSTR_ILLEGAL, detail 2, an uncorrectable accumulator error with MEM_UE, counted. -/
def Obligations.AccumulationInstructionsRun : Prop :=
  ∀ (s : State) (a : CellAt) (g t : Fin 32), s.beginDue (s.cellGroup a.cell.val) = s → a.met.cut = none →
    let c := a.cell.val
    let x := s.cell c
    let seen := x.seen a.met
    let on (o : UnitOp) : State := s.updCell c fun y => y.addWork o.unit o.cost o.lat
    let ready (o : UnitOp) (w : InstrWord) : Prop := s.issues c w (min o.cost 256) = true
    let ends (o : UnitOp) (u : State) : Host.Outcome State Fault Refusal := .next ((u.settle (on o) c o a.met).completeInstr a)
    let failed (o : UnitOp) (st : Status) (k : Nat) : Host.Outcome State Fault Refusal :=
      .next (((on o).updCell c fun y => { y with work := wrapAdd 64 x.work 1 }).failCell c x.pc st o.unit k)
    let G := x.group g.val
    let own := if G.sealed then some G.round else none
    let sourceReadable : Prop := G.windowOpen = true →
      s.mapped G.owner G.termSource G.termLength = true ∧ s.allPages G.owner G.termSource G.termLength (fun p => !p.broken) = true
    let source := fun i => s.vaByte G.owner (G.termSource + i) [] 0
    let slotCost := G.slotBytes / 256
    (∀ (f : Fin 16) n dst m, let o : UnitOp :=
        { unit := 2, cost := n * slotCost, steps := (n + 256 / slotCost - 1) / (256 / slotCost), port := 1, acc := true }
      ready o (cellWord a false 0x23 [(16, 5, g.val), (21, 5, t.val), (26, 4, f.val), (30, 5, n), (40, 26, addrCode dst)]) →
      x.misaligned dst 256 = false → G.isOpen = true → t.val < G.tiles → f.val + n ≤ G.slots → x.storeForbidden G (x.ea dst) (n * G.slotBytes) = false →
      (a.met.ue = none → exec (.accst a g t f n dst) s = ends o ((on o).updCell c fun y => y.storeBytes G (x.ea dst)
        ((List.range n).flatMap (fun i => x.planeBytes G t.val (f.val + i))))) ∧
      (a.met.ue = some (m, .acc) → m < o.steps → ∃ u : State, exec (.accst a g t f n dst) s = .next (u.failCell c x.pc .memUe 2 0) ∧
        Tab.look 0 (u.cell c).err 3 = (if Tab.look 0 x.err 3 + 1 < 256 then Tab.look 0 x.err 3 + 1 else 255) ∧ u.mem = s.mem ∧ u.hif = s.hif)) ∧
    (a.met.ue = none →
    (∀ d, let o : UnitOp := { unit := 2, cost := 32, port := 1, sram := true }
      ready o (cellWord a false 0x20 [(40, 26, addrCode d)]) → x.misaligned d 32 = false → x.sealedRange (x.ea d) 32 none = false →
      let gd := parseGroup (seen.read (x.ea d) 32)
      (∀ f, (on o).openGroup c gd = .error f → exec (.gopen a d) s =
        .next ((f.at_.updCell c fun y => { y with work := wrapAdd 64 x.work f.cycles }).failCell c x.pc f.why.1 2 f.why.2)) ∧
      (∀ u, (on o).openGroup c gd = .ok u → exec (.gopen a d) s = ends o u ∧
        ∃ h, x.admitCond gd = some h ∧ (u.cell c).group gd.group = gd.opened (s.cellTenant c) h)) ∧
    (∀ (f : Fin 16) n src, let o : UnitOp :=
        { unit := 2, cost := n * slotCost, steps := (n + 256 / slotCost - 1) / (256 / slotCost), port := 1, sram := true }
      ready o (cellWord a false 0x22 [(16, 5, g.val), (21, 5, t.val), (26, 4, f.val), (30, 5, n), (40, 26, addrCode src)]) →
      x.misaligned src 256 = false →
      (G.isOpen = false → exec (.accld a g t f n src) s = failed o .instrIllegal 2) ∧
      (G.isOpen = true → t.val < G.tiles → f.val + n ≤ G.slots → x.sealedRange (x.ea src) (n * G.slotBytes) own = false →
        exec (.accld a g t f n src) s = ends o (((on o).updCell c fun y => ((List.range n).foldl (fun y i =>
          y.mapPlane G.whole (G.half t.val (f.val + i)) (fun p _ => numberAt seen.byteAt (x.ea src + i * G.slotBytes + p * G.elemBytes) G.elemBytes)) y).setGroup
            g.val { G with windowOpen := false, steps := [] }).unlockIfShut c G g.val))) ∧
    (∀ (sl m : Fin 16) (ct : Bool) p q k,
      let n := if packedMode m.val then k * 32 else k * 32 * modeWidth m.val
      let per := if packedMode m.val then 1024 else if m = 2 then 64 else 256
      let o : UnitOp := { unit := 1, cost := mmaCost m.val k, lat := if G.format = 3 then 7 else if m = 2 then 8 else 5, steps := (k + per - 1) / per,
                          port := 0, acc := true, sram := true }
      ready o (cellWord a false 0x30 [(16, 5, g.val), (21, 5, t.val), (26, 4, sl.val), (30, 4, m.val), (34, 1, b2n ct),
        (40, 26, addrCode p), (66, 26, addrCode q), (92, 12, k - 1)]) →
      let kinds := (modeKinds m.val).getD (.u8, .u8)
      let av := fun i j => kinds.1.value seen.byteAt (x.ea p + (if ct then operandOffsetCt i j else operandOffset m.val i j))
      let bv := fun i j => kinds.2.value seen.byteAt (x.ea q + operandOffset m.val i j)
      x.misaligned p (if ct then 4096 else 64) = false → x.misaligned q 64 = false → G.isOpen = true → modeAdmits m.val G.format = true → x.modulusOk G = true →
      t.val < G.tiles → sl.val < G.outputs → (G.topk = true → Tab.look 0 G.terms (16 * t.val + sl.val) + k < 4294967296) →
      x.sealedRange (x.ea p) (if ct then (k + 31) / 32 * 4096 else n) none = false → x.sealedRange (x.ea q) n none = false →
      (G.format ≠ 3 → exec (.mma a g t sl m ct p q k) s = ends o ((on o).updCell c fun y => y.mmaModular g.val t.val sl.val m.val k av bv)) ∧
      (G.format = 3 → sourceReadable → exec (.mma a g t sl m ct p q k) s = ends o (((on o).updCell c fun y =>
        y.mmaFx g.val { mode := m.val, tile := t.val, slot := sl.val, k := k, aCt := ct } av bv source).unlockIfShut c G g.val))) ∧
    (∀ (f : Fin 16) n (sub : Bool) src, let per := 256 / (4 * G.elemBytes)
      let o : UnitOp := { unit := 1, cost := n * (4 * G.elemBytes), lat := 5, steps := (n + per - 1) / per, port := 0, acc := true, sram := true }
      ready o (cellWord a false 0x31 [(16, 5, g.val), (21, 5, t.val), (26, 4, f.val), (30, 5, n), (35, 1, b2n sub), (40, 26, addrCode src)]) →
      x.misaligned src 256 = false → G.isOpen = true → G.format ≠ 3 → x.modulusOk G = true → t.val < G.tiles → 1 ≤ n → f.val + n ≤ G.outputs →
      x.sealedRange (x.ea src) (n * 1024 * G.elemBytes) own = false →
      exec (.ewadd a g t f n sub src) s = ends o ((on o).updCell c fun y => y.elementwise g.val t.val f.val sub
        (fun i p => numberAt seen.byteAt (x.ea src + (i * 1024 + p) * G.elemBytes) G.elemBytes) n)) ∧
    (∀ (f : Fin 16) n (sub : Bool) (i : Fin 4) b, let o : UnitOp := { unit := 1, cost := n * (32 * G.elemBytes), lat := 5, steps := n, port := 0, acc := true }
      ready o (cellWord a false 0x32 [(16, 5, g.val), (21, 5, t.val), (26, 4, f.val), (30, 5, n), (35, 1, b2n sub), (36, 2, i.val)]) →
      s.streamSlot c i.val (32 * G.elemBytes) = true → x.stream i.val = some b → s.ownsSlot .maskExpander (c / 2) (s.cellTenant c) = true →
      G.isOpen = true → G.format ≠ 3 → x.modulusOk G = true → t.val < G.tiles → 1 ≤ n → f.val + n ≤ G.outputs →
      exec (.mask a g t f n sub i) s = ends o ((on o).updCell c fun y => y.elementwise g.val t.val f.val sub
        (fun j p => b.elements.getD ((t.val * G.outputs + f.val + j) * 1024 + p) 0 % 2 ^ (8 * G.elemBytes)) n)) ∧
    (∀ (out : Fin 4) (fu : Fin 8) (sl : Fin 4) dst rec op (sc : Word32),
      let tile := fu = 1 ∨ fu = 2
      let steps := if 4 ≤ fu.val then G.tiles * G.outputs else (G.closeCost out.val fu.val + 255) / 256
      let o : UnitOp := { unit := 2, cost := G.closeCost out.val fu.val, steps := steps, port := 1, acc := true, sram := decide tile }
      ready o (cellWord a false 0x21 ([(16, 5, g.val), (21, 2, out.val), (23, 3, fu.val), (26, 2, sl.val), (40, 26, addrCode dst), (66, 26, addrCode rec)] ++
        (if fu = 1 ∨ fu = 2 then [(92, 26, addrCode op)] else if fu = 3 then [(92, 32, sc.toNat)] else []))) →
      x.misaligned dst 256 = false → x.misaligned rec 16 = false → (tile → x.misaligned op 256 = false) →
      (4 ≤ fu.val → s.streamSlot c sl.val (32 * G.elemBytes) = true ∧ (x.stream sl.val).isSome = true ∧
        s.ownsSlot .maskExpander (c / 2) (s.cellTenant c) = true) →
      (G.isOpen = false → exec (.gclose a g out fu sl dst rec op sc) s = failed o .instrIllegal 2) ∧
      (G.isOpen = true → G.sealed = true → out ≠ 0 → exec (.gclose a g out fu sl dst rec op sc) s = failed o .rights 0) ∧
      (G.isOpen = true → out.val ≤ 2 → (out.val ≠ 0 → G.format = 3) → G.fusedOk fu.val = true → x.modulusOk G = true → (G.sealed = true → out = 0) →
        sourceReadable → x.storeForbidden G (x.ea dst) (G.closeBytes out.val) = false → x.storeForbidden G (x.ea rec) 16 = false →
        (tile → x.sealedRange (x.ea op) (G.operandSize fu.val) none = false) →
        exec (.gclose a g out fu sl dst rec op sc) s = ends o (((on o).updCell c fun y =>
          (y.fuse g.val fu.val (seen.fusedOperand G fu.val (x.ea op) sc (match x.stream sl.val with | some b => b.elements | none => [])) source).closeGroup
            g.val out.val (x.ea dst) (x.ea rec)).unlockIfShut c G g.val) ∧
        (x.closeGroup g.val out.val (x.ea dst) (x.ea rec)).group g.val = {})))

/-- What a term does that would leave the FX64 range (R169, R173 to R176): it is placed where it fits; past the range, while the repeat window is
open and fewer than three repeats have been made, the group starts again from zero at E plus 8; with the window shut every sum is shifted right by 8,
E rises by 8, and the term is tried again; where neither may be done the group is saturated and the sum clamped. What a modular step leaves (R128,
R136, R154, R156): of the slot that it names each PE's register holds its old residue plus the amount, modulo 2^32, 2^64 or q, and the slot counts
its terms; every other register of the accumulator file, and SRAM, stand as before. SRAM bytes written read back, and no others change (R141). What an
instruction meets (R140, R142, R144, R153): corrected errors of what it reads count and change nothing; a word in which an earlier port's write of the
same work cycle stands keeps that write, and each discarded write counts. Which errors and writes meet it the sender says (notes/assumptions/45.md). -/
def Obligations.SumsAreModularOrRescaledAndWritesReadBack : Prop :=
  (∀ (x : Cell) (gi pos n : Nat) (val : Cell → Int → FxOut → Int) (o : FxOut), (x.group gi).topk = false →
    let g := x.group gi
    let v := val x g.e o
    let sat := x.setGroup gi { g with saturated := true }
    let up := (x.fxShift g (fun _ => 0)).setGroup gi { g with e := g.e + 8, inplace := satAdd 8 g.inplace 1 }
    ((-9223372036854775808 ≤ v ∧ v < 9223372036854775808) → Cell.fxTerm gi pos val (n + 2) [o] x = (x.fxSet o v, false)) ∧
    ((v < -9223372036854775808 ∨ 9223372036854775808 ≤ v) →
      (g.saturated = true → Cell.fxTerm gi pos val (n + 2) [o] x =
        (x.fxSet o (if v < 0 then -9223372036854775808 else 9223372036854775807), false)) ∧
      (g.saturated = false → g.windowOpen = true → g.repeats < 3 → g.e + 8 ≤ 511 → Cell.fxTerm gi pos val (n + 2) [o] x =
        ((x.zeroGroup g).setGroup gi { g with e := g.e + 8, repeats := g.repeats + 1, terms := [], operandBytes := 0 }, true)) ∧
      (g.saturated = false → (g.windowOpen = true ∧ 3 ≤ g.repeats) ∨ 511 < g.e + 8 → (∀ y e, val y e o = v) →
        Cell.fxTerm gi pos val (n + 2) [o] x = (sat.fxSet o (if v < 0 then -9223372036854775808 else 9223372036854775807), false)) ∧
      (g.saturated = false → g.windowOpen = false → g.e + 8 ≤ 511 →
        Cell.fxTerm gi pos val (n + 2) [o] x = Cell.fxTerm gi pos val (n + 1) [o] up))) ∧
  ((∀ (x : Cell) (gi tile slot terms : Nat) (add : Nat → Int), let g := x.group gi
    let m := x.groupModulus g
    let h := g.half tile slot
    0 < m → m ≤ (if g.whole then 18446744073709551616 else 4294967296) →
    (∀ p, p < 1024 → ((x.addModular gi tile slot terms add).accGet g.whole h p : Int) =
      ((residue m g.format (x.accGet g.whole h p) : Int) + add p) % m) ∧
    (∀ w j p, p < 1024 → j / 2 ≠ h / 2 → (x.addModular gi tile slot terms add).accGet w j p = x.accGet w j p) ∧
    (g.whole = false → ∀ j p, j / 2 = h / 2 → j ≠ h → p < 1024 → (x.addModular gi tile slot terms add).accGet false j p = x.accGet false j p) ∧
    Tab.look 0 ((x.addModular gi tile slot terms add).group gi).terms (16 * tile + slot) = Tab.look 0 g.terms (16 * tile + slot) + terms ∧
    (x.addModular gi tile slot terms add).sram = x.sram) ∧
  (∀ (x : Cell) (a : Nat) (bs : List Byte), a < 4194304 → bs.length ≤ 4194304 →
    (∀ i, i < bs.length → Tab.look 0 (x.write a bs).sram ((a + i) % 4194304) = bs.getD i 0) ∧
    (∀ b, b < 4194304 → (∀ i, i < bs.length → (a + i) % 4194304 ≠ b) → Tab.look 0 (x.write a bs).sram b = Tab.look 0 x.sram b) ∧
    (x.write a bs).acc = x.acc ∧ (x.write a bs).vregs = x.vregs ∧ (x.write a bs).seals = x.seals)) ∧
  (∀ (s b : State) (c : Nat) (o : UnitOp) (m : Met), o.target = none →
    let x := s.cell c
    let u := (s.settle b c o m).cell c
    let count := fun (l : Tab Nat) (f n : Nat) => if n = 0 then Tab.look 0 l f else min 65535 (Tab.look 0 l f + n)
    let lost := if o.port ≤ 1 then [] else m.lost
    Tab.look 0 u.err 0 = count x.err 0 (if o.sram then m.sramCe else 0) ∧ Tab.look 0 u.err 1 = count x.err 1 (if o.acc then m.accCe else 0) ∧
    (∀ f, 2 ≤ f → Tab.look 0 u.err f = Tab.look 0 x.err f) ∧
    Tab.look 0 u.arith 3 = count x.arith 3 (lost.length + m.beaten) ∧ (∀ f, f ≠ 3 → Tab.look 0 u.arith f = Tab.look 0 x.arith f) ∧
    (∀ k, k < 4194304 → Tab.look 0 u.sram k = if (lost.any fun w => w % 524288 == k / 8) then Tab.look 0 (b.cell c).sram k else Tab.look 0 x.sram k) ∧
    u.acc = x.acc ∧ u.vregs = x.vregs ∧ u.errAddr = x.errAddr ∧ (∀ k, k ≠ c → (s.settle b c o m).cell k = s.cell k))

/-- The modulus constants and the Montgomery product (R134, R136): for every odd q from 3 to below 2^31, QINV is the negative inverse of q modulo
2^32, RSQ is 2^64 modulo q, and the product of two residues is the residue that times 2^32 gives their product modulo q, in every PE and in every
vector lane; a modular addition returns a + b, less q where that is not below q. -/
def Obligations.MontgomeryProductIsExact : Prop :=
  ∀ q : Nat, q % 2 = 1 → 3 ≤ q → q < 2147483648 →
    (q * qinvOf q) % 4294967296 = 4294967295 ∧ rsqOf q = 18446744073709551616 % q ∧
    ∀ a b, a < q → b < q → montMul a b q (qinvOf q) < q ∧ (montMul a b q (qinvOf q) * 4294967296) % q = a * b % q ∧
      montMul a (rsqOf q) q (qinvOf q) = a * 4294967296 % q ∧
      (∀ (w d : Nat) (imm : Nat), w = 32 ∨ w = 64 → let e : Modulus := { q := q, valid := true, qinv := qinvOf q, rsq := rsqOf q }
        (laneOp 20 w e imm a b d).v = montMul a b q (qinvOf q) ∧ (laneOp 18 w e imm a b d).v = if q ≤ a + b then a + b - q else a + b) ∧
      (∀ (x : Cell) (gi tile slot p : Nat) (av bv : Nat → Nat → Option Exact), let g := x.group gi
        let e := Tab.look ({} : Modulus) x.modulus g.modulus
        let h := g.half tile slot
        g.format = 2 → e.q = q → e.qinv = qinvOf q → p < 1024 → av (p / 32) 0 = some ((a : Int), 0) → bv (p % 32) 0 = some ((b : Int), 0) → x.accGet false h p < q →
        let r := x.accGet false h p + montMul a b q (qinvOf q)
        (x.mmaModular gi tile slot 0 1 av bv).accGet false h p = if q ≤ r then r - q else r)

/-- SEND and FEED, the clear and the modulus table (R126, R134, R150, R190, R223, R226): a SEND along the cell's own route, owned by its tenant,
writes the destination cell's SRAM and counts the links and the errors that these correct; an uncorrectable error of a link or of its source ends it
with MEM_UE after the beats before, and one that is cut off raises no token (R144, R149, R204); a FEED of a descriptor in order joins its engine's queue
while it has room and holds the program otherwise; the clear leaves SRAM, registers, groups, tokens, seals and the store zero and unlocks the term
source of an open window; a sealed clear zeroes the round's blocks; a legal q is computed and then valid, any other write is discarded. -/
def Obligations.SendFeedClearAndModulus : Prop :=
  (∀ (s : State) (a : CellAt) (r : Fin 256) (ds : Bool) (dt : Fin 64) (src dst : AddrOp) (n : Nat) (route : JigRoute),
    let c := a.cell.val
    let w := cellWord a false 0x51 [(16, 8, r.val), (24, 1, if ds then 1 else 0), (25, 6, dt.val), (40, 26, addrCode src), (66, 26, addrCode dst), (92, 16, n)]
    let x := s.cell c
    let cost := n + 6 + 2 * route.hops
    let o : UnitOp := { unit := 4, cost := cost, steps := n, port := 3, sram := true, target := some route.dst }
    let on : State := s.updCell c fun x => x.addWork 4 cost 0
    let put := fun (k : Nat) => ((on.updCell route.dst fun y => y.write (x.ea dst) ((x.seen a.met).read (x.ea src) (64 * k))).countLinks
      r.val (64 * k) route.links).linkErrors route a.met.linkCe
    let dead := fun (u : State) (k : Nat) => (u.updCell c fun y => { y with work := wrapAdd 64 x.work k }).failCell c x.pc .memUe 4 0
    s.beginDue (s.cellGroup c) = s → s.issues c w (min cost 256) = true → s.meshRoute r.val = some route → route.src = c →
    s.ownsSlot .meshRoute r.val (s.cellTenant c) = true → s.mayIssue (s.cellTenant c) .meshRoute r.val = true →
    min n (250 - 2 * route.hops) + 6 + 2 * route.hops ≤ s.runCycles .meshRoute r.val (s.cellTenant c) →
    x.misaligned src 64 = false → x.misaligned dst 64 = false → x.sealedRange (x.ea src) (64 * n) none = false →
    (s.cell route.dst).sealedRange (x.ea dst) (64 * n) none = false →
    (a.met.ue = none → a.met.cut = none →
      exec (.send a r ds dt src dst n) s = .next (((if ds then (put n).signalToken route.dst dt.val 1 else put n).settle on c o a.met).completeInstr a)) ∧
    (∀ k h, a.met.ue = some (k, .link h) → k < n → h < route.hops → a.met.cut = none → exec (.send a r ds dt src dst n) s =
      .next (dead ((put k).updCell (match route.links[h + 1]? with | some l => l.1 | none => route.dst) fun y => y.countErr 5 1) (k + 1))) ∧
    (∀ k b, a.met.ue = some (k, .sram b) → k < n → exec (.send a r ds dt src dst n) s =
      .next (dead (((if k = 0 then on else put k).settle on c o a.met).updCell c fun y => y.sramError b 3) ((cost * (k + 1) + n - 1) / n))) ∧
    (∀ k, a.met.ue = none → a.met.cut = some k → 0 < k → k < n →
      exec (.send a r ds dt src dst n) s = .next (((put k).settle on c o a.met).passInstr a))) ∧
  (∀ (s : State) (a : CellAt) (v : Bool) (e : EngineId) (d : AddrOp),
    let c := a.cell.val
    let x := s.cell c
    let w := cellWord a v 0x52 [(16, 5, e.val), (40, 26, addrCode d)]
    let desc := parseDesc ((x.seen a.met).read (x.ea d) 64)
    let on : State := s.updCell c fun x => x.addWork 4 1 0
    let u := on.settle on c { unit := 4, cost := 1, port := 4, sram := true } { a.met with lost := [], beaten := 0 }
    s.beginDue (s.cellGroup c) = s → s.issues c w 1 = true → x.misaligned d 64 = false → s.dmaFeeds e.val = s.cellGroup c →
    s.ownsSlot .dma e.val (s.cellTenant c) = true → x.sealedRange (x.ea d) 64 none = false → a.met.ue = none → desc.v = v →
    (x.feedsOn e.val < 16 → exec (.feed a v e d) s = .next ((u.postFeed c e.val desc (a.sig.map (·.val))).goTo c (x.pc + 1))) ∧
    (16 ≤ x.feedsOn e.val → exec (.feed a v e d) s = .next (u.updCell c fun x => { x with
      waiting := .feedQueue e.val desc (a.sig.map (·.val)), waitTurns := 0 }))) ∧
  (∀ (s : State) (c : CellId), (s.cell c.val).clearing = true →
    ∃ u, exec (.cellClear c) s = .next u ∧ (u.cell c.val).sram = [] ∧ (u.cell c.val).acc = [] ∧ (u.cell c.val).groups = [] ∧ (u.cell c.val).vregs = [] ∧
      (u.cell c.val).store = [] ∧ (u.cell c.val).modulus = [] ∧ (u.cell c.val).tokens = [] ∧ (u.cell c.val).seals = [] ∧ (u.cell c.val).clearing = false ∧
      (u.cell c.val).running = false ∧ (∀ k, k ≠ c.val → u.cell k = s.cell k) ∧ u.agg = s.agg ∧ u.hif = s.hif ∧
      ((∀ g, g < 32 → ((s.cell c.val).group g).windowOpen = false) → u.mem = s.mem) ∧
      (∀ g, g < 32 → ((s.cell c.val).group g).isOpen = true → ((s.cell c.val).group g).windowOpen = true →
        (∀ j, j < 32 → j ≠ g → ((s.cell c.val).group j).windowOpen = false) →
        let G := (s.cell c.val).group g
        u.mem = (s.lockPages G.owner G.termSource G.termLength false).mem)) ∧
  (∀ (s : State) (c : CellId) (h : Handle), c.val ∈ (s.round h.val).sealedCells → s.frozen = false →
    (s.cellGroup c.val = 0xFF ∨ s.inSlot .cellGroup (s.cellGroup c.val) (s.cellTenant c.val) = true) →
    ∃ u, exec (.sealedClear c h) s = .next u ∧ c.val ∉ (u.round h.val).sealedCells ∧
      (∀ d, d ≠ c.val → (d ∈ (u.round h.val).sealedCells ↔ d ∈ (s.round h.val).sealedCells)) ∧
      (∀ b, Tab.look 0 (s.cell c.val).seals (b / 4096) = h.val + 1 → Tab.look 0 (u.cell c.val).sram b = 0) ∧
      (∀ b, Tab.look 0 (s.cell c.val).seals (b / 4096) ≠ h.val + 1 → Tab.look 0 (u.cell c.val).sram b = Tab.look 0 (s.cell c.val).sram b) ∧
      (∀ j, j ≠ h.val → u.round j = s.round j) ∧ (∀ k, k ≠ c.val → u.cell k = s.cell k) ∧ u.mem = s.mem ∧ u.hif = s.hif) ∧
  (∀ (s : State) (c : CellId) (n : Fin 16) (v : Word64), s.sec.lifecycle ≠ .tampered →
    let q := v.toNat % 4294967296
    (q % 2 = 1 → 3 ≤ q → q < 2147483648 → (s.cell c.val).running = false → s.ringGroup (s.cellGroup c.val) = false →
      exec (.celModulusWrite 0 c n v) s = .next (s.updCell c.val fun x => { x with
        modulus := Tab.put {} x.modulus n.val { Tab.look {} x.modulus n.val with q := q, valid := false, busy := true } })) ∧
    ((q % 2 = 0 ∨ q < 3 ∨ 2147483648 ≤ q ∨ (s.cell c.val).running = true) →
      exec (.celModulusWrite 0 c n v) s = .next (s.discarded 0 (modulusOffset c.val n.val) v.toNat))) ∧
  (∀ (s : State) (c : CellId) (n : Fin 16), let e := Tab.look ({} : Modulus) (s.cell c.val).modulus n.val
    (e.busy = true → exec (.modulusConstantsReady c n) s = .next (s.updCell c.val fun x => { x with
      modulus := Tab.put {} x.modulus n.val { q := e.q, valid := true, busy := false, qinv := qinvOf e.q, rsq := rsqOf e.q } })) ∧
    (e.busy = false → exec (.modulusConstantsReady c n) s = .next s))

/-- Regions (R435, R436, R439, R440): a block that passes the checks registers its index, the lowest free one where it asks for none, under the
generation after its last, and the key comes back in RESULT0; a REMOTE_ACC region starts with every operation bit clear. A rekey raises the
generation and clears the bits, past 4,095 it is refused with KEY_SPENT; a deregistration frees the index. A key of no region is KEY_ABSENT, another
tenant's RIGHTS, an old one KEY_STALE. -/
def Obligations.RegionsAreRegisteredRekeyedAndReleased : Prop :=
  (∀ (s : State) (c : Cmd), s.accepts 0x20 c = true →
    (c.len ≠ 64 → exec (.regionRegister c) s = s.refuses c .bounds) ∧
    (c.len = 64 → s.blockFail (cmdActs c) c.addr 64 (fun p => p.r) = none →
      let t := cmdActs c
      let b := s.readVA t c.addr 64 c.host
      let r := (parseRegion t b).1
      let i := (parseRegion t b).2
      let acc := bitAt r.rights 1
      let pagesOk := s.allPages t r.va r.length (fun p => p.w && !p.sealed_ && (!acc || p.acc))
      (s.regionFieldsOk r i b = false → exec (.regionRegister c) s = s.refuses c .bounds) ∧
      (s.regionFieldsOk r i b = true → s.mapped t r.va r.length = false → exec (.regionRegister c) s = s.refuses c .xlateFault) ∧
      (s.regionFieldsOk r i b = true → s.mapped t r.va r.length = true → pagesOk = false → exec (.regionRegister c) s = s.refuses c .rights) ∧
      (s.regionFieldsOk r i b = true → s.mapped t r.va r.length = true → pagesOk = true →
        (i ≠ 1048575 → 4096 ≤ s.generations i → s.region i = none → exec (.regionRegister c) s = s.refuses c .keySpent) ∧
        (i ≠ 1048575 → (s.region i).isSome = true → exec (.regionRegister c) s = s.refuses c .quotaExceeded) ∧
        (∀ j, (i ≠ 1048575 → j = i ∧ s.region i = none ∧ s.generations i < 4096) →
          (i = 1048575 → j < 1048575 ∧ s.region j = none ∧ s.generations j < 4096 ∧ ∀ n, n < j → (s.region n).isSome = true ∨ 4096 ≤ s.generations n) →
          s.fab.regions.length < 65536 → (acc = true → s.opmapUsed + r.ops * 32 ≤ 1073741824) →
          exec (.regionRegister c) s = .next ((s.updFab fun x => { x with
            regions := x.regions ++ [(j, r)], regionGen := Tab.put 0 x.regionGen j (s.generations j + 1) }).complete c .ok (j * 4096 + s.generations j) 0 0) ∧
          r.applied = [])))) ∧
  (∀ (s : State) (c : Cmd) (r : Region), s.accepts 0x21 c = true → s.region (c.a0 / 4096) = some r → r.tenant = cmdActs c →
    c.a0 % 4096 + 1 = s.generations (c.a0 / 4096) →
    exec (.regionDeregister c) s = .next ((s.updFab fun x => { x with regions := x.regions.filter (fun y => y.1 != c.a0 / 4096) }).ok c)) ∧
  (∀ (s : State) (c : Cmd) (r : Region), s.accepts 0x22 c = true → s.region (c.a0 / 4096) = some r → r.tenant = cmdActs c →
    c.a0 % 4096 + 1 = s.generations (c.a0 / 4096) →
    (4096 ≤ s.generations (c.a0 / 4096) → exec (.regionRekey c) s = s.refuses c .keySpent) ∧
    (s.generations (c.a0 / 4096) < 4096 → exec (.regionRekey c) s = .next (((s.updRegion (c.a0 / 4096) fun r => { r with applied := [] }).updFab fun x => { x with
      regionGen := Tab.put 0 x.regionGen (c.a0 / 4096) (s.generations (c.a0 / 4096) + 1) }).complete c .ok (c.a0 + 1) 0 0))) ∧
  (∀ (s : State) (c : Cmd) (op : Nat) (i : Instr), ((op = 0x21 ∧ i = .regionDeregister c) ∨ (op = 0x22 ∧ i = .regionRekey c)) → s.accepts op c = true →
    (s.region (c.a0 / 4096) = none → exec i s = s.refuses c .keyAbsent) ∧
    (∀ r, s.region (c.a0 / 4096) = some r → (r.tenant ≠ cmdActs c → exec i s = s.refuses c .rights) ∧
      (r.tenant = cmdActs c → c.a0 % 4096 + 1 ≠ s.generations (c.a0 / 4096) → exec i s = s.refuses c .keyStale)))

/-- Endpoints (R442, R445, R447): a create takes the lowest context, resident while fewer than 1,024 are and parked otherwise; a park stops the
endpoint, discards its reassemblies (their buffers serve the next messages) and completes once nothing that it sent is open; an unpark makes it
resident again, QUOTA_EXCEEDED while 1,024 are. A doorbell moves its own queue index of a resident endpoint; a parked one discards it. -/
def Obligations.EndpointsAreCreatedParkedAndRung : Prop :=
  (∀ (s : State) (c : Cmd), s.accepts 0x28 c = true →
    (c.len ≠ 64 → exec (.endpointCreate c) s = s.refuses c .bounds) ∧
    (c.len = 64 → s.blockFail (cmdActs c) c.addr 64 (fun p => p.r) = none →
      let b := s.readVA (cmdActs c) c.addr 64 c.host
      let e := parseEndpoint (cmdActs c) b
      let base := fun (a : Nat) => a % 64 = 0 ∧ a < 281474976710656
      let sized := fun (lo hi n : Nat) => lo ≤ n ∧ n ≤ hi ∧ ∃ k, n = 2 ^ k
      let good := base e.sqBase ∧ base e.rqBase ∧ base e.cqBase ∧ sized 16 4096 e.sqSize ∧ sized 16 4096 e.rqSize ∧
        sized (e.sqSize + e.rqSize) 8192 e.cqSize ∧ zeroAt b 30 34 = true
      (¬good → exec (.endpointCreate c) s = s.refuses c .bounds) ∧
      (good → (∀ i, i < 8192 → (s.ep i).state ≠ 0) → exec (.endpointCreate c) s = s.refuses c .quotaExceeded) ∧
      (∀ i, good → i < 8192 → (s.ep i).state = 0 → (∀ j, j < i → (s.ep j).state ≠ 0) →
        (s.residents < 1024 → exec (.endpointCreate c) s = .next ((s.setEp i { e with state := 1 }).complete c .ok i 0 0)) ∧
        (1024 ≤ s.residents → exec (.endpointCreate c) s = .next ((s.setEp i { e with state := 2 }).complete c .ok (i + 65536) 0 0))))) ∧
  (∀ (s : State) (c : Cmd), c.a0 ≤ 8191 → (s.ep c.a0).state ≠ 0 → (s.ep c.a0).tenant = cmdActs c →
    let e := s.ep c.a0
    (s.accepts 0x29 c = true → e.state = 1 →
      let stopped : Endpoint := { e with state := 3, spare := e.spare ++ e.reasm.map (fun r => r.entry), reasm := [], parkCmd := some c }
      (e.sends = [] → e.pushes = [] → exec (.endpointPark c) s = .next (((s.setEp c.a0 stopped).setEp c.a0 { stopped with state := 2, parkCmd := none }).ok c)) ∧
      ((e.sends ≠ [] ∨ e.pushes ≠ []) → exec (.endpointPark c) s = .next (s.setEp c.a0 stopped))) ∧
    (s.accepts 0x29 c = true → e.state = 2 → exec (.endpointPark c) s = .next (s.ok c)) ∧
    (s.accepts 0x2A c = true → e.state = 2 → s.residents < 1024 → exec (.endpointUnpark c) s = .next ((s.setEp c.a0 { e with state := 1 }).ok c)) ∧
    (s.accepts 0x2A c = true → e.state = 2 → 1024 ≤ s.residents → exec (.endpointUnpark c) s = s.refuses c .quotaExceeded)) ∧
  (∀ (s : State) (c : Cmd) (op : Nat) (i : Instr), ((op = 0x29 ∧ i = .endpointPark c) ∨ (op = 0x2A ∧ i = .endpointUnpark c)) → s.accepts op c = true →
    (8191 < c.a0 → exec i s = s.refuses c .bounds) ∧
    (c.a0 ≤ 8191 → ((s.ep c.a0).state = 0 ∨ (s.ep c.a0).tenant ≠ cmdActs c) → exec i s = s.refuses c .rights)) ∧
  (∀ (s : State) (fn : FnId) (ep : EpId) (v : Nat), s.sec.lifecycle ≠ .tampered →
    let x := s.ep ep.val
    (fn = 0 ∨ (x.tenant = fn.val ∧ x.state ≠ 0) → x.state = 1 →
      exec (.epSqTail fn ep v) s = .next (s.setEp ep.val { x with sqTail := v % 4096 % x.sqSize }) ∧
      exec (.epRqTail fn ep v) s = .next (s.setEp ep.val { x with rqTail := v % 4096 % x.rqSize }) ∧
      exec (.epCqHead fn ep v) s = .next (s.setEp ep.val { x with cqHead := v % 8192 % x.cqSize })) ∧
    (fn = 0 ∨ (x.tenant = fn.val ∧ x.state ≠ 0) → x.state ≠ 1 →
      exec (.epSqTail fn ep v) s = .next s ∧ exec (.epRqTail fn ep v) s = .next s ∧ exec (.epCqHead fn ep v) s = .next s))

/-- Work requests (R443, R445, R449): a resident endpoint of a tenant that issues takes the request at its send queue's head; one that breaks a check
completes with that check's status and sends nothing: BOUNDS, INSTR_V_MISSING without V, INSTR_ILLEGAL for a PUSH or BCAST with V, XLATE_FAULT,
RIGHTS, MEM_UE, BUDGET without slots of its own on the way. One that passes is cut into packets of 4,096 bytes and sent within its window; a PUSH or
BCAST goes to each destination at once and waits for their answers. Sending a packet (R418, R424, R430): with its tenant issuing and granted the
port, budget enough and room in the replay buffer, a packet to a fabric port in service is charged against the tenant's budget there, counted in
FAB_PORT_TX, numbered and kept for replay, counted in its flow, and goes out last; without budget the tenant only waits for it. An ACK or NAK goes
out in a slot of the tenant that received the data, its header naming the packet (R426, R428); and a packet's header reads back as its fields. -/
def Obligations.WorkRequestsAreCheckedAndPacketsSent : Prop :=
  (∀ (s : State) (ep : EpId) (host : List Byte) (kind : Nat) (i : Instr),
    ((kind = 1 ∧ i = .wrSend ep host) ∨ (kind = 2 ∧ i = .wrWrite ep host) ∨ (kind = 3 ∧ i = .wrWriteNotify ep host) ∨ (kind = 4 ∧ i = .wrAccAdd ep host) ∨
      (kind = 0x10 ∧ i = .push ep host) ∨ (kind = 0x11 ∧ i = .bcast ep host)) →
    let x := s.ep ep.val
    let t := x.tenant
    let w := parseReq (s.readVA t (x.sqBase + 64 * x.sqHead) 64 host)
    let u := s.setEp ep.val { x with sqHead := (x.sqHead + 1) % x.sqSize, nextMsg := x.nextMsg + 1 }
    let pages := fun (p : Page → Bool) => s.allPages t w.localVa w.length p
    let refused (st : Status) : Prop := exec i s = .next (u.reqDone ep.val w st 0 x.nextMsg)
    (x.state ≠ 1 ∨ x.sqHead = x.sqTail ∨ s.issuing t = false → exec i s = .next s) ∧
    (x.state = 1 → x.sqHead ≠ x.sqTail → s.issuing t = true → w.kind = kind →
      (w.fieldsOk = false → refused .bounds) ∧
      (w.fieldsOk = true → kind ≤ 4 → w.flags % 2 = 0 → refused .instrVMissing) ∧
      (w.fieldsOk = true → 4 < kind → w.flags % 2 = 1 → refused .instrIllegal) ∧
      (w.fieldsOk = true → (kind ≤ 4 ↔ w.flags % 2 = 1) →
        (s.mapped t w.localVa w.length = false → refused .xlateFault) ∧
        (s.mapped t w.localVa w.length = true → pages (fun p => p.r && !p.sealed_) = false → refused .rights) ∧
        (s.mapped t w.localVa w.length = true → pages (fun p => p.r && !p.sealed_) = true →
          (4 < kind → pages (fun p => p.tier != 3) = false → refused .rights) ∧
          ((kind ≤ 4 ∨ pages (fun p => p.tier != 3) = true) → pages (fun p => !p.broken) = false → refused .memUe) ∧
          (kind ≤ 4 → pages (fun p => !p.broken) = true → s.egress t w = none → refused .budget) ∧
          (∀ p, kind ≤ 4 → pages (fun p => !p.broken) = true → s.egress t w = some p → s.linkBudgetFull t p = 0 → refused .budget) ∧
          (∀ p, kind ≤ 4 → pages (fun p => !p.broken) = true → s.egress t w = some p → s.linkBudgetFull t p ≠ 0 →
            let data := s.readVA t w.localVa w.length (host.drop 64)
            let left := (List.range ((data.length + 4095) / 4096)).map (fun j =>
              ({ idx := j, sends := 0, tries := 0, naks := 0, sentAt := 0, number := 0, waitUntil := none } : SendPkt))
            exec i s = .next ((u.updEp ep.val fun y => { y with
              sends := y.sends ++ [{ msgId := x.nextMsg, req := w, data := data, left := left, retransmitted := false }] }).pump ep.val)) ∧
          (4 < kind → pages (fun p => p.tier != 3) = true → pages (fun p => !p.broken) = true →
            (∀ m ∈ s.destinations w, ∃ (r : FabRoute) (q : Nat) (l : List Nat), s.routeTo m = some r ∧ s.ownsRoute true t s.jig.me r.ports = true ∧
              r.ports = q :: l ∧ (s.port q).state = 1 ∧ s.linkBudgetFull t q ≠ 0) → s.destinations w ≠ [] →
            exec i s = .next ((u.updEp ep.val fun y => { y with
              pushes := y.pushes ++ [{ id := x.nextMsg, req := w, waiting := s.destinations w, refused := [] }] }).each (s.destinations w)
                fun s' m => s'.pushTo t w (s.readVA t w.localVa w.length (host.drop 64)) m)))))) ∧
  (∀ (s : State) (e : Nat) (m : SendMsg) (k : SendPkt) (p : Nat), let t := (s.ep e).tenant
    let n := etkaiCharge m.req.eth (m.bytes k.idx).length
    let u := s.sendPkt e m k
    s.egress t m.req = some p → s.issuing t = true → s.granted t .port = true → (s.port p).state = 1 → s.portSlot false p t = true →
    (s.port p).replay.length < 256 → (s.port p).txSeq + 1 < 2147483648 →
    ((s.linkBudget t p).remaining < n → (u.linkBudget t p).waited = true ∧ (u.linkBudget t p).remaining = (s.linkBudget t p).remaining ∧ u.out = s.out ∧ u.fab = s.fab) ∧
    (n ≤ (s.linkBudget t p).remaining → (s.port p).role = 1 →
      let y := m.packet s.jig.me e k
      let head := fabHeader 1 t (s.routeIndex m.req.dstMember) (n - 40) m.req.dstMember ((s.port p).txSeq + 1) (s.port p).rxSeq
      (u.linkBudget t p).remaining = (s.linkBudget t p).remaining - n ∧ (u.port p).tx = ((s.port p).tx + n) % 281474976710656 ∧
      (u.port p).txSeq = ((s.port p).txSeq + 1) % 4294967296 ∧ (u.port p).replay = (s.port p).replay ++ [{ seq := (s.port p).txSeq + 1, head := head, at_ := s.pos }] ∧
      (u.flow (flowKey e m.req)).sent = (s.flow (flowKey e m.req)).sent + 1 ∧
      u.out = .packet none (packetHeader y 1 y.code ++ y.payload) :: .frame p head :: s.out ∧
      u.mem = s.mem ∧ u.ram = s.ram ∧ u.sec = s.sec ∧ u.hif = s.hif ∧ u.cells = s.cells)) ∧
  (∀ (s : State) (p : Packet) (dup : Bool) (st : Status), st ≠ .endpointParked →
    let eth := (s.port p.port.val).role = 2
    let goes := fun (o : Out) => s.sendFrame { port := p.port.val, owner := p.tenant, sched := false, len := if eth then 134 else 88, dest := none, out := o }
    let names := fun (l : List Byte) (type code : Nat) => l.length = 48 ∧ field l 0 4 = 0x4B544558 ∧ field l 4 1 = 1 ∧ field l 5 1 = type ∧ field l 9 1 = code ∧
      field l 6 1 = p.op % 256 ∧ field l 8 1 = p.tenant % 256 ∧ field l 10 2 = p.srcEp % 65536 ∧ field l 12 2 = p.dstEp % 65536 ∧
      field l 14 2 = p.pktIndex % 65536 ∧ field l 18 2 = 0 ∧ field l 24 8 = p.msgId % 18446744073709551616
    (∃ h l, s.ackPacket p dup = goes (.ack h l) ∧ names l 2 0 ∧ field l 7 1 = (if p.ce = true ∧ eth then 2 else 0) + (if dup then 4 else 0)) ∧
    (∃ h l, s.nakPacket p st = goes (.nak h l) ∧ names l 3 st.code)) ∧
  (∀ (p : Packet) (x : PacketIn), x.head = packetHeader p 1 p.code → x.payload = p.payload → p.op < 4 → p.tenant < 256 → p.code < 256 → p.srcEp < 65536 →
    p.dstEp < 65536 → p.pktIndex < 65536 → p.pktCount < 65536 → p.payload.length < 65536 → p.regionKey < 4294967296 → p.msgId < 18446744073709551616 →
    p.offset < 18446744073709551616 → p.opId < 4294967296 → p.srcMember < 65536 → p.dstMember < 65536 → (p.op = 3 ∨ (p.code = 0 ∧ p.opId = 0)) →
    (p.op = 0 → p.regionKey = 0) →
    packetOf p.op x = { p with formOk := true, port := x.port, srcAddr := x.srcAddr, ce := x.ce, rqHost := x.rqHost })

/-- Acknowledgements, NAKs and timers (R428 to R434): an ACK takes the packet off its message, and the last one completes it; a retryable NAK holds
the packet back min(25 µs × 2^(j − 1), 1,600 µs) and the 64th ends the message with PEER_PARKED or BUDGET, any other NAK ends it at once; a timeout
sends the packet again and the 17th ends the message with PEER_UNREACHABLE; the window grows by 1 each window's worth of ACKs, up to 256, and halves
at most once a window. In a freeze nothing is taken and no timer ends (R91). -/
def Obligations.AcksNaksAndTimersFollowTheirRules : Prop :=
  (∀ (s : State) (ep : EpId) (id i : Nat) (x y : Bool) (st : Status), s.sendingOf ep.val id i = none ∨ s.frozen = true →
    exec (.etkaiAck ep id i x y) s = .next s ∧ exec (.etkaiNak ep id i st) s = .next s ∧ exec (.rtoExpire ep id i) s = .next s ∧
    exec (.nakRetry ep id i) s = .next s) ∧
  (∀ (s : State) (ep : EpId) (id i : Nat) (ece dup : Bool) (m : SendMsg) (k : SendPkt), s.sendingOf ep.val id i = some (m, k) → s.frozen = false →
    let key := flowKey ep.val m.req
    let f1 := (s.flow key).acked
    let f2 := if k.sends = 1 then f1.measure (s.pos - k.sentAt) else f1
    let f3 := if ece then f2.halve k.number else f2
    let u := s.updFab fun x => { x with flows := x.flows.map (fun y => if y.key == f3.key then f3 else y) }
    let m' : SendMsg := { m with left := m.left.filter (fun y => y.idx != i), retransmitted := m.retransmitted || dup }
    (m'.left = [] → exec (.etkaiAck ep id i ece dup) s = .next ((u.endMsg ep.val m' .ok).pump ep.val)) ∧
    (m'.left ≠ [] → exec (.etkaiAck ep id i ece dup) s = .next ((u.updEp ep.val fun x => { x with
      sends := x.sends.map (fun y => if y.msgId == id then m' else y) }).pump ep.val)) ∧
    (∀ st, st ≠ .endpointParked → st ≠ .budget → exec (.etkaiNak ep id i st) s = .next ((s.endMsg ep.val m st).pump ep.val)) ∧
    (∀ st, st = .endpointParked ∨ st = .budget →
      let h := s.updFlow key fun f => f.halve k.number
      (k.naks < 63 → exec (.etkaiNak ep id i st) s = .next (h.updPkt ep.val id i fun y => { y with
        naks := k.naks + 1, tries := 0, waitUntil := some (s.pos + min (2500 * 2 ^ k.naks) 160000) })) ∧
      (63 ≤ k.naks → exec (.etkaiNak ep id i st) s = .next ((h.peerEnds ep.val m (if st = .endpointParked then .peerParked else .budget)).pump ep.val))) ∧
    (let rto := min ((s.flow key).rto m.req.eth * 2 ^ (k.tries - 1)) 800000
     let h := s.updFlow key fun f => f.halve k.number
     (k.tries = 0 ∨ k.waitUntil ≠ none ∨ s.frozen = true ∨ s.pos < k.sentAt + rto → exec (.rtoExpire ep id i) s = .next s) ∧
     (0 < k.tries → k.waitUntil = none → s.frozen = false → k.sentAt + rto ≤ s.pos →
       (k.tries < 17 → exec (.rtoExpire ep id i) s = .next (h.sendPkt ep.val m k)) ∧
       (17 ≤ k.tries → exec (.rtoExpire ep id i) s = .next ((h.peerEnds ep.val m .peerUnreachable).pump ep.val)))) ∧
    (∀ p, k.waitUntil = some p → s.due p = true → s.inFlight ep.val key < (s.flow key).window → exec (.nakRetry ep id i) s = .next (s.sendPkt ep.val m k))) ∧
  (∀ (s : State) (f : Nat), s.frozen = false → ∃ u, exec (.flowIdleDrop f) s = .next u ∧ u = s.updFab (fun x => { x with flows := u.fab.flows }) ∧
    ∀ g, g ∈ u.fab.flows ↔ g ∈ s.fab.flows ∧ (g.key ≠ f ∨ s.turn < g.lastTurn + 64)) ∧
  (∀ (s : State) (ep : EpId) (a b id : Nat), s.frozen = false → ∃ x, exec (.reassemblyTimeout ep a b id) s = .next (s.setEp ep.val x) ∧
    (∀ r, r ∈ x.reasm ↔ r ∈ (s.ep ep.val).reasm ∧ ¬(r.srcEp = a ∧ r.srcMember = b ∧ r.msgId = id ∧ r.last + 6400000 ≤ s.pos)) ∧
    (∀ r ∈ (s.ep ep.val).reasm, r.srcEp = a → r.srcMember = b → r.msgId = id → r.last + 6400000 ≤ s.pos → r.entry ∈ x.spare)) ∧
  (∀ (f : Flow) (n : Nat), (f.window ≤ 256 → f.acked.window ≤ 256 ∧ f.window ≤ f.acked.window ∧ f.acked.window ≤ f.window + 1) ∧
    (f.acks + 1 < f.window → f.acked.window = f.window ∧ f.acked.acks = f.acks + 1) ∧
    (f.halved < n → (f.halve n).window = max 1 (f.window / 2) ∧ (f.halve n).halved = f.sent) ∧ (n ≤ f.halved → f.halve n = f) ∧
    (f.rtt = none → f.rto false = 3200 ∧ f.rto true = 20000) ∧ (∀ a v, f.rtt = some (a, v) → f.rto false = max 800 (a / 8 + v) ∧ f.rto true = max 5000 (a / 8 + v)))

/-- Packets that arrive (R424, R428, R438, R440, R446): one for another member goes onward, one that breaks R426 or whose tenant is absent is dropped
and counted, one for a fenced tenant is answered with TENANT_GONE. A WRITE or ACC_ADD is checked in the order of R438, and lands or is answered with
a NAK; an ACC_ADD whose bit was set adds nothing and is acknowledged with DUP; a SEND or WRITE_NOTIFY takes a receive entry at its first packet,
BUDGET where there is none, and its last packet posts the completion. -/
def Obligations.ArrivingPacketsLandOrAreRefused : Prop :=
  (∀ (s : State) (x : PacketIn) (op : Nat) (i : Instr), (op = 0 ∧ i = .etkaiSendPacket x) ∨ (op = 1 ∧ i = .etkaiWritePacket x) ∨
      (op = 2 ∧ i = .etkaiWriteNotifyPacket x) ∨ (op = 3 ∧ i = .etkaiAccAddPacket x) →
    let p := packetOf op x
    let eth := (s.port p.port.val).role == 2
    let u := s.rxFrame p.port.val (if eth then 114 + p.payload.length else 80 + p.payload.length)
    let here := eth = true ∨ p.dstMember = s.jig.me
    ((s.port p.port.val).state ≠ 1 ∨ s.frozen = true → exec i s = .next s) ∧
    ((s.port p.port.val).state = 1 → s.frozen = false →
      (here → packetOk p = false → exec i s = .next (u.dropPacket p.port.val)) ∧
      (here → packetOk p = true → s.fencedAt p.tenant p.port.val = true → exec i s = .next ((u.countGone p.tenant).nakPacket p .tenantGone)) ∧
      (here → packetOk p = true → s.fencedAt p.tenant p.port.val = false → (s.tenant p.tenant).state = .absent → p.tenant ≠ 0 →
        exec i s = .next (u.dropPacket p.port.val)) ∧
      (∀ r o l, eth = false → p.dstMember ≠ s.jig.me → s.routeTo p.dstMember = some r → r.ports = o :: l →
        exec i s = .next (u.sendFrame { port := o, owner := p.tenant, sched := false, len := 88 + p.payload.length, dest := none, out := .onward o p.dstMember })))) ∧
  (∀ (s : State) (x : PacketIn),
    let eth := (s.port x.port.val).role == 2
    let u := s.rxFrame x.port.val (if eth then 114 + x.payload.length else 80 + x.payload.length)
    let taken := fun (p : Packet) => (s.port p.port.val).state = 1 ∧ s.frozen = false ∧ (eth = true ∨ p.dstMember = s.jig.me) ∧ packetOk p = true ∧
      s.fencedAt p.tenant p.port.val = false ∧ ((s.tenant p.tenant).state ≠ .absent ∨ p.tenant = 0)
    (∀ (op : Nat) (i : Instr), ((op = 1 ∧ i = .etkaiWritePacket x) ∨ (op = 2 ∧ i = .etkaiWriteNotifyPacket x) ∨ (op = 3 ∧ i = .etkaiAccAddPacket x)) →
      let p := packetOf op x
      taken p →
      (s.region (p.regionKey / 4096) = none → exec i s = .next (u.nakPacket p .keyAbsent)) ∧
      (∀ r, s.region (p.regionKey / 4096) = some r →
        let admits := if eth then bitAt r.scope 1 && r.admits p.srcAddr else bitAt r.scope 0
        let unit := if r.format = 1 then 8 else 4
        let inRange := p.offset + p.payload.length ≤ r.length ∧ (op = 3 → p.payload.length % unit = 0)
        let permitted := (op = 1 → bitAt r.rights 0 = true) ∧ (op = 2 → bitAt r.rights 0 = true ∧ bitAt r.rights 2 = true) ∧ (op = 3 → bitAt r.rights 1 = true)
        let current := p.regionKey % 4096 + 1 = s.generations (p.regionKey / 4096)
        (r.tenant ≠ p.tenant → exec i s = .next (u.nakPacket p .keyAbsent)) ∧
        (r.tenant = p.tenant → ¬current → exec i s = .next (u.nakPacket p .keyStale)) ∧
        (r.tenant = p.tenant → current → admits = false → exec i s = .next (u.nakPacket p .rights)) ∧
        (r.tenant = p.tenant → current → admits = true → ¬inRange → exec i s = .next (u.nakPacket p .bounds)) ∧
        (r.tenant = p.tenant → current → admits = true → inRange → ¬permitted → exec i s = .next (u.nakPacket p .rights)) ∧
        (r.tenant = p.tenant → current → admits = true → inRange → permitted →
          (op = 3 → (p.code ≠ r.format ∨ r.ops ≤ p.opId) → exec i s = .next (u.nakPacket p .bounds)) ∧
          (op = 2 → p.dstEp ≠ r.notifyEp → exec i s = .next (u.nakPacket p .bounds)) ∧
          (op = 2 → p.dstEp = r.notifyEp → s.epTakes p.dstEp = false → exec i s = .next (u.nakPacket p .endpointParked)) ∧
          (∀ st, op = 1 → s.landFail r.tenant (r.va + p.offset) p.payload.length false = some st → exec i s = .next (u.nakPacket p st)) ∧
          (op = 1 → s.landFail r.tenant (r.va + p.offset) p.payload.length false = none →
            exec i s = .next ((u.land r p.offset false 0 p.payload).ackPacket p false)) ∧
          (op = 3 → p.code = r.format → p.opId < r.ops → s.landFail r.tenant (r.va + p.offset) p.payload.length true = none →
            let bit := 256 * p.opId + p.pktIndex
            (bit ∈ r.applied → exec i s = .next (u.ackPacket p true)) ∧
            (bit ∉ r.applied → exec i s = .next (((u.land r p.offset true r.format p.payload).updRegion (p.regionKey / 4096) fun z => { z with
              applied := z.applied ++ [bit] }).ackPacket p false))) ∧
          (∀ (e : RecvEntry) (y : Endpoint), op = 2 → p.dstEp = r.notifyEp → s.epTakes p.dstEp = true →
            (s.ep p.dstEp).reasm.find? (fun z => z.takes p) = none → (s.ep p.dstEp).reasm.length < 64 → s.takeEntry p.dstEp p.rqHost = some (e, y) →
            s.landFail r.tenant (r.va + p.offset) p.payload.length false = none → p.pktCount = 1 →
            exec i s = .next (((((u.setEp p.dstEp y).land r p.offset false 0 p.payload).ackPacket p false).updEp p.dstEp fun z => { z with
              reasm := y.reasm.filter (fun z => !z.takes p) }).epPost p.dstEp .ok (if p.retx then 2 else 0) e.tag 0x81 p.srcEp p.payload.length p.regionKey p.msgId p.srcMember))))) ∧
    (let p := packetOf 0 x
     taken p →
    (p.dstEp = 0xFFFF → exec (.etkaiSendPacket x) s = .next (u.ackPacket p false)) ∧
    (p.dstEp ≠ 0xFFFF → (8191 < p.dstEp ∨ (s.ep p.dstEp).state = 0 ∨ (s.ep p.dstEp).tenant ≠ p.tenant) →
      exec (.etkaiSendPacket x) s = .next (u.dropPacket p.port.val)) ∧
    (p.dstEp ≤ 8191 → (s.ep p.dstEp).state ≠ 0 → (s.ep p.dstEp).tenant = p.tenant → 
      (s.epTakes p.dstEp = false → exec (.etkaiSendPacket x) s = .next (u.nakPacket p .endpointParked)) ∧
      (s.epTakes p.dstEp = true → (s.ep p.dstEp).reasm.find? (fun z => z.takes p) = none →
        (64 ≤ (s.ep p.dstEp).reasm.length ∨ s.takeEntry p.dstEp p.rqHost = none → exec (.etkaiSendPacket x) s = .next (u.nakPacket p .budget)) ∧
        (∀ e y, (s.ep p.dstEp).reasm.length < 64 → s.takeEntry p.dstEp p.rqHost = some (e, y) →
          (e.length < p.offset + p.payload.length → exec (.etkaiSendPacket x) s =
            .next (((u.setEp p.dstEp y).updEp p.dstEp fun w => { w with spare := e :: w.spare }).nakPacket p .bounds)) ∧
          (p.offset + p.payload.length ≤ e.length → s.landFail p.tenant (e.addr + p.offset) p.payload.length false = none →
            let landed := (((u.setEp p.dstEp y).writeVA p.tenant (e.addr + p.offset) p.payload (p.payload.length + 1)).ackPacket p false)
            let r : Reasm := { newReasm p e s.pos with got := [p.pktIndex], bytes := p.payload.length, retx := p.retx }
            (p.pktCount = 1 → exec (.etkaiSendPacket x) s = .next ((landed.updEp p.dstEp fun w => { w with reasm := y.reasm.filter (fun z => !z.takes p) }).epPost
              p.dstEp .ok (if p.retx then 2 else 0) e.tag 0x80 p.srcEp p.payload.length 0 p.msgId p.srcMember)) ∧
            (1 < p.pktCount → exec (.etkaiSendPacket x) s = .next (landed.updEp p.dstEp fun w => { w with
              reasm := y.reasm.filter (fun z => !z.takes p) ++ [r] }))))) ∧
      (∀ r, s.epTakes p.dstEp = true → (s.ep p.dstEp).reasm.find? (fun z => z.takes p) = some r → p.pktIndex ∉ r.got → r.got.length + 1 = r.count → r.region = none →
        p.offset + p.payload.length ≤ r.entry.length → s.landFail p.tenant (r.entry.addr + p.offset) p.payload.length false = none →
        exec (.etkaiSendPacket x) s = .next ((((u.writeVA p.tenant (r.entry.addr + p.offset) p.payload (p.payload.length + 1)).ackPacket p false).updEp p.dstEp fun w => { w with
          reasm := (s.ep p.dstEp).reasm.filter (fun z => !z.takes p) }).epPost p.dstEp .ok (if r.retx || p.retx then 2 else 0) r.entry.tag 0x80 p.srcEp
            (r.bytes + p.payload.length) 0 p.msgId p.srcMember)))))

/-- Accesses (R17 to R19, R23): an aligned 64-bit read gives the register's value and then clears its RC fields, an aligned write takes effect as its
register tells; a narrower or unaligned one reads 0, writes nothing and counts as an access error of its source's queue, with an ACCESS event. The
host driver reads 0 and writes nothing where no register is tabled; a VF has an access error there. Where registers lie (R15, R16, R525, R527): the
first of each block, elements of arrays at their strides, the cells 0x4000 apart; an offset at which nothing is tabled names none. In VF t's window
stand its own elements, and the cells of its own groups. What a read clears and what a write takes (R18, R483): the RC fields of a register are 0
after a read and a second read leaves them so; a register without RC fields is left as it was; a register whose every field is RO or RC takes nothing
from a write, and in TAMPERED no register does; a W1C bit clears only where it is written as 1. -/
def Obligations.RegistersAreReadClearedWrittenOrMissed : Prop :=
  ((∀ (s : State) (a : RegAccess) (r : Reg) (i c : Nat), a.size = 8 → a.offset % 8 = 0 →
    ((a.fn = 0 ∧ decodeReg a.offset = some (r, i, c)) ∨ (a.fn ≠ 0 ∧ s.vfReg a.fn.val a.offset = some (r, i, c))) →
    exec (.readClear a) s = .next ((s.emit (.regRead a.offset (s.regValue a.fn.val r i c))).clearOnRead a.fn.val r i c) ∧
    exec (.registerWrite a) s = .next (s.writeReg a.fn.val r i c (a.value % 18446744073709551616))) ∧
  (∀ (s : State) (a : RegAccess), a.size = 8 → a.offset % 8 = 0 → a.fn = 0 → decodeReg a.offset = none →
    exec (.readClear a) s = .next (s.emit (.regRead a.offset 0)) ∧ exec (.registerWrite a) s = .next s) ∧
  (∀ (s : State) (a : RegAccess), (a.size ≠ 8 ∨ a.offset % 8 ≠ 0 ∨ (a.fn ≠ 0 ∧ s.vfReg a.fn.val a.offset = none)) →
    let q := if a.fn = 0 then 0 else a.fn.val + 1
    let miss : Bool → State → State := fun w u => (u.setShv q { u.shv q with accessErr := min 65535 ((u.shv q).accessErr + 1) }).event q 0 0
      (if a.fn = 0 then 10 else a.fn.val) (a.offset + (if w then 18446744073709551616 else 0))
    let z := s.emit (.regRead a.offset 0)
    exec (.readClear a) s = .next (miss false z) ∧ exec (.registerWrite a) s = .next (miss true s) ∧
    exec (.accessError a) s = .next (if a.write then miss true s else miss false z) ∧
    exec (.vfWindowMiss a) s = .next (if a.write then miss true s else miss false z)) ∧
  (∀ (s : State) (a : RegAccess), a.size = 8 → a.offset % 8 = 0 → ((a.fn = 0) ∨ (s.vfReg a.fn.val a.offset).isSome = true) →
    exec (.accessError a) s = (if a.write then exec (.registerWrite a) s else exec (.readClear a) s) ∧
    exec (.vfWindowMiss a) s = (if a.write then exec (.registerWrite a) s else exec (.readClear a) s))) ∧
  (decodeReg 0x000000 = some (.hifStatus, 0, 0) ∧ (∀ n, n < 128 → decodeReg (0x1018 + 64 * n) = some (.hifSqDoorbell, n, 0)) ∧
  decodeReg 0x100000 = some (.spnPosition, 0, 0) ∧ (∀ p, p < 16 → decodeReg (0x100040 + 8 * p) = some (.spnLinkDelay, p, 0)) ∧
  decodeReg 0x200000 = some (.jigStatus, 0, 0) ∧ decodeReg 0x200110 = some (.jigLiveThermal, 0, 0) ∧
  (∀ c n, c < 64 → n < 16 → decodeReg (0x400100 + 0x4000 * c + 8 * n) = some (.celModulus, n, c)) ∧
  decodeReg 0x600000 = some (.aggRound, 0, 0) ∧ (∀ e, e < 256 → decodeReg (0x601018 + 32 * e) = some (.aggBindAddr, e, 0)) ∧
  decodeReg 0x800000 = some (.ringStatus, 0, 0) ∧ (∀ t i, t < 8 → i < 8 → decodeReg (0x801008 + 128 * t + 8 * i) = some (.ringDescData, 8 * t + i, 0)) ∧
  decodeReg 0xA00000 = some (.memHbmCap, 0, 0) ∧ (∀ x, x < 256 → decodeReg (0xA00600 + 16 * x) = some (.memFaultVa, x, 0)) ∧
  decodeReg 0xC00000 = some (.fabPortStatus, 0, 0) ∧ (∀ e, e < 8192 → decodeReg (0xC20000 + 8 * e) = some (.fabEpDoorbell, e, 0)) ∧
  decodeReg 0xE00000 = some (.secLifecycle, 0, 0) ∧ (∀ t, t < 8 → decodeReg (0xE00140 + 8 * t) = some (.secKeyQuota, t, 0)) ∧
  decodeReg 0x1000000 = some (.pwrStatus, 0, 0) ∧ (∀ i, i < 64 → decodeReg (0x1000100 + 8 * i) = some (.pwrGrant, i, 0)) ∧
  decodeReg 0x1200000 = some (.dbgFw, 0, 0) ∧ (∀ q, q < 9 → decodeReg (0x1200200 + 8 * q) = some (.dbgShvPop, q, 0)) ∧
  decodeReg 0x000020 = none ∧ decodeReg 0x300000 = none ∧ decodeReg 0x500000 = none ∧ decodeReg 0x1400000 = none ∧ decodeReg 0x3FFFFF8 = none ∧
  (∀ (s : State) (t : Nat), 1 ≤ t → t ≤ 7 →
    (∀ n, n < 16 → s.vfReg t (0x1018 + 64 * n) = some (.hifSqDoorbell, 16 * t + n, 0)) ∧ s.vfReg t 0x1418 = none ∧ s.vfReg t 0x18 = none ∧
    s.vfReg t 0x10100 = some (.spnBudgetDma, t, 0) ∧ s.vfReg t 0xE0100 = some (.dbgShvStatus, t + 1, 0) ∧ s.vfReg t 0xF0000 = none ∧
    (∀ c, c < 64 → s.vfReg t (0x20000 + 0x1000 * c) = if s.cellTenant c = t then some (.celStatus, 0, c) else none) ∧
    (∀ e, e < 8192 → s.vfReg t (0xB0000 + 8 * e) = if (s.ep e).state ≠ 0 ∧ (s.ep e).tenant = t then some (.fabEpDoorbell, e, 0) else none))) ∧
  ((∀ (s : State) (fn i c : Nat),
    (s.clearOnRead fn .hifExch i c).hif.exchRefused = 0 ∧ (s.clearOnRead fn .spnFreeze i c).spn.freezes = 0 ∧ (s.clearOnRead fn .spnBarrier i c).spn.missed = 0 ∧
    ((s.clearOnRead fn .celErr i c).cell c).err = [] ∧ ((s.clearOnRead fn .celArith i c).cell c).arith = [] ∧ (s.clearOnRead fn .memErr i c).mem.err = [] ∧
    ((s.clearOnRead fn .fabPortErr i c).port i).tagFail = 0 ∧ ((s.clearOnRead fn .fabEthDrop i c).port i).drops = [] ∧ (s.clearOnRead fn .fabFlows i c).fab.evicted = 0 ∧
    ((s.clearOnRead fn .fabTenant i c).fabTenant i).gone = 0 ∧ (s.clearOnRead fn .secTrng i c).sec.rctFails = 0 ∧ (s.clearOnRead fn .pwrPackage i c).pwr.peakDw = 0 ∧
    (s.clearOnRead fn .pwrTrip i c).pwr.tripHot = 0 ∧ (s.clearOnRead fn .dbgHost i c).dbg.host.lostCount = 0 ∧ (s.clearOnRead fn .dbgCalipers i c).dbg.calLines = 0 ∧
    ((s.clearOnRead fn .dbgShvStatus i c).shv i).lost = 0 ∧ ((s.clearOnRead fn .dbgShvStatus i c).shv i).accessErr = 0 ∧
    (s.clearOnRead fn .aggRefuse i c = s ∨ ((s.clearOnRead fn .aggRefuse i c).round i).refused = []) ∧
    (fn ≠ 0 → (s.round i).tenant ≠ fn → s.clearOnRead fn .aggRefuse i c = s)) ∧
  (∀ (s : State) (fn i c : Nat) (r : Reg), r ∈ [Reg.hifStatus, .hifQStatus, .spnPosition, .spnStatus, .spnConfig, .spnTurn, .jigStatus, .jigSerial, .jigPending, .celStatus, .celWork,
      .celModulus, .celGroup, .celFault, .celToken, .aggRound, .aggBindCtl, .ringParams, .ringPlan, .memQuota, .memMapStatus, .memWalkPte, .memDma, .fabPortStatus, .fabPortTx, .fabOpmap,
      .secLifecycle, .secIdentity, .secTamper, .secKeyInfo, .pwrStatus, .pwrLimit, .dbgFw, .dbgShvConfig, .dbgShvData] → s.clearOnRead fn r i c = s) ∧
  (∀ (s : State) (fn i c v : Nat) (r : Reg), r ∈ [Reg.hifStatus, .hifExch, .hifQStatus, .spnPosition, .spnConfig, .spnTurn, .spnPtpOffset, .spnFreeze, .spnBarrier, .spnLinkDelay, .spnBudgetDma,
      .spnBudgetLink, .jigStatus, .jigSerial, .jigMeasurement, .jigShadowDigest, .jigPending, .jigCheck, .jigShadowData, .celStatus, .celWork, .celErr, .celArith, .celModulusQinv, .celModulusRsq,
      .celLink, .celGroup, .celAccMap, .celSealMap, .celProg, .celFault, .celToken, .aggRound, .aggCollect, .aggDeadline, .aggShareEnd, .aggAccept, .aggRefuse, .aggPool, .aggMirror, .aggIngest,
      .aggUnmask, .aggShares, .aggRecon, .aggBindStreams, .ringStatus, .ringErr, .ringMacroPos, .ringParams, .ringParamsDigest, .ringPlan, .ringRplan, .ringRplanKeys, .ringExit, .ringDescData,
      .memHbmCap, .memDdrCap, .memScrub, .memErr, .memRetireStatus, .memReceiptData, .memQuota, .memKey, .memMapStatus, .memWalkPte, .memFaultOffset, .memDma, .fabPortStatus, .fabPortErr,
      .fabPortTx, .fabPortRx, .fabEthDrop, .fabLaser, .fabFlows, .fabOpmap, .fabTenant, .fabEpCtx, .secLifecycle, .secIdentity, .secOwner, .secTamper, .secTrng, .secChallenge, .secKeyStatus,
      .secKeyInfo, .secTenant, .secCalUser, .secCalValue, .pwrStatus, .pwrLimit, .pwrPackage, .pwrTrip, .pwrTemp, .pwrRail, .pwrGrant, .dbgFw, .dbgFwMeasurement, .dbgHost, .dbgShvConfig,
      .dbgShvData] → s.writeReg fn r i c v = s) ∧
  (∀ (s : State) (fn i c v : Nat) (r : Reg), s.sec.lifecycle = .tampered → s.writeReg fn r i c v = s) ∧
  (∀ (s : State) (fn i c v : Nat), s.sec.lifecycle ≠ .tampered →
    (s.writeReg fn .spnStatus i c v).spn.epochErr = (s.spn.epochErr && !(v / 64 % 2 == 1)) ∧
    (s.writeReg fn .memUeLog i c v).mem.ueLog = (if v / 9007199254740992 % 2 = 1 then none else s.mem.ueLog) ∧
    ((s.writeReg fn .celErrAddr i c v).cell c).errAddr = (if v / 4194304 % 2 = 1 then none else (s.cell c).errAddr) ∧
    ((s.writeReg fn .dbgShvStatus i c v).shv i).emptyRead = ((s.shv i).emptyRead && !(v / 16384 % 2 == 1)) ∧
    (s.writeReg fn .memFaultLimit i c v).mem.faultLimit = v % 4294967296 ∧ (s.writeReg fn .memReceiptSel i c v).mem.receiptSel = v % 32768 ∧
    (s.writeReg fn .jigShadowAddr i c v).jig.shadowAddr = v / 8 % 8388608 * 8 ∧ ((s.writeReg fn .memMapArg i c v).mapRegs i).arg = v))

/-- The Calipers monitor (R518, R519): once it is served each line is counted; while it is closed every line answers ERR CLOSED and does nothing
else, and CLOSE closes it until a cold reset; while it is open each command answers as tabled, RD clears the RC fields that it reads, WR is refused
in PROVISIONED, SHV pops nothing, BAUD's rate applies after its OK; a break restores 115,200 baud. JTAG (R484, R559): boundary scan runs in every
life-cycle state; every other instruction selects BYPASS but in BLANK and OPEN, where full debug reads and writes the register blocks. -/
def Obligations.CalipersAndJtagAnswerAsTabled : Prop :=
  ((∀ (s : State) (i : Instr), ((∃ o, i = .calRd o) ∨ (∃ o v, i = .calWr o v) ∨ (∃ q n, i = .calShv q n) ∨ (∃ r, i = .calBaud r) ∨
      i ∈ [Instr.calHelp, .calId, .calSpn, .calPwr, .calFw]) →
    (s.calServed = false → exec i s = .next s) ∧
    (s.calServed = true → (s.dbg.calClosed = true ∨ s.sec.lifecycle = .owned ∨ s.sec.lifecycle = .retired ∨ s.sec.lifecycle = .tampered) →
      exec i s = .next (State.emit { s with dbg := { s.dbg with calLines := min 65535 (s.dbg.calLines + 1) } } (.uart 5 [])))) ∧
  (∀ (s : State), s.calServed = true → s.dbg.calClosed = false → (s.sec.lifecycle = .blank ∨ s.sec.lifecycle = .provisioned ∨ s.sec.lifecycle = .open_) →
    let u : State := { s with dbg := { s.dbg with calLines := min 65535 (s.dbg.calLines + 1) } }
    let tells (i : Instr) (code : Nat) (l : List Nat) : Prop := exec i s = .next (u.emit (.uart code l))
    (tells .calHelp 0 ("HELP ID RD WR SPN PWR FW SHV BAUD".toList.map Char.toNat)) ∧
    (tells .calId 0 [0x7264, s.sec.stepping, s.sec.lifecycle.code, s.sec.fingerprint]) ∧
    (tells .calSpn 0 [s.spn.pos, s.spn.pos / 2 ^ s.spn.k, s.slotOf s.spn.pos, s.spn.ratio]) ∧
    (tells .calPwr 0 [s.pwr.lastDw / 10, s.pwr.rung, s.pwr.floor, ofSigned 16 s.hottestSensor]) ∧
    (tells .calFw 0 [s.dbg.fw.state.code, s.dbg.fw.reason, s.dbg.fw.svn, s.sec.otpSvn, s.dbg.fw.measurement]) ∧
    (∀ o, (o % 8 ≠ 0 ∨ 67108864 ≤ o → tells (.calRd o) 4 []) ∧
      (o % 8 = 0 → o < 67108864 → decodeReg o = none → tells (.calRd o) 0 [0]) ∧
      (∀ r i c, o % 8 = 0 → o < 67108864 → decodeReg o = some (r, i, c) →
        exec (.calRd o) s = .next ((u.emit (.uart 0 [u.regValue 0 r i c])).clearOnRead 0 r i c))) ∧
    (∀ o (v : Word64), (s.sec.lifecycle = .provisioned → tells (.calWr o v) 2 []) ∧
      (s.sec.lifecycle ≠ .provisioned → (o % 8 ≠ 0 ∨ 67108864 ≤ o) → tells (.calWr o v) 4 []) ∧
      (s.sec.lifecycle ≠ .provisioned → o % 8 = 0 → o < 67108864 → decodeReg o = none → tells (.calWr o v) 0 []) ∧
      (∀ r i c, s.sec.lifecycle ≠ .provisioned → o % 8 = 0 → o < 67108864 → decodeReg o = some (r, i, c) →
        exec (.calWr o v) s = .next ((u.writeReg 0 r i c v.toNat).emit (.uart 0 [])))) ∧
    (∀ q n, (8 < q ∨ n < 1 ∨ 16 < n → tells (.calShv q n) 3 []) ∧
      (q ≤ 8 → 1 ≤ n → n ≤ 16 → tells (.calShv q n) 0 (((s.shv q).entries.reverse.take n).map Shaving.word))) ∧
    (∀ b, b ∉ [115200, 230400, 460800, 921600, 1000000, 2000000, 3000000] → tells (.calBaud b) 3 []) ∧
    (∀ j, j < 7 → ∀ b, [115200, 230400, 460800, 921600, 1000000, 2000000, 3000000][j]? = some b →
      exec (.calBaud b) s = .next { u.emit (.uart 0 []) with dbg := { u.dbg with calRate := j } })) ∧
  (∀ (s : State), exec .calipersBreak s = .next { s with dbg := { s.dbg with calRate := 0 } } ∧
    (s.sec.lifecycle ≠ .tampered → ∃ u, exec .calipersClose s = .next u ∧ u.dbg = { s.dbg with calClosed := true } ∧ u.sec = s.sec ∧ u.calipersOpen = false))) ∧
  (∀ (s : State), exec (.jtagAccess .boundaryScan) s = .next s ∧ exec (.jtagAccess .bypass) s = .next (s.emit (.jtag none)) ∧
    (∀ o v, s.sec.lifecycle ≠ .blank → s.sec.lifecycle ≠ .open_ →
      exec (.jtagAccess (.debugRead o)) s = .next (s.emit (.jtag none)) ∧ exec (.jtagAccess (.debugWrite o v)) s = .next (s.emit (.jtag none))) ∧
    (∀ o v r i c, s.sec.lifecycle = .blank ∨ s.sec.lifecycle = .open_ → o % 8 = 0 → decodeReg o = some (r, i, c) →
      exec (.jtagAccess (.debugRead o)) s = .next ((s.emit (.jtag (some (s.regValue 0 r i c)))).clearOnRead 0 r i c) ∧
      exec (.jtagAccess (.debugWrite o v)) s = .next (s.writeReg 0 r i c (v % 18446744073709551616))))
end

