-- ==== Sys2Proof/Laws/Tab.lean ====
section
/-! SUPPORT. Laws/Tab.lean: the laws of a sparse table: reading after a write, what a filter keeps, and that writing keeps the canonical
form. -/

namespace Sys2Proof

variable {α : Type}

@[simp] theorem Tab.look_nil (d : α) (k : Nat) : Tab.look d [] k = d := rfl

theorem Tab.look_insertAt_same (d : α) (t : Tab α) (k : Nat) (v : α) : Tab.look d (Tab.insertAt t k v) k = v := by
  induction t with
  | nil => simp [Tab.insertAt, Tab.look]
  | cons e r ih =>
    obtain ⟨k', v'⟩ := e
    simp only [Tab.insertAt]
    split
    · simp [Tab.look]
    · split
      · simp [Tab.look]
      · rename_i h1 h2
        simp [Tab.look, Ne.symm h2, ih]

theorem Tab.look_insertAt_other (d : α) (t : Tab α) (k j : Nat) (v : α) (h : j ≠ k) :
    Tab.look d (Tab.insertAt t k v) j = Tab.look d t j := by
  induction t with
  | nil => simp [Tab.insertAt, Tab.look, Ne.symm h]
  | cons e r ih =>
    obtain ⟨k', v'⟩ := e
    simp only [Tab.insertAt]
    split
    · simp [Tab.look, Ne.symm h]
    · split
      · rename_i h2; subst h2; simp [Tab.look, Ne.symm h]
      · simp only [Tab.look]; split <;> simp_all

theorem Tab.look_filter_out (d : α) (t : Tab α) (k : Nat) : Tab.look d (t.filter (fun e => e.1 != k)) k = d := by
  induction t with
  | nil => rfl
  | cons e r ih =>
    obtain ⟨k', v'⟩ := e
    by_cases h : k' = k
    · subst h; simp [ih]
    · simp [h, Tab.look, ih]

/-- A filter on keys keeps what stands at a key that it takes. -/
theorem Tab.look_filter (d : α) (t : Tab α) (p : Nat → Bool) (k : Nat) :
    Tab.look d (t.filter (fun e => p e.1)) k = if p k then Tab.look d t k else d := by
  induction t with
  | nil => simp [Tab.look]
  | cons e r ih =>
    obtain ⟨k', v'⟩ := e
    by_cases h : k' = k
    · subst h; by_cases hp : p k' <;> simp_all [Tab.look]
    · by_cases hp : p k' <;> simp_all [Tab.look]

theorem Tab.look_keep (d : α) (t : Tab α) (p : Nat → Bool) (k : Nat) :
    Tab.look d (t.keep p) k = if p k then Tab.look d t k else d := Tab.look_filter d t p k

variable [DecidableEq α]

/-- A read after a write at the same key gives the value written. -/
@[simp] theorem Tab.look_put_same (d : α) (t : Tab α) (k : Nat) (v : α) : Tab.look d (Tab.put d t k v) k = v := by
  unfold Tab.put
  split
  · rename_i h; rw [Tab.look_filter_out, h]
  · exact Tab.look_insertAt_same d t k v

/-- A write leaves every other key alone. -/
theorem Tab.look_put_other (d : α) (t : Tab α) (k j : Nat) (v : α) (h : j ≠ k) : Tab.look d (Tab.put d t k v) j = Tab.look d t j := by
  unfold Tab.put
  split
  · have := Tab.look_filter d t (fun x => x != k) j
    simpa [h] using this
  · exact Tab.look_insertAt_other d t k j v h

theorem Tab.look_put (d : α) (t : Tab α) (k j : Nat) (v : α) :
    Tab.look d (Tab.put d t k v) j = if j = k then v else Tab.look d t j := by
  split
  · rename_i h; subst h; simp
  · rename_i h; exact Tab.look_put_other d t k j v h

/-! ### The canonical form -/

/-- The form from a bound, as a list fact: keys rising above it, no entry the default. -/
theorem Tab.wfFrom_iff (d : α) (lo : Option Nat) (t : Tab α) :
    Tab.wfFrom d lo t = true ↔ (∀ l, lo = some l → ∀ e ∈ t, l < e.1) ∧ (∀ e ∈ t, e.2 ≠ d) ∧ t.Pairwise (fun a b => a.1 < b.1) := by
  induction t generalizing lo with
  | nil => simp [Tab.wfFrom]
  | cons e r ih =>
    obtain ⟨k, v⟩ := e
    cases lo with
    | none => simp [Tab.wfFrom, ih]; tauto
    | some l =>
      simp only [Tab.wfFrom, Bool.and_eq_true, decide_eq_true_eq, ih, List.mem_cons, forall_eq_or_imp, List.pairwise_cons,
        Option.some.injEq, forall_eq']
      constructor
      · rintro ⟨⟨h1, h2⟩, h3, h4, h5⟩
        exact ⟨⟨h1, fun a ha => Nat.lt_trans h1 (h3 a ha)⟩, ⟨h2, h4⟩, h3, h5⟩
      · rintro ⟨⟨h1, -⟩, ⟨h2, h4⟩, h3, h5⟩
        exact ⟨⟨h1, h2⟩, h3, h4, h5⟩

theorem Tab.wf_iff (d : α) (t : Tab α) :
    Tab.wf d t = true ↔ (∀ e ∈ t, e.2 ≠ d) ∧ t.Pairwise (fun a b => a.1 < b.1) := by
  simp [Tab.wf, Tab.wfFrom_iff]

@[simp] theorem Tab.wf_nil (d : α) : Tab.wf d ([] : Tab α) = true := rfl

/-- Dropping entries keeps the form. -/
theorem Tab.wf_filter (d : α) (t : Tab α) (p : Nat × α → Bool) (h : Tab.wf d t = true) : Tab.wf d (t.filter p) = true := by
  rw [Tab.wf_iff] at *
  exact ⟨fun e he => h.1 e (List.mem_of_mem_filter he), h.2.filter p⟩

theorem Tab.mem_insertAt (t : Tab α) (k : Nat) (v : α) (e : Nat × α) (he : e ∈ Tab.insertAt t k v) : e = (k, v) ∨ e ∈ t := by
  induction t with
  | nil => simpa [Tab.insertAt] using he
  | cons x r ih =>
    obtain ⟨k', v'⟩ := x
    simp only [Tab.insertAt] at he
    split at he
    · simpa using he
    · split at he
      · simp at he; tauto
      · simp at he; rcases he with h | h
        · simp [h]
        · rcases ih h with h | h <;> simp [h]

theorem Tab.wf_insertAt (d : α) (t : Tab α) (k : Nat) (v : α) (hv : v ≠ d) (h : Tab.wf d t = true) :
    Tab.wf d (Tab.insertAt t k v) = true := by
  rw [Tab.wf_iff] at *
  induction t with
  | nil => simp [Tab.insertAt, hv]
  | cons x r ih =>
    obtain ⟨k', v'⟩ := x
    obtain ⟨h1, h2⟩ := h
    have hr := ih ⟨fun e he => h1 e (List.mem_cons_of_mem _ he), (List.pairwise_cons.1 h2).2⟩
    have hk := (List.pairwise_cons.1 h2).1
    simp only [Tab.insertAt]
    split
    · rename_i hlt
      refine ⟨?_, List.pairwise_cons.2 ⟨?_, h2⟩⟩
      · intro e he; rcases List.mem_cons.1 he with rfl | he
        · exact hv
        · exact h1 e he
      · intro e he; rcases List.mem_cons.1 he with rfl | he
        · exact hlt
        · exact Nat.lt_trans hlt (hk e he)
    · split
      · rename_i hlt heq
        subst heq
        refine ⟨?_, List.pairwise_cons.2 ⟨hk, (List.pairwise_cons.1 h2).2⟩⟩
        intro e he; rcases List.mem_cons.1 he with rfl | he
        · exact hv
        · exact h1 e (List.mem_cons_of_mem _ he)
      · rename_i hlt hne
        refine ⟨?_, List.pairwise_cons.2 ⟨?_, hr.2⟩⟩
        · intro e he; rcases List.mem_cons.1 he with rfl | he
          · exact h1 _ (List.mem_cons_self ..)
          · exact hr.1 e he
        · intro e he
          rcases Tab.mem_insertAt r k v e he with rfl | he
          · show k' < k; omega
          · exact hk e he

/-- A write keeps the form. -/
theorem Tab.wf_put (d : α) (t : Tab α) (k : Nat) (v : α) (h : Tab.wf d t = true) : Tab.wf d (Tab.put d t k v) = true := by
  unfold Tab.put
  split
  · exact Tab.wf_filter d t _ h
  · rename_i hv; exact Tab.wf_insertAt d t k v hv h

end Sys2Proof
end

