-- ==== Sys2Proof/Laws/State.lean ====
section
/-! SUPPORT. Laws/State.lean: what each update of the state leaves alone, field by field, and that what it writes reads back. -/

namespace Sys2Proof.Machine

variable (s : State)

/-! ### setCell -/

@[simp] theorem State.setCell_hif (c : Nat) (v : Cell) : (s.setCell c v).hif = s.hif := rfl
@[simp] theorem State.setCell_spn (c : Nat) (v : Cell) : (s.setCell c v).spn = s.spn := rfl
@[simp] theorem State.setCell_jig (c : Nat) (v : Cell) : (s.setCell c v).jig = s.jig := rfl
@[simp] theorem State.setCell_progs (c : Nat) (v : Cell) : (s.setCell c v).progs = s.progs := rfl
@[simp] theorem State.setCell_agg (c : Nat) (v : Cell) : (s.setCell c v).agg = s.agg := rfl
@[simp] theorem State.setCell_ring (c : Nat) (v : Cell) : (s.setCell c v).ring = s.ring := rfl
@[simp] theorem State.setCell_mem (c : Nat) (v : Cell) : (s.setCell c v).mem = s.mem := rfl
@[simp] theorem State.setCell_ram (c : Nat) (v : Cell) : (s.setCell c v).ram = s.ram := rfl
@[simp] theorem State.setCell_fab (c : Nat) (v : Cell) : (s.setCell c v).fab = s.fab := rfl
@[simp] theorem State.setCell_sec (c : Nat) (v : Cell) : (s.setCell c v).sec = s.sec := rfl
@[simp] theorem State.setCell_pwr (c : Nat) (v : Cell) : (s.setCell c v).pwr = s.pwr := rfl
@[simp] theorem State.setCell_dbg (c : Nat) (v : Cell) : (s.setCell c v).dbg = s.dbg := rfl
@[simp] theorem State.setCell_perst (c : Nat) (v : Cell) : (s.setCell c v).perst = s.perst := rfl
@[simp] theorem State.setCell_coldDue (c : Nat) (v : Cell) : (s.setCell c v).coldDue = s.coldDue := rfl
@[simp] theorem State.setCell_warmAt (c : Nat) (v : Cell) : (s.setCell c v).warmAt = s.warmAt := rfl
@[simp] theorem State.setCell_out (c : Nat) (v : Cell) : (s.setCell c v).out = s.out := rfl
@[simp] theorem State.setCell_freeCtr (c : Nat) (v : Cell) : (s.setCell c v).freeCtr = s.freeCtr := rfl
@[simp] theorem State.setCell_pending (c : Nat) (v : Cell) : (s.setCell c v).pending = s.pending := rfl
@[simp] theorem State.setCell_waiting (c : Nat) (v : Cell) : (s.setCell c v).waiting = s.waiting := rfl
@[simp] theorem State.setCell_slot0 (c : Nat) (v : Cell) : (s.setCell c v).slot0 = s.slot0 := rfl
@[simp] theorem State.setCell_loads (c : Nat) (v : Cell) : (s.setCell c v).loads = s.loads := rfl
@[simp] theorem State.cell_setCell (c : Nat) (v : Cell) : (s.setCell c v).cell c = v := by
  simp [State.cell, State.setCell]

/-! ### setRound -/

@[simp] theorem State.setRound_hif (h : Nat) (v : Round) : (s.setRound h v).hif = s.hif := rfl
@[simp] theorem State.setRound_spn (h : Nat) (v : Round) : (s.setRound h v).spn = s.spn := rfl
@[simp] theorem State.setRound_jig (h : Nat) (v : Round) : (s.setRound h v).jig = s.jig := rfl
@[simp] theorem State.setRound_cells (h : Nat) (v : Round) : (s.setRound h v).cells = s.cells := rfl
@[simp] theorem State.setRound_progs (h : Nat) (v : Round) : (s.setRound h v).progs = s.progs := rfl
@[simp] theorem State.setRound_ring (h : Nat) (v : Round) : (s.setRound h v).ring = s.ring := rfl
@[simp] theorem State.setRound_mem (h : Nat) (v : Round) : (s.setRound h v).mem = s.mem := rfl
@[simp] theorem State.setRound_ram (h : Nat) (v : Round) : (s.setRound h v).ram = s.ram := rfl
@[simp] theorem State.setRound_fab (h : Nat) (v : Round) : (s.setRound h v).fab = s.fab := rfl
@[simp] theorem State.setRound_sec (h : Nat) (v : Round) : (s.setRound h v).sec = s.sec := rfl
@[simp] theorem State.setRound_pwr (h : Nat) (v : Round) : (s.setRound h v).pwr = s.pwr := rfl
@[simp] theorem State.setRound_dbg (h : Nat) (v : Round) : (s.setRound h v).dbg = s.dbg := rfl
@[simp] theorem State.setRound_perst (h : Nat) (v : Round) : (s.setRound h v).perst = s.perst := rfl
@[simp] theorem State.setRound_coldDue (h : Nat) (v : Round) : (s.setRound h v).coldDue = s.coldDue := rfl
@[simp] theorem State.setRound_warmAt (h : Nat) (v : Round) : (s.setRound h v).warmAt = s.warmAt := rfl
@[simp] theorem State.setRound_out (h : Nat) (v : Round) : (s.setRound h v).out = s.out := rfl
@[simp] theorem State.setRound_freeCtr (h : Nat) (v : Round) : (s.setRound h v).freeCtr = s.freeCtr := rfl
@[simp] theorem State.setRound_pending (h : Nat) (v : Round) : (s.setRound h v).pending = s.pending := rfl
@[simp] theorem State.setRound_waiting (h : Nat) (v : Round) : (s.setRound h v).waiting = s.waiting := rfl
@[simp] theorem State.setRound_slot0 (h : Nat) (v : Round) : (s.setRound h v).slot0 = s.slot0 := rfl
@[simp] theorem State.setRound_loads (h : Nat) (v : Round) : (s.setRound h v).loads = s.loads := rfl
@[simp] theorem State.round_setRound (h : Nat) (v : Round) : (s.setRound h v).round h = v := by
  simp [State.round, State.setRound]

/-! ### setBind -/

@[simp] theorem State.setBind_hif (e : Nat) (v : Bind) : (s.setBind e v).hif = s.hif := rfl
@[simp] theorem State.setBind_spn (e : Nat) (v : Bind) : (s.setBind e v).spn = s.spn := rfl
@[simp] theorem State.setBind_jig (e : Nat) (v : Bind) : (s.setBind e v).jig = s.jig := rfl
@[simp] theorem State.setBind_cells (e : Nat) (v : Bind) : (s.setBind e v).cells = s.cells := rfl
@[simp] theorem State.setBind_progs (e : Nat) (v : Bind) : (s.setBind e v).progs = s.progs := rfl
@[simp] theorem State.setBind_ring (e : Nat) (v : Bind) : (s.setBind e v).ring = s.ring := rfl
@[simp] theorem State.setBind_mem (e : Nat) (v : Bind) : (s.setBind e v).mem = s.mem := rfl
@[simp] theorem State.setBind_ram (e : Nat) (v : Bind) : (s.setBind e v).ram = s.ram := rfl
@[simp] theorem State.setBind_fab (e : Nat) (v : Bind) : (s.setBind e v).fab = s.fab := rfl
@[simp] theorem State.setBind_sec (e : Nat) (v : Bind) : (s.setBind e v).sec = s.sec := rfl
@[simp] theorem State.setBind_pwr (e : Nat) (v : Bind) : (s.setBind e v).pwr = s.pwr := rfl
@[simp] theorem State.setBind_dbg (e : Nat) (v : Bind) : (s.setBind e v).dbg = s.dbg := rfl
@[simp] theorem State.setBind_perst (e : Nat) (v : Bind) : (s.setBind e v).perst = s.perst := rfl
@[simp] theorem State.setBind_coldDue (e : Nat) (v : Bind) : (s.setBind e v).coldDue = s.coldDue := rfl
@[simp] theorem State.setBind_warmAt (e : Nat) (v : Bind) : (s.setBind e v).warmAt = s.warmAt := rfl
@[simp] theorem State.setBind_out (e : Nat) (v : Bind) : (s.setBind e v).out = s.out := rfl
@[simp] theorem State.setBind_freeCtr (e : Nat) (v : Bind) : (s.setBind e v).freeCtr = s.freeCtr := rfl
@[simp] theorem State.setBind_pending (e : Nat) (v : Bind) : (s.setBind e v).pending = s.pending := rfl
@[simp] theorem State.setBind_waiting (e : Nat) (v : Bind) : (s.setBind e v).waiting = s.waiting := rfl
@[simp] theorem State.setBind_slot0 (e : Nat) (v : Bind) : (s.setBind e v).slot0 = s.slot0 := rfl
@[simp] theorem State.setBind_loads (e : Nat) (v : Bind) : (s.setBind e v).loads = s.loads := rfl
@[simp] theorem State.bind_setBind (e : Nat) (v : Bind) : (s.setBind e v).bind e = v := by
  simp [State.bind, State.setBind]

/-! ### setTenant -/

@[simp] theorem State.setTenant_hif (t : Nat) (v : Tenant) : (s.setTenant t v).hif = s.hif := rfl
@[simp] theorem State.setTenant_spn (t : Nat) (v : Tenant) : (s.setTenant t v).spn = s.spn := rfl
@[simp] theorem State.setTenant_jig (t : Nat) (v : Tenant) : (s.setTenant t v).jig = s.jig := rfl
@[simp] theorem State.setTenant_cells (t : Nat) (v : Tenant) : (s.setTenant t v).cells = s.cells := rfl
@[simp] theorem State.setTenant_progs (t : Nat) (v : Tenant) : (s.setTenant t v).progs = s.progs := rfl
@[simp] theorem State.setTenant_agg (t : Nat) (v : Tenant) : (s.setTenant t v).agg = s.agg := rfl
@[simp] theorem State.setTenant_ring (t : Nat) (v : Tenant) : (s.setTenant t v).ring = s.ring := rfl
@[simp] theorem State.setTenant_mem (t : Nat) (v : Tenant) : (s.setTenant t v).mem = s.mem := rfl
@[simp] theorem State.setTenant_ram (t : Nat) (v : Tenant) : (s.setTenant t v).ram = s.ram := rfl
@[simp] theorem State.setTenant_fab (t : Nat) (v : Tenant) : (s.setTenant t v).fab = s.fab := rfl
@[simp] theorem State.setTenant_pwr (t : Nat) (v : Tenant) : (s.setTenant t v).pwr = s.pwr := rfl
@[simp] theorem State.setTenant_dbg (t : Nat) (v : Tenant) : (s.setTenant t v).dbg = s.dbg := rfl
@[simp] theorem State.setTenant_perst (t : Nat) (v : Tenant) : (s.setTenant t v).perst = s.perst := rfl
@[simp] theorem State.setTenant_coldDue (t : Nat) (v : Tenant) : (s.setTenant t v).coldDue = s.coldDue := rfl
@[simp] theorem State.setTenant_warmAt (t : Nat) (v : Tenant) : (s.setTenant t v).warmAt = s.warmAt := rfl
@[simp] theorem State.setTenant_out (t : Nat) (v : Tenant) : (s.setTenant t v).out = s.out := rfl
@[simp] theorem State.setTenant_freeCtr (t : Nat) (v : Tenant) : (s.setTenant t v).freeCtr = s.freeCtr := rfl
@[simp] theorem State.setTenant_pending (t : Nat) (v : Tenant) : (s.setTenant t v).pending = s.pending := rfl
@[simp] theorem State.setTenant_waiting (t : Nat) (v : Tenant) : (s.setTenant t v).waiting = s.waiting := rfl
@[simp] theorem State.setTenant_slot0 (t : Nat) (v : Tenant) : (s.setTenant t v).slot0 = s.slot0 := rfl
@[simp] theorem State.setTenant_loads (t : Nat) (v : Tenant) : (s.setTenant t v).loads = s.loads := rfl
@[simp] theorem State.tenant_setTenant (t : Nat) (v : Tenant) : (s.setTenant t v).tenant t = v := by
  simp [State.tenant, State.setTenant]

/-! ### setKey -/

@[simp] theorem State.setKey_hif (i : Nat) (v : Key) : (s.setKey i v).hif = s.hif := rfl
@[simp] theorem State.setKey_spn (i : Nat) (v : Key) : (s.setKey i v).spn = s.spn := rfl
@[simp] theorem State.setKey_jig (i : Nat) (v : Key) : (s.setKey i v).jig = s.jig := rfl
@[simp] theorem State.setKey_cells (i : Nat) (v : Key) : (s.setKey i v).cells = s.cells := rfl
@[simp] theorem State.setKey_progs (i : Nat) (v : Key) : (s.setKey i v).progs = s.progs := rfl
@[simp] theorem State.setKey_agg (i : Nat) (v : Key) : (s.setKey i v).agg = s.agg := rfl
@[simp] theorem State.setKey_ring (i : Nat) (v : Key) : (s.setKey i v).ring = s.ring := rfl
@[simp] theorem State.setKey_mem (i : Nat) (v : Key) : (s.setKey i v).mem = s.mem := rfl
@[simp] theorem State.setKey_ram (i : Nat) (v : Key) : (s.setKey i v).ram = s.ram := rfl
@[simp] theorem State.setKey_fab (i : Nat) (v : Key) : (s.setKey i v).fab = s.fab := rfl
@[simp] theorem State.setKey_pwr (i : Nat) (v : Key) : (s.setKey i v).pwr = s.pwr := rfl
@[simp] theorem State.setKey_dbg (i : Nat) (v : Key) : (s.setKey i v).dbg = s.dbg := rfl
@[simp] theorem State.setKey_perst (i : Nat) (v : Key) : (s.setKey i v).perst = s.perst := rfl
@[simp] theorem State.setKey_coldDue (i : Nat) (v : Key) : (s.setKey i v).coldDue = s.coldDue := rfl
@[simp] theorem State.setKey_warmAt (i : Nat) (v : Key) : (s.setKey i v).warmAt = s.warmAt := rfl
@[simp] theorem State.setKey_out (i : Nat) (v : Key) : (s.setKey i v).out = s.out := rfl
@[simp] theorem State.setKey_freeCtr (i : Nat) (v : Key) : (s.setKey i v).freeCtr = s.freeCtr := rfl
@[simp] theorem State.setKey_pending (i : Nat) (v : Key) : (s.setKey i v).pending = s.pending := rfl
@[simp] theorem State.setKey_waiting (i : Nat) (v : Key) : (s.setKey i v).waiting = s.waiting := rfl
@[simp] theorem State.setKey_slot0 (i : Nat) (v : Key) : (s.setKey i v).slot0 = s.slot0 := rfl
@[simp] theorem State.setKey_loads (i : Nat) (v : Key) : (s.setKey i v).loads = s.loads := rfl
@[simp] theorem State.key_setKey (i : Nat) (v : Key) : (s.setKey i v).key i = v := by
  simp [State.key, State.setKey]

/-! ### setQueue -/

@[simp] theorem State.setQueue_spn (f q : Nat) (v : QPair) : (s.setQueue f q v).spn = s.spn := rfl
@[simp] theorem State.setQueue_jig (f q : Nat) (v : QPair) : (s.setQueue f q v).jig = s.jig := rfl
@[simp] theorem State.setQueue_cells (f q : Nat) (v : QPair) : (s.setQueue f q v).cells = s.cells := rfl
@[simp] theorem State.setQueue_progs (f q : Nat) (v : QPair) : (s.setQueue f q v).progs = s.progs := rfl
@[simp] theorem State.setQueue_agg (f q : Nat) (v : QPair) : (s.setQueue f q v).agg = s.agg := rfl
@[simp] theorem State.setQueue_ring (f q : Nat) (v : QPair) : (s.setQueue f q v).ring = s.ring := rfl
@[simp] theorem State.setQueue_mem (f q : Nat) (v : QPair) : (s.setQueue f q v).mem = s.mem := rfl
@[simp] theorem State.setQueue_ram (f q : Nat) (v : QPair) : (s.setQueue f q v).ram = s.ram := rfl
@[simp] theorem State.setQueue_fab (f q : Nat) (v : QPair) : (s.setQueue f q v).fab = s.fab := rfl
@[simp] theorem State.setQueue_sec (f q : Nat) (v : QPair) : (s.setQueue f q v).sec = s.sec := rfl
@[simp] theorem State.setQueue_pwr (f q : Nat) (v : QPair) : (s.setQueue f q v).pwr = s.pwr := rfl
@[simp] theorem State.setQueue_dbg (f q : Nat) (v : QPair) : (s.setQueue f q v).dbg = s.dbg := rfl
@[simp] theorem State.setQueue_perst (f q : Nat) (v : QPair) : (s.setQueue f q v).perst = s.perst := rfl
@[simp] theorem State.setQueue_coldDue (f q : Nat) (v : QPair) : (s.setQueue f q v).coldDue = s.coldDue := rfl
@[simp] theorem State.setQueue_warmAt (f q : Nat) (v : QPair) : (s.setQueue f q v).warmAt = s.warmAt := rfl
@[simp] theorem State.setQueue_out (f q : Nat) (v : QPair) : (s.setQueue f q v).out = s.out := rfl
@[simp] theorem State.setQueue_freeCtr (f q : Nat) (v : QPair) : (s.setQueue f q v).freeCtr = s.freeCtr := rfl
@[simp] theorem State.setQueue_pending (f q : Nat) (v : QPair) : (s.setQueue f q v).pending = s.pending := rfl
@[simp] theorem State.setQueue_waiting (f q : Nat) (v : QPair) : (s.setQueue f q v).waiting = s.waiting := rfl
@[simp] theorem State.setQueue_slot0 (f q : Nat) (v : QPair) : (s.setQueue f q v).slot0 = s.slot0 := rfl
@[simp] theorem State.setQueue_loads (f q : Nat) (v : QPair) : (s.setQueue f q v).loads = s.loads := rfl
@[simp] theorem State.queue_setQueue (f q : Nat) (v : QPair) : (s.setQueue f q v).queue f q = v := by
  simp [State.queue, State.setQueue]

/-! ### setShv -/

@[simp] theorem State.setShv_hif (q : Nat) (v : ShvQueue) : (s.setShv q v).hif = s.hif := rfl
@[simp] theorem State.setShv_spn (q : Nat) (v : ShvQueue) : (s.setShv q v).spn = s.spn := rfl
@[simp] theorem State.setShv_jig (q : Nat) (v : ShvQueue) : (s.setShv q v).jig = s.jig := rfl
@[simp] theorem State.setShv_cells (q : Nat) (v : ShvQueue) : (s.setShv q v).cells = s.cells := rfl
@[simp] theorem State.setShv_progs (q : Nat) (v : ShvQueue) : (s.setShv q v).progs = s.progs := rfl
@[simp] theorem State.setShv_agg (q : Nat) (v : ShvQueue) : (s.setShv q v).agg = s.agg := rfl
@[simp] theorem State.setShv_ring (q : Nat) (v : ShvQueue) : (s.setShv q v).ring = s.ring := rfl
@[simp] theorem State.setShv_mem (q : Nat) (v : ShvQueue) : (s.setShv q v).mem = s.mem := rfl
@[simp] theorem State.setShv_ram (q : Nat) (v : ShvQueue) : (s.setShv q v).ram = s.ram := rfl
@[simp] theorem State.setShv_fab (q : Nat) (v : ShvQueue) : (s.setShv q v).fab = s.fab := rfl
@[simp] theorem State.setShv_sec (q : Nat) (v : ShvQueue) : (s.setShv q v).sec = s.sec := rfl
@[simp] theorem State.setShv_pwr (q : Nat) (v : ShvQueue) : (s.setShv q v).pwr = s.pwr := rfl
@[simp] theorem State.setShv_perst (q : Nat) (v : ShvQueue) : (s.setShv q v).perst = s.perst := rfl
@[simp] theorem State.setShv_coldDue (q : Nat) (v : ShvQueue) : (s.setShv q v).coldDue = s.coldDue := rfl
@[simp] theorem State.setShv_warmAt (q : Nat) (v : ShvQueue) : (s.setShv q v).warmAt = s.warmAt := rfl
@[simp] theorem State.setShv_out (q : Nat) (v : ShvQueue) : (s.setShv q v).out = s.out := rfl
@[simp] theorem State.setShv_freeCtr (q : Nat) (v : ShvQueue) : (s.setShv q v).freeCtr = s.freeCtr := rfl
@[simp] theorem State.setShv_pending (q : Nat) (v : ShvQueue) : (s.setShv q v).pending = s.pending := rfl
@[simp] theorem State.setShv_waiting (q : Nat) (v : ShvQueue) : (s.setShv q v).waiting = s.waiting := rfl
@[simp] theorem State.setShv_slot0 (q : Nat) (v : ShvQueue) : (s.setShv q v).slot0 = s.slot0 := rfl
@[simp] theorem State.setShv_loads (q : Nat) (v : ShvQueue) : (s.setShv q v).loads = s.loads := rfl
@[simp] theorem State.shv_setShv (q : Nat) (v : ShvQueue) : (s.setShv q v).shv q = v := by
  simp [State.shv, State.setShv]

/-! ### setPort -/

@[simp] theorem State.setPort_hif (p : Nat) (v : Port) : (s.setPort p v).hif = s.hif := rfl
@[simp] theorem State.setPort_spn (p : Nat) (v : Port) : (s.setPort p v).spn = s.spn := rfl
@[simp] theorem State.setPort_jig (p : Nat) (v : Port) : (s.setPort p v).jig = s.jig := rfl
@[simp] theorem State.setPort_cells (p : Nat) (v : Port) : (s.setPort p v).cells = s.cells := rfl
@[simp] theorem State.setPort_progs (p : Nat) (v : Port) : (s.setPort p v).progs = s.progs := rfl
@[simp] theorem State.setPort_agg (p : Nat) (v : Port) : (s.setPort p v).agg = s.agg := rfl
@[simp] theorem State.setPort_ring (p : Nat) (v : Port) : (s.setPort p v).ring = s.ring := rfl
@[simp] theorem State.setPort_mem (p : Nat) (v : Port) : (s.setPort p v).mem = s.mem := rfl
@[simp] theorem State.setPort_ram (p : Nat) (v : Port) : (s.setPort p v).ram = s.ram := rfl
@[simp] theorem State.setPort_sec (p : Nat) (v : Port) : (s.setPort p v).sec = s.sec := rfl
@[simp] theorem State.setPort_pwr (p : Nat) (v : Port) : (s.setPort p v).pwr = s.pwr := rfl
@[simp] theorem State.setPort_dbg (p : Nat) (v : Port) : (s.setPort p v).dbg = s.dbg := rfl
@[simp] theorem State.setPort_perst (p : Nat) (v : Port) : (s.setPort p v).perst = s.perst := rfl
@[simp] theorem State.setPort_coldDue (p : Nat) (v : Port) : (s.setPort p v).coldDue = s.coldDue := rfl
@[simp] theorem State.setPort_warmAt (p : Nat) (v : Port) : (s.setPort p v).warmAt = s.warmAt := rfl
@[simp] theorem State.setPort_out (p : Nat) (v : Port) : (s.setPort p v).out = s.out := rfl
@[simp] theorem State.setPort_freeCtr (p : Nat) (v : Port) : (s.setPort p v).freeCtr = s.freeCtr := rfl
@[simp] theorem State.setPort_pending (p : Nat) (v : Port) : (s.setPort p v).pending = s.pending := rfl
@[simp] theorem State.setPort_waiting (p : Nat) (v : Port) : (s.setPort p v).waiting = s.waiting := rfl
@[simp] theorem State.setPort_slot0 (p : Nat) (v : Port) : (s.setPort p v).slot0 = s.slot0 := rfl
@[simp] theorem State.setPort_loads (p : Nat) (v : Port) : (s.setPort p v).loads = s.loads := rfl
@[simp] theorem State.port_setPort (p : Nat) (v : Port) : (s.setPort p v).port p = v := by
  simp [State.port, State.setPort]

/-! ### setEp -/

@[simp] theorem State.setEp_hif (e : Nat) (v : Endpoint) : (s.setEp e v).hif = s.hif := rfl
@[simp] theorem State.setEp_spn (e : Nat) (v : Endpoint) : (s.setEp e v).spn = s.spn := rfl
@[simp] theorem State.setEp_jig (e : Nat) (v : Endpoint) : (s.setEp e v).jig = s.jig := rfl
@[simp] theorem State.setEp_cells (e : Nat) (v : Endpoint) : (s.setEp e v).cells = s.cells := rfl
@[simp] theorem State.setEp_progs (e : Nat) (v : Endpoint) : (s.setEp e v).progs = s.progs := rfl
@[simp] theorem State.setEp_agg (e : Nat) (v : Endpoint) : (s.setEp e v).agg = s.agg := rfl
@[simp] theorem State.setEp_ring (e : Nat) (v : Endpoint) : (s.setEp e v).ring = s.ring := rfl
@[simp] theorem State.setEp_mem (e : Nat) (v : Endpoint) : (s.setEp e v).mem = s.mem := rfl
@[simp] theorem State.setEp_ram (e : Nat) (v : Endpoint) : (s.setEp e v).ram = s.ram := rfl
@[simp] theorem State.setEp_sec (e : Nat) (v : Endpoint) : (s.setEp e v).sec = s.sec := rfl
@[simp] theorem State.setEp_pwr (e : Nat) (v : Endpoint) : (s.setEp e v).pwr = s.pwr := rfl
@[simp] theorem State.setEp_dbg (e : Nat) (v : Endpoint) : (s.setEp e v).dbg = s.dbg := rfl
@[simp] theorem State.setEp_perst (e : Nat) (v : Endpoint) : (s.setEp e v).perst = s.perst := rfl
@[simp] theorem State.setEp_coldDue (e : Nat) (v : Endpoint) : (s.setEp e v).coldDue = s.coldDue := rfl
@[simp] theorem State.setEp_warmAt (e : Nat) (v : Endpoint) : (s.setEp e v).warmAt = s.warmAt := rfl
@[simp] theorem State.setEp_out (e : Nat) (v : Endpoint) : (s.setEp e v).out = s.out := rfl
@[simp] theorem State.setEp_freeCtr (e : Nat) (v : Endpoint) : (s.setEp e v).freeCtr = s.freeCtr := rfl
@[simp] theorem State.setEp_pending (e : Nat) (v : Endpoint) : (s.setEp e v).pending = s.pending := rfl
@[simp] theorem State.setEp_waiting (e : Nat) (v : Endpoint) : (s.setEp e v).waiting = s.waiting := rfl
@[simp] theorem State.setEp_slot0 (e : Nat) (v : Endpoint) : (s.setEp e v).slot0 = s.slot0 := rfl
@[simp] theorem State.setEp_loads (e : Nat) (v : Endpoint) : (s.setEp e v).loads = s.loads := rfl
@[simp] theorem State.ep_setEp (e : Nat) (v : Endpoint) : (s.setEp e v).ep e = v := by
  simp [State.ep, State.setEp]

/-! ### setFabTenant -/

@[simp] theorem State.setFabTenant_hif (t : Nat) (v : FabTenant) : (s.setFabTenant t v).hif = s.hif := rfl
@[simp] theorem State.setFabTenant_spn (t : Nat) (v : FabTenant) : (s.setFabTenant t v).spn = s.spn := rfl
@[simp] theorem State.setFabTenant_jig (t : Nat) (v : FabTenant) : (s.setFabTenant t v).jig = s.jig := rfl
@[simp] theorem State.setFabTenant_cells (t : Nat) (v : FabTenant) : (s.setFabTenant t v).cells = s.cells := rfl
@[simp] theorem State.setFabTenant_progs (t : Nat) (v : FabTenant) : (s.setFabTenant t v).progs = s.progs := rfl
@[simp] theorem State.setFabTenant_agg (t : Nat) (v : FabTenant) : (s.setFabTenant t v).agg = s.agg := rfl
@[simp] theorem State.setFabTenant_ring (t : Nat) (v : FabTenant) : (s.setFabTenant t v).ring = s.ring := rfl
@[simp] theorem State.setFabTenant_mem (t : Nat) (v : FabTenant) : (s.setFabTenant t v).mem = s.mem := rfl
@[simp] theorem State.setFabTenant_ram (t : Nat) (v : FabTenant) : (s.setFabTenant t v).ram = s.ram := rfl
@[simp] theorem State.setFabTenant_sec (t : Nat) (v : FabTenant) : (s.setFabTenant t v).sec = s.sec := rfl
@[simp] theorem State.setFabTenant_pwr (t : Nat) (v : FabTenant) : (s.setFabTenant t v).pwr = s.pwr := rfl
@[simp] theorem State.setFabTenant_dbg (t : Nat) (v : FabTenant) : (s.setFabTenant t v).dbg = s.dbg := rfl
@[simp] theorem State.setFabTenant_perst (t : Nat) (v : FabTenant) : (s.setFabTenant t v).perst = s.perst := rfl
@[simp] theorem State.setFabTenant_coldDue (t : Nat) (v : FabTenant) : (s.setFabTenant t v).coldDue = s.coldDue := rfl
@[simp] theorem State.setFabTenant_warmAt (t : Nat) (v : FabTenant) : (s.setFabTenant t v).warmAt = s.warmAt := rfl
@[simp] theorem State.setFabTenant_out (t : Nat) (v : FabTenant) : (s.setFabTenant t v).out = s.out := rfl
@[simp] theorem State.setFabTenant_freeCtr (t : Nat) (v : FabTenant) : (s.setFabTenant t v).freeCtr = s.freeCtr := rfl
@[simp] theorem State.setFabTenant_pending (t : Nat) (v : FabTenant) : (s.setFabTenant t v).pending = s.pending := rfl
@[simp] theorem State.setFabTenant_waiting (t : Nat) (v : FabTenant) : (s.setFabTenant t v).waiting = s.waiting := rfl
@[simp] theorem State.setFabTenant_slot0 (t : Nat) (v : FabTenant) : (s.setFabTenant t v).slot0 = s.slot0 := rfl
@[simp] theorem State.setFabTenant_loads (t : Nat) (v : FabTenant) : (s.setFabTenant t v).loads = s.loads := rfl
@[simp] theorem State.fabTenant_setFabTenant (t : Nat) (v : FabTenant) : (s.setFabTenant t v).fabTenant t = v := by
  simp [State.fabTenant, State.setFabTenant]

/-! ### setMapRegs -/

@[simp] theorem State.setMapRegs_hif (t : Nat) (v : MapRegs) : (s.setMapRegs t v).hif = s.hif := rfl
@[simp] theorem State.setMapRegs_spn (t : Nat) (v : MapRegs) : (s.setMapRegs t v).spn = s.spn := rfl
@[simp] theorem State.setMapRegs_jig (t : Nat) (v : MapRegs) : (s.setMapRegs t v).jig = s.jig := rfl
@[simp] theorem State.setMapRegs_cells (t : Nat) (v : MapRegs) : (s.setMapRegs t v).cells = s.cells := rfl
@[simp] theorem State.setMapRegs_progs (t : Nat) (v : MapRegs) : (s.setMapRegs t v).progs = s.progs := rfl
@[simp] theorem State.setMapRegs_agg (t : Nat) (v : MapRegs) : (s.setMapRegs t v).agg = s.agg := rfl
@[simp] theorem State.setMapRegs_ring (t : Nat) (v : MapRegs) : (s.setMapRegs t v).ring = s.ring := rfl
@[simp] theorem State.setMapRegs_ram (t : Nat) (v : MapRegs) : (s.setMapRegs t v).ram = s.ram := rfl
@[simp] theorem State.setMapRegs_fab (t : Nat) (v : MapRegs) : (s.setMapRegs t v).fab = s.fab := rfl
@[simp] theorem State.setMapRegs_sec (t : Nat) (v : MapRegs) : (s.setMapRegs t v).sec = s.sec := rfl
@[simp] theorem State.setMapRegs_pwr (t : Nat) (v : MapRegs) : (s.setMapRegs t v).pwr = s.pwr := rfl
@[simp] theorem State.setMapRegs_dbg (t : Nat) (v : MapRegs) : (s.setMapRegs t v).dbg = s.dbg := rfl
@[simp] theorem State.setMapRegs_perst (t : Nat) (v : MapRegs) : (s.setMapRegs t v).perst = s.perst := rfl
@[simp] theorem State.setMapRegs_coldDue (t : Nat) (v : MapRegs) : (s.setMapRegs t v).coldDue = s.coldDue := rfl
@[simp] theorem State.setMapRegs_warmAt (t : Nat) (v : MapRegs) : (s.setMapRegs t v).warmAt = s.warmAt := rfl
@[simp] theorem State.setMapRegs_out (t : Nat) (v : MapRegs) : (s.setMapRegs t v).out = s.out := rfl
@[simp] theorem State.setMapRegs_freeCtr (t : Nat) (v : MapRegs) : (s.setMapRegs t v).freeCtr = s.freeCtr := rfl
@[simp] theorem State.setMapRegs_pending (t : Nat) (v : MapRegs) : (s.setMapRegs t v).pending = s.pending := rfl
@[simp] theorem State.setMapRegs_waiting (t : Nat) (v : MapRegs) : (s.setMapRegs t v).waiting = s.waiting := rfl
@[simp] theorem State.setMapRegs_slot0 (t : Nat) (v : MapRegs) : (s.setMapRegs t v).slot0 = s.slot0 := rfl
@[simp] theorem State.setMapRegs_loads (t : Nat) (v : MapRegs) : (s.setMapRegs t v).loads = s.loads := rfl
@[simp] theorem State.mapRegs_setMapRegs (t : Nat) (v : MapRegs) : (s.setMapRegs t v).mapRegs t = v := by
  simp [State.mapRegs, State.setMapRegs]

/-! ### setTierKey -/

@[simp] theorem State.setTierKey_hif (t i : Nat) (v : TierKey) : (s.setTierKey t i v).hif = s.hif := rfl
@[simp] theorem State.setTierKey_spn (t i : Nat) (v : TierKey) : (s.setTierKey t i v).spn = s.spn := rfl
@[simp] theorem State.setTierKey_jig (t i : Nat) (v : TierKey) : (s.setTierKey t i v).jig = s.jig := rfl
@[simp] theorem State.setTierKey_cells (t i : Nat) (v : TierKey) : (s.setTierKey t i v).cells = s.cells := rfl
@[simp] theorem State.setTierKey_progs (t i : Nat) (v : TierKey) : (s.setTierKey t i v).progs = s.progs := rfl
@[simp] theorem State.setTierKey_agg (t i : Nat) (v : TierKey) : (s.setTierKey t i v).agg = s.agg := rfl
@[simp] theorem State.setTierKey_ring (t i : Nat) (v : TierKey) : (s.setTierKey t i v).ring = s.ring := rfl
@[simp] theorem State.setTierKey_ram (t i : Nat) (v : TierKey) : (s.setTierKey t i v).ram = s.ram := rfl
@[simp] theorem State.setTierKey_fab (t i : Nat) (v : TierKey) : (s.setTierKey t i v).fab = s.fab := rfl
@[simp] theorem State.setTierKey_sec (t i : Nat) (v : TierKey) : (s.setTierKey t i v).sec = s.sec := rfl
@[simp] theorem State.setTierKey_pwr (t i : Nat) (v : TierKey) : (s.setTierKey t i v).pwr = s.pwr := rfl
@[simp] theorem State.setTierKey_dbg (t i : Nat) (v : TierKey) : (s.setTierKey t i v).dbg = s.dbg := rfl
@[simp] theorem State.setTierKey_perst (t i : Nat) (v : TierKey) : (s.setTierKey t i v).perst = s.perst := rfl
@[simp] theorem State.setTierKey_coldDue (t i : Nat) (v : TierKey) : (s.setTierKey t i v).coldDue = s.coldDue := rfl
@[simp] theorem State.setTierKey_warmAt (t i : Nat) (v : TierKey) : (s.setTierKey t i v).warmAt = s.warmAt := rfl
@[simp] theorem State.setTierKey_out (t i : Nat) (v : TierKey) : (s.setTierKey t i v).out = s.out := rfl
@[simp] theorem State.setTierKey_freeCtr (t i : Nat) (v : TierKey) : (s.setTierKey t i v).freeCtr = s.freeCtr := rfl
@[simp] theorem State.setTierKey_pending (t i : Nat) (v : TierKey) : (s.setTierKey t i v).pending = s.pending := rfl
@[simp] theorem State.setTierKey_waiting (t i : Nat) (v : TierKey) : (s.setTierKey t i v).waiting = s.waiting := rfl
@[simp] theorem State.setTierKey_slot0 (t i : Nat) (v : TierKey) : (s.setTierKey t i v).slot0 = s.slot0 := rfl
@[simp] theorem State.setTierKey_loads (t i : Nat) (v : TierKey) : (s.setTierKey t i v).loads = s.loads := rfl
@[simp] theorem State.tierKey_setTierKey (t i : Nat) (v : TierKey) : (s.setTierKey t i v).tierKey t i = v := by
  simp [State.tierKey, State.setTierKey]

/-! ### setWork -/

@[simp] theorem State.setWork_hif (t d : Nat) (v : List DmaWork) : (s.setWork t d v).hif = s.hif := rfl
@[simp] theorem State.setWork_spn (t d : Nat) (v : List DmaWork) : (s.setWork t d v).spn = s.spn := rfl
@[simp] theorem State.setWork_jig (t d : Nat) (v : List DmaWork) : (s.setWork t d v).jig = s.jig := rfl
@[simp] theorem State.setWork_cells (t d : Nat) (v : List DmaWork) : (s.setWork t d v).cells = s.cells := rfl
@[simp] theorem State.setWork_progs (t d : Nat) (v : List DmaWork) : (s.setWork t d v).progs = s.progs := rfl
@[simp] theorem State.setWork_agg (t d : Nat) (v : List DmaWork) : (s.setWork t d v).agg = s.agg := rfl
@[simp] theorem State.setWork_ring (t d : Nat) (v : List DmaWork) : (s.setWork t d v).ring = s.ring := rfl
@[simp] theorem State.setWork_ram (t d : Nat) (v : List DmaWork) : (s.setWork t d v).ram = s.ram := rfl
@[simp] theorem State.setWork_fab (t d : Nat) (v : List DmaWork) : (s.setWork t d v).fab = s.fab := rfl
@[simp] theorem State.setWork_sec (t d : Nat) (v : List DmaWork) : (s.setWork t d v).sec = s.sec := rfl
@[simp] theorem State.setWork_pwr (t d : Nat) (v : List DmaWork) : (s.setWork t d v).pwr = s.pwr := rfl
@[simp] theorem State.setWork_dbg (t d : Nat) (v : List DmaWork) : (s.setWork t d v).dbg = s.dbg := rfl
@[simp] theorem State.setWork_perst (t d : Nat) (v : List DmaWork) : (s.setWork t d v).perst = s.perst := rfl
@[simp] theorem State.setWork_coldDue (t d : Nat) (v : List DmaWork) : (s.setWork t d v).coldDue = s.coldDue := rfl
@[simp] theorem State.setWork_warmAt (t d : Nat) (v : List DmaWork) : (s.setWork t d v).warmAt = s.warmAt := rfl
@[simp] theorem State.setWork_out (t d : Nat) (v : List DmaWork) : (s.setWork t d v).out = s.out := rfl
@[simp] theorem State.setWork_freeCtr (t d : Nat) (v : List DmaWork) : (s.setWork t d v).freeCtr = s.freeCtr := rfl
@[simp] theorem State.setWork_pending (t d : Nat) (v : List DmaWork) : (s.setWork t d v).pending = s.pending := rfl
@[simp] theorem State.setWork_waiting (t d : Nat) (v : List DmaWork) : (s.setWork t d v).waiting = s.waiting := rfl
@[simp] theorem State.setWork_slot0 (t d : Nat) (v : List DmaWork) : (s.setWork t d v).slot0 = s.slot0 := rfl
@[simp] theorem State.setWork_loads (t d : Nat) (v : List DmaWork) : (s.setWork t d v).loads = s.loads := rfl
@[simp] theorem State.work_setWork (t d : Nat) (v : List DmaWork) : (s.setWork t d v).work t d = v := by
  simp [State.work, State.setWork]

/-! ### setParked -/

@[simp] theorem State.setParked_hif (t d : Nat) (v : Parked) : (s.setParked t d v).hif = s.hif := rfl
@[simp] theorem State.setParked_spn (t d : Nat) (v : Parked) : (s.setParked t d v).spn = s.spn := rfl
@[simp] theorem State.setParked_jig (t d : Nat) (v : Parked) : (s.setParked t d v).jig = s.jig := rfl
@[simp] theorem State.setParked_cells (t d : Nat) (v : Parked) : (s.setParked t d v).cells = s.cells := rfl
@[simp] theorem State.setParked_progs (t d : Nat) (v : Parked) : (s.setParked t d v).progs = s.progs := rfl
@[simp] theorem State.setParked_agg (t d : Nat) (v : Parked) : (s.setParked t d v).agg = s.agg := rfl
@[simp] theorem State.setParked_ring (t d : Nat) (v : Parked) : (s.setParked t d v).ring = s.ring := rfl
@[simp] theorem State.setParked_ram (t d : Nat) (v : Parked) : (s.setParked t d v).ram = s.ram := rfl
@[simp] theorem State.setParked_fab (t d : Nat) (v : Parked) : (s.setParked t d v).fab = s.fab := rfl
@[simp] theorem State.setParked_sec (t d : Nat) (v : Parked) : (s.setParked t d v).sec = s.sec := rfl
@[simp] theorem State.setParked_pwr (t d : Nat) (v : Parked) : (s.setParked t d v).pwr = s.pwr := rfl
@[simp] theorem State.setParked_dbg (t d : Nat) (v : Parked) : (s.setParked t d v).dbg = s.dbg := rfl
@[simp] theorem State.setParked_perst (t d : Nat) (v : Parked) : (s.setParked t d v).perst = s.perst := rfl
@[simp] theorem State.setParked_coldDue (t d : Nat) (v : Parked) : (s.setParked t d v).coldDue = s.coldDue := rfl
@[simp] theorem State.setParked_warmAt (t d : Nat) (v : Parked) : (s.setParked t d v).warmAt = s.warmAt := rfl
@[simp] theorem State.setParked_out (t d : Nat) (v : Parked) : (s.setParked t d v).out = s.out := rfl
@[simp] theorem State.setParked_freeCtr (t d : Nat) (v : Parked) : (s.setParked t d v).freeCtr = s.freeCtr := rfl
@[simp] theorem State.setParked_pending (t d : Nat) (v : Parked) : (s.setParked t d v).pending = s.pending := rfl
@[simp] theorem State.setParked_waiting (t d : Nat) (v : Parked) : (s.setParked t d v).waiting = s.waiting := rfl
@[simp] theorem State.setParked_slot0 (t d : Nat) (v : Parked) : (s.setParked t d v).slot0 = s.slot0 := rfl
@[simp] theorem State.setParked_loads (t d : Nat) (v : Parked) : (s.setParked t d v).loads = s.loads := rfl
@[simp] theorem State.parkedAt_setParked (t d : Nat) (v : Parked) : (s.setParked t d v).parkedAt t d = v := by
  simp [State.parkedAt, State.setParked]

/-! ### setEngine -/

@[simp] theorem State.setEngine_hif (d : Nat) (v : DmaEng) : (s.setEngine d v).hif = s.hif := rfl
@[simp] theorem State.setEngine_spn (d : Nat) (v : DmaEng) : (s.setEngine d v).spn = s.spn := rfl
@[simp] theorem State.setEngine_jig (d : Nat) (v : DmaEng) : (s.setEngine d v).jig = s.jig := rfl
@[simp] theorem State.setEngine_cells (d : Nat) (v : DmaEng) : (s.setEngine d v).cells = s.cells := rfl
@[simp] theorem State.setEngine_progs (d : Nat) (v : DmaEng) : (s.setEngine d v).progs = s.progs := rfl
@[simp] theorem State.setEngine_agg (d : Nat) (v : DmaEng) : (s.setEngine d v).agg = s.agg := rfl
@[simp] theorem State.setEngine_ring (d : Nat) (v : DmaEng) : (s.setEngine d v).ring = s.ring := rfl
@[simp] theorem State.setEngine_ram (d : Nat) (v : DmaEng) : (s.setEngine d v).ram = s.ram := rfl
@[simp] theorem State.setEngine_fab (d : Nat) (v : DmaEng) : (s.setEngine d v).fab = s.fab := rfl
@[simp] theorem State.setEngine_sec (d : Nat) (v : DmaEng) : (s.setEngine d v).sec = s.sec := rfl
@[simp] theorem State.setEngine_pwr (d : Nat) (v : DmaEng) : (s.setEngine d v).pwr = s.pwr := rfl
@[simp] theorem State.setEngine_dbg (d : Nat) (v : DmaEng) : (s.setEngine d v).dbg = s.dbg := rfl
@[simp] theorem State.setEngine_perst (d : Nat) (v : DmaEng) : (s.setEngine d v).perst = s.perst := rfl
@[simp] theorem State.setEngine_coldDue (d : Nat) (v : DmaEng) : (s.setEngine d v).coldDue = s.coldDue := rfl
@[simp] theorem State.setEngine_warmAt (d : Nat) (v : DmaEng) : (s.setEngine d v).warmAt = s.warmAt := rfl
@[simp] theorem State.setEngine_out (d : Nat) (v : DmaEng) : (s.setEngine d v).out = s.out := rfl
@[simp] theorem State.setEngine_freeCtr (d : Nat) (v : DmaEng) : (s.setEngine d v).freeCtr = s.freeCtr := rfl
@[simp] theorem State.setEngine_pending (d : Nat) (v : DmaEng) : (s.setEngine d v).pending = s.pending := rfl
@[simp] theorem State.setEngine_waiting (d : Nat) (v : DmaEng) : (s.setEngine d v).waiting = s.waiting := rfl
@[simp] theorem State.setEngine_slot0 (d : Nat) (v : DmaEng) : (s.setEngine d v).slot0 = s.slot0 := rfl
@[simp] theorem State.setEngine_loads (d : Nat) (v : DmaEng) : (s.setEngine d v).loads = s.loads := rfl
@[simp] theorem State.engine_setEngine (d : Nat) (v : DmaEng) : (s.setEngine d v).engine d = v := by
  simp [State.engine, State.setEngine]

/-! ### setGrant -/

@[simp] theorem State.setGrant_hif (t c : Nat) (v : Grant) : (s.setGrant t c v).hif = s.hif := rfl
@[simp] theorem State.setGrant_spn (t c : Nat) (v : Grant) : (s.setGrant t c v).spn = s.spn := rfl
@[simp] theorem State.setGrant_jig (t c : Nat) (v : Grant) : (s.setGrant t c v).jig = s.jig := rfl
@[simp] theorem State.setGrant_cells (t c : Nat) (v : Grant) : (s.setGrant t c v).cells = s.cells := rfl
@[simp] theorem State.setGrant_progs (t c : Nat) (v : Grant) : (s.setGrant t c v).progs = s.progs := rfl
@[simp] theorem State.setGrant_agg (t c : Nat) (v : Grant) : (s.setGrant t c v).agg = s.agg := rfl
@[simp] theorem State.setGrant_ring (t c : Nat) (v : Grant) : (s.setGrant t c v).ring = s.ring := rfl
@[simp] theorem State.setGrant_mem (t c : Nat) (v : Grant) : (s.setGrant t c v).mem = s.mem := rfl
@[simp] theorem State.setGrant_ram (t c : Nat) (v : Grant) : (s.setGrant t c v).ram = s.ram := rfl
@[simp] theorem State.setGrant_fab (t c : Nat) (v : Grant) : (s.setGrant t c v).fab = s.fab := rfl
@[simp] theorem State.setGrant_sec (t c : Nat) (v : Grant) : (s.setGrant t c v).sec = s.sec := rfl
@[simp] theorem State.setGrant_dbg (t c : Nat) (v : Grant) : (s.setGrant t c v).dbg = s.dbg := rfl
@[simp] theorem State.setGrant_perst (t c : Nat) (v : Grant) : (s.setGrant t c v).perst = s.perst := rfl
@[simp] theorem State.setGrant_coldDue (t c : Nat) (v : Grant) : (s.setGrant t c v).coldDue = s.coldDue := rfl
@[simp] theorem State.setGrant_warmAt (t c : Nat) (v : Grant) : (s.setGrant t c v).warmAt = s.warmAt := rfl
@[simp] theorem State.setGrant_out (t c : Nat) (v : Grant) : (s.setGrant t c v).out = s.out := rfl
@[simp] theorem State.setGrant_freeCtr (t c : Nat) (v : Grant) : (s.setGrant t c v).freeCtr = s.freeCtr := rfl
@[simp] theorem State.setGrant_pending (t c : Nat) (v : Grant) : (s.setGrant t c v).pending = s.pending := rfl
@[simp] theorem State.setGrant_waiting (t c : Nat) (v : Grant) : (s.setGrant t c v).waiting = s.waiting := rfl
@[simp] theorem State.setGrant_slot0 (t c : Nat) (v : Grant) : (s.setGrant t c v).slot0 = s.slot0 := rfl
@[simp] theorem State.setGrant_loads (t c : Nat) (v : Grant) : (s.setGrant t c v).loads = s.loads := rfl
@[simp] theorem State.grant_setGrant (t c : Nat) (v : Grant) : (s.setGrant t c v).grant t c = v := by
  simp [State.grant, State.setGrant]

/-! ### setRam -/

@[simp] theorem State.setRam_hif (k : Nat) (b : Byte) : (s.setRam k b).hif = s.hif := rfl
@[simp] theorem State.setRam_spn (k : Nat) (b : Byte) : (s.setRam k b).spn = s.spn := rfl
@[simp] theorem State.setRam_jig (k : Nat) (b : Byte) : (s.setRam k b).jig = s.jig := rfl
@[simp] theorem State.setRam_cells (k : Nat) (b : Byte) : (s.setRam k b).cells = s.cells := rfl
@[simp] theorem State.setRam_progs (k : Nat) (b : Byte) : (s.setRam k b).progs = s.progs := rfl
@[simp] theorem State.setRam_agg (k : Nat) (b : Byte) : (s.setRam k b).agg = s.agg := rfl
@[simp] theorem State.setRam_ring (k : Nat) (b : Byte) : (s.setRam k b).ring = s.ring := rfl
@[simp] theorem State.setRam_mem (k : Nat) (b : Byte) : (s.setRam k b).mem = s.mem := rfl
@[simp] theorem State.setRam_fab (k : Nat) (b : Byte) : (s.setRam k b).fab = s.fab := rfl
@[simp] theorem State.setRam_sec (k : Nat) (b : Byte) : (s.setRam k b).sec = s.sec := rfl
@[simp] theorem State.setRam_pwr (k : Nat) (b : Byte) : (s.setRam k b).pwr = s.pwr := rfl
@[simp] theorem State.setRam_dbg (k : Nat) (b : Byte) : (s.setRam k b).dbg = s.dbg := rfl
@[simp] theorem State.setRam_perst (k : Nat) (b : Byte) : (s.setRam k b).perst = s.perst := rfl
@[simp] theorem State.setRam_coldDue (k : Nat) (b : Byte) : (s.setRam k b).coldDue = s.coldDue := rfl
@[simp] theorem State.setRam_warmAt (k : Nat) (b : Byte) : (s.setRam k b).warmAt = s.warmAt := rfl
@[simp] theorem State.setRam_out (k : Nat) (b : Byte) : (s.setRam k b).out = s.out := rfl
@[simp] theorem State.setRam_freeCtr (k : Nat) (b : Byte) : (s.setRam k b).freeCtr = s.freeCtr := rfl
@[simp] theorem State.setRam_pending (k : Nat) (b : Byte) : (s.setRam k b).pending = s.pending := rfl
@[simp] theorem State.setRam_waiting (k : Nat) (b : Byte) : (s.setRam k b).waiting = s.waiting := rfl
@[simp] theorem State.setRam_slot0 (k : Nat) (b : Byte) : (s.setRam k b).slot0 = s.slot0 := rfl
@[simp] theorem State.setRam_loads (k : Nat) (b : Byte) : (s.setRam k b).loads = s.loads := rfl
@[simp] theorem State.ramByte_setRam (k : Nat) (b : Byte) : (s.setRam k b).ramByte k = b := by
  simp [State.ramByte, State.setRam]

/-! ### emit -/

@[simp] theorem State.emit_hif (o : Out) : (s.emit o).hif = s.hif := rfl
@[simp] theorem State.emit_spn (o : Out) : (s.emit o).spn = s.spn := rfl
@[simp] theorem State.emit_jig (o : Out) : (s.emit o).jig = s.jig := rfl
@[simp] theorem State.emit_cells (o : Out) : (s.emit o).cells = s.cells := rfl
@[simp] theorem State.emit_progs (o : Out) : (s.emit o).progs = s.progs := rfl
@[simp] theorem State.emit_agg (o : Out) : (s.emit o).agg = s.agg := rfl
@[simp] theorem State.emit_ring (o : Out) : (s.emit o).ring = s.ring := rfl
@[simp] theorem State.emit_mem (o : Out) : (s.emit o).mem = s.mem := rfl
@[simp] theorem State.emit_ram (o : Out) : (s.emit o).ram = s.ram := rfl
@[simp] theorem State.emit_fab (o : Out) : (s.emit o).fab = s.fab := rfl
@[simp] theorem State.emit_sec (o : Out) : (s.emit o).sec = s.sec := rfl
@[simp] theorem State.emit_pwr (o : Out) : (s.emit o).pwr = s.pwr := rfl
@[simp] theorem State.emit_dbg (o : Out) : (s.emit o).dbg = s.dbg := rfl
@[simp] theorem State.emit_perst (o : Out) : (s.emit o).perst = s.perst := rfl
@[simp] theorem State.emit_coldDue (o : Out) : (s.emit o).coldDue = s.coldDue := rfl
@[simp] theorem State.emit_warmAt (o : Out) : (s.emit o).warmAt = s.warmAt := rfl
@[simp] theorem State.emit_freeCtr (o : Out) : (s.emit o).freeCtr = s.freeCtr := rfl
@[simp] theorem State.emit_pending (o : Out) : (s.emit o).pending = s.pending := rfl
@[simp] theorem State.emit_waiting (o : Out) : (s.emit o).waiting = s.waiting := rfl
@[simp] theorem State.emit_slot0 (o : Out) : (s.emit o).slot0 = s.slot0 := rfl
@[simp] theorem State.emit_loads (o : Out) : (s.emit o).loads = s.loads := rfl

/-! ### updSec -/

@[simp] theorem State.updSec_hif (f : Sec → Sec) : (s.updSec f).hif = s.hif := rfl
@[simp] theorem State.updSec_spn (f : Sec → Sec) : (s.updSec f).spn = s.spn := rfl
@[simp] theorem State.updSec_jig (f : Sec → Sec) : (s.updSec f).jig = s.jig := rfl
@[simp] theorem State.updSec_cells (f : Sec → Sec) : (s.updSec f).cells = s.cells := rfl
@[simp] theorem State.updSec_progs (f : Sec → Sec) : (s.updSec f).progs = s.progs := rfl
@[simp] theorem State.updSec_agg (f : Sec → Sec) : (s.updSec f).agg = s.agg := rfl
@[simp] theorem State.updSec_ring (f : Sec → Sec) : (s.updSec f).ring = s.ring := rfl
@[simp] theorem State.updSec_mem (f : Sec → Sec) : (s.updSec f).mem = s.mem := rfl
@[simp] theorem State.updSec_ram (f : Sec → Sec) : (s.updSec f).ram = s.ram := rfl
@[simp] theorem State.updSec_fab (f : Sec → Sec) : (s.updSec f).fab = s.fab := rfl
@[simp] theorem State.updSec_pwr (f : Sec → Sec) : (s.updSec f).pwr = s.pwr := rfl
@[simp] theorem State.updSec_dbg (f : Sec → Sec) : (s.updSec f).dbg = s.dbg := rfl
@[simp] theorem State.updSec_perst (f : Sec → Sec) : (s.updSec f).perst = s.perst := rfl
@[simp] theorem State.updSec_coldDue (f : Sec → Sec) : (s.updSec f).coldDue = s.coldDue := rfl
@[simp] theorem State.updSec_warmAt (f : Sec → Sec) : (s.updSec f).warmAt = s.warmAt := rfl
@[simp] theorem State.updSec_out (f : Sec → Sec) : (s.updSec f).out = s.out := rfl
@[simp] theorem State.updSec_freeCtr (f : Sec → Sec) : (s.updSec f).freeCtr = s.freeCtr := rfl
@[simp] theorem State.updSec_pending (f : Sec → Sec) : (s.updSec f).pending = s.pending := rfl
@[simp] theorem State.updSec_waiting (f : Sec → Sec) : (s.updSec f).waiting = s.waiting := rfl
@[simp] theorem State.updSec_slot0 (f : Sec → Sec) : (s.updSec f).slot0 = s.slot0 := rfl
@[simp] theorem State.updSec_loads (f : Sec → Sec) : (s.updSec f).loads = s.loads := rfl

/-! ### updPwr -/

@[simp] theorem State.updPwr_hif (f : Pwr → Pwr) : (s.updPwr f).hif = s.hif := rfl
@[simp] theorem State.updPwr_spn (f : Pwr → Pwr) : (s.updPwr f).spn = s.spn := rfl
@[simp] theorem State.updPwr_jig (f : Pwr → Pwr) : (s.updPwr f).jig = s.jig := rfl
@[simp] theorem State.updPwr_cells (f : Pwr → Pwr) : (s.updPwr f).cells = s.cells := rfl
@[simp] theorem State.updPwr_progs (f : Pwr → Pwr) : (s.updPwr f).progs = s.progs := rfl
@[simp] theorem State.updPwr_agg (f : Pwr → Pwr) : (s.updPwr f).agg = s.agg := rfl
@[simp] theorem State.updPwr_ring (f : Pwr → Pwr) : (s.updPwr f).ring = s.ring := rfl
@[simp] theorem State.updPwr_mem (f : Pwr → Pwr) : (s.updPwr f).mem = s.mem := rfl
@[simp] theorem State.updPwr_ram (f : Pwr → Pwr) : (s.updPwr f).ram = s.ram := rfl
@[simp] theorem State.updPwr_fab (f : Pwr → Pwr) : (s.updPwr f).fab = s.fab := rfl
@[simp] theorem State.updPwr_sec (f : Pwr → Pwr) : (s.updPwr f).sec = s.sec := rfl
@[simp] theorem State.updPwr_dbg (f : Pwr → Pwr) : (s.updPwr f).dbg = s.dbg := rfl
@[simp] theorem State.updPwr_perst (f : Pwr → Pwr) : (s.updPwr f).perst = s.perst := rfl
@[simp] theorem State.updPwr_coldDue (f : Pwr → Pwr) : (s.updPwr f).coldDue = s.coldDue := rfl
@[simp] theorem State.updPwr_warmAt (f : Pwr → Pwr) : (s.updPwr f).warmAt = s.warmAt := rfl
@[simp] theorem State.updPwr_out (f : Pwr → Pwr) : (s.updPwr f).out = s.out := rfl
@[simp] theorem State.updPwr_freeCtr (f : Pwr → Pwr) : (s.updPwr f).freeCtr = s.freeCtr := rfl
@[simp] theorem State.updPwr_pending (f : Pwr → Pwr) : (s.updPwr f).pending = s.pending := rfl
@[simp] theorem State.updPwr_waiting (f : Pwr → Pwr) : (s.updPwr f).waiting = s.waiting := rfl
@[simp] theorem State.updPwr_slot0 (f : Pwr → Pwr) : (s.updPwr f).slot0 = s.slot0 := rfl
@[simp] theorem State.updPwr_loads (f : Pwr → Pwr) : (s.updPwr f).loads = s.loads := rfl

/-! ### updSpn -/

@[simp] theorem State.updSpn_hif (f : Spn → Spn) : (s.updSpn f).hif = s.hif := rfl
@[simp] theorem State.updSpn_jig (f : Spn → Spn) : (s.updSpn f).jig = s.jig := rfl
@[simp] theorem State.updSpn_cells (f : Spn → Spn) : (s.updSpn f).cells = s.cells := rfl
@[simp] theorem State.updSpn_progs (f : Spn → Spn) : (s.updSpn f).progs = s.progs := rfl
@[simp] theorem State.updSpn_agg (f : Spn → Spn) : (s.updSpn f).agg = s.agg := rfl
@[simp] theorem State.updSpn_ring (f : Spn → Spn) : (s.updSpn f).ring = s.ring := rfl
@[simp] theorem State.updSpn_mem (f : Spn → Spn) : (s.updSpn f).mem = s.mem := rfl
@[simp] theorem State.updSpn_ram (f : Spn → Spn) : (s.updSpn f).ram = s.ram := rfl
@[simp] theorem State.updSpn_fab (f : Spn → Spn) : (s.updSpn f).fab = s.fab := rfl
@[simp] theorem State.updSpn_sec (f : Spn → Spn) : (s.updSpn f).sec = s.sec := rfl
@[simp] theorem State.updSpn_pwr (f : Spn → Spn) : (s.updSpn f).pwr = s.pwr := rfl
@[simp] theorem State.updSpn_dbg (f : Spn → Spn) : (s.updSpn f).dbg = s.dbg := rfl
@[simp] theorem State.updSpn_perst (f : Spn → Spn) : (s.updSpn f).perst = s.perst := rfl
@[simp] theorem State.updSpn_coldDue (f : Spn → Spn) : (s.updSpn f).coldDue = s.coldDue := rfl
@[simp] theorem State.updSpn_warmAt (f : Spn → Spn) : (s.updSpn f).warmAt = s.warmAt := rfl
@[simp] theorem State.updSpn_out (f : Spn → Spn) : (s.updSpn f).out = s.out := rfl
@[simp] theorem State.updSpn_freeCtr (f : Spn → Spn) : (s.updSpn f).freeCtr = s.freeCtr := rfl
@[simp] theorem State.updSpn_pending (f : Spn → Spn) : (s.updSpn f).pending = s.pending := rfl
@[simp] theorem State.updSpn_waiting (f : Spn → Spn) : (s.updSpn f).waiting = s.waiting := rfl
@[simp] theorem State.updSpn_slot0 (f : Spn → Spn) : (s.updSpn f).slot0 = s.slot0 := rfl
@[simp] theorem State.updSpn_loads (f : Spn → Spn) : (s.updSpn f).loads = s.loads := rfl

/-! ### updJig -/

@[simp] theorem State.updJig_hif (f : Jig → Jig) : (s.updJig f).hif = s.hif := rfl
@[simp] theorem State.updJig_spn (f : Jig → Jig) : (s.updJig f).spn = s.spn := rfl
@[simp] theorem State.updJig_cells (f : Jig → Jig) : (s.updJig f).cells = s.cells := rfl
@[simp] theorem State.updJig_progs (f : Jig → Jig) : (s.updJig f).progs = s.progs := rfl
@[simp] theorem State.updJig_agg (f : Jig → Jig) : (s.updJig f).agg = s.agg := rfl
@[simp] theorem State.updJig_ring (f : Jig → Jig) : (s.updJig f).ring = s.ring := rfl
@[simp] theorem State.updJig_mem (f : Jig → Jig) : (s.updJig f).mem = s.mem := rfl
@[simp] theorem State.updJig_ram (f : Jig → Jig) : (s.updJig f).ram = s.ram := rfl
@[simp] theorem State.updJig_fab (f : Jig → Jig) : (s.updJig f).fab = s.fab := rfl
@[simp] theorem State.updJig_sec (f : Jig → Jig) : (s.updJig f).sec = s.sec := rfl
@[simp] theorem State.updJig_pwr (f : Jig → Jig) : (s.updJig f).pwr = s.pwr := rfl
@[simp] theorem State.updJig_dbg (f : Jig → Jig) : (s.updJig f).dbg = s.dbg := rfl
@[simp] theorem State.updJig_perst (f : Jig → Jig) : (s.updJig f).perst = s.perst := rfl
@[simp] theorem State.updJig_coldDue (f : Jig → Jig) : (s.updJig f).coldDue = s.coldDue := rfl
@[simp] theorem State.updJig_warmAt (f : Jig → Jig) : (s.updJig f).warmAt = s.warmAt := rfl
@[simp] theorem State.updJig_out (f : Jig → Jig) : (s.updJig f).out = s.out := rfl
@[simp] theorem State.updJig_freeCtr (f : Jig → Jig) : (s.updJig f).freeCtr = s.freeCtr := rfl
@[simp] theorem State.updJig_pending (f : Jig → Jig) : (s.updJig f).pending = s.pending := rfl
@[simp] theorem State.updJig_waiting (f : Jig → Jig) : (s.updJig f).waiting = s.waiting := rfl
@[simp] theorem State.updJig_slot0 (f : Jig → Jig) : (s.updJig f).slot0 = s.slot0 := rfl
@[simp] theorem State.updJig_loads (f : Jig → Jig) : (s.updJig f).loads = s.loads := rfl

/-! ### updFab -/

@[simp] theorem State.updFab_hif (f : Fab → Fab) : (s.updFab f).hif = s.hif := rfl
@[simp] theorem State.updFab_spn (f : Fab → Fab) : (s.updFab f).spn = s.spn := rfl
@[simp] theorem State.updFab_jig (f : Fab → Fab) : (s.updFab f).jig = s.jig := rfl
@[simp] theorem State.updFab_cells (f : Fab → Fab) : (s.updFab f).cells = s.cells := rfl
@[simp] theorem State.updFab_progs (f : Fab → Fab) : (s.updFab f).progs = s.progs := rfl
@[simp] theorem State.updFab_agg (f : Fab → Fab) : (s.updFab f).agg = s.agg := rfl
@[simp] theorem State.updFab_ring (f : Fab → Fab) : (s.updFab f).ring = s.ring := rfl
@[simp] theorem State.updFab_mem (f : Fab → Fab) : (s.updFab f).mem = s.mem := rfl
@[simp] theorem State.updFab_ram (f : Fab → Fab) : (s.updFab f).ram = s.ram := rfl
@[simp] theorem State.updFab_sec (f : Fab → Fab) : (s.updFab f).sec = s.sec := rfl
@[simp] theorem State.updFab_pwr (f : Fab → Fab) : (s.updFab f).pwr = s.pwr := rfl
@[simp] theorem State.updFab_dbg (f : Fab → Fab) : (s.updFab f).dbg = s.dbg := rfl
@[simp] theorem State.updFab_perst (f : Fab → Fab) : (s.updFab f).perst = s.perst := rfl
@[simp] theorem State.updFab_coldDue (f : Fab → Fab) : (s.updFab f).coldDue = s.coldDue := rfl
@[simp] theorem State.updFab_warmAt (f : Fab → Fab) : (s.updFab f).warmAt = s.warmAt := rfl
@[simp] theorem State.updFab_out (f : Fab → Fab) : (s.updFab f).out = s.out := rfl
@[simp] theorem State.updFab_freeCtr (f : Fab → Fab) : (s.updFab f).freeCtr = s.freeCtr := rfl
@[simp] theorem State.updFab_pending (f : Fab → Fab) : (s.updFab f).pending = s.pending := rfl
@[simp] theorem State.updFab_waiting (f : Fab → Fab) : (s.updFab f).waiting = s.waiting := rfl
@[simp] theorem State.updFab_slot0 (f : Fab → Fab) : (s.updFab f).slot0 = s.slot0 := rfl
@[simp] theorem State.updFab_loads (f : Fab → Fab) : (s.updFab f).loads = s.loads := rfl

/-! ### updRing -/

@[simp] theorem State.updRing_hif (f : Ring → Ring) : (s.updRing f).hif = s.hif := rfl
@[simp] theorem State.updRing_spn (f : Ring → Ring) : (s.updRing f).spn = s.spn := rfl
@[simp] theorem State.updRing_jig (f : Ring → Ring) : (s.updRing f).jig = s.jig := rfl
@[simp] theorem State.updRing_cells (f : Ring → Ring) : (s.updRing f).cells = s.cells := rfl
@[simp] theorem State.updRing_progs (f : Ring → Ring) : (s.updRing f).progs = s.progs := rfl
@[simp] theorem State.updRing_agg (f : Ring → Ring) : (s.updRing f).agg = s.agg := rfl
@[simp] theorem State.updRing_mem (f : Ring → Ring) : (s.updRing f).mem = s.mem := rfl
@[simp] theorem State.updRing_ram (f : Ring → Ring) : (s.updRing f).ram = s.ram := rfl
@[simp] theorem State.updRing_fab (f : Ring → Ring) : (s.updRing f).fab = s.fab := rfl
@[simp] theorem State.updRing_sec (f : Ring → Ring) : (s.updRing f).sec = s.sec := rfl
@[simp] theorem State.updRing_pwr (f : Ring → Ring) : (s.updRing f).pwr = s.pwr := rfl
@[simp] theorem State.updRing_dbg (f : Ring → Ring) : (s.updRing f).dbg = s.dbg := rfl
@[simp] theorem State.updRing_perst (f : Ring → Ring) : (s.updRing f).perst = s.perst := rfl
@[simp] theorem State.updRing_coldDue (f : Ring → Ring) : (s.updRing f).coldDue = s.coldDue := rfl
@[simp] theorem State.updRing_warmAt (f : Ring → Ring) : (s.updRing f).warmAt = s.warmAt := rfl
@[simp] theorem State.updRing_out (f : Ring → Ring) : (s.updRing f).out = s.out := rfl
@[simp] theorem State.updRing_freeCtr (f : Ring → Ring) : (s.updRing f).freeCtr = s.freeCtr := rfl
@[simp] theorem State.updRing_pending (f : Ring → Ring) : (s.updRing f).pending = s.pending := rfl
@[simp] theorem State.updRing_waiting (f : Ring → Ring) : (s.updRing f).waiting = s.waiting := rfl
@[simp] theorem State.updRing_slot0 (f : Ring → Ring) : (s.updRing f).slot0 = s.slot0 := rfl
@[simp] theorem State.updRing_loads (f : Ring → Ring) : (s.updRing f).loads = s.loads := rfl

/-! ### updHost -/

@[simp] theorem State.updHost_hif (f : HostSup → HostSup) : (s.updHost f).hif = s.hif := rfl
@[simp] theorem State.updHost_spn (f : HostSup → HostSup) : (s.updHost f).spn = s.spn := rfl
@[simp] theorem State.updHost_jig (f : HostSup → HostSup) : (s.updHost f).jig = s.jig := rfl
@[simp] theorem State.updHost_cells (f : HostSup → HostSup) : (s.updHost f).cells = s.cells := rfl
@[simp] theorem State.updHost_progs (f : HostSup → HostSup) : (s.updHost f).progs = s.progs := rfl
@[simp] theorem State.updHost_agg (f : HostSup → HostSup) : (s.updHost f).agg = s.agg := rfl
@[simp] theorem State.updHost_ring (f : HostSup → HostSup) : (s.updHost f).ring = s.ring := rfl
@[simp] theorem State.updHost_mem (f : HostSup → HostSup) : (s.updHost f).mem = s.mem := rfl
@[simp] theorem State.updHost_ram (f : HostSup → HostSup) : (s.updHost f).ram = s.ram := rfl
@[simp] theorem State.updHost_fab (f : HostSup → HostSup) : (s.updHost f).fab = s.fab := rfl
@[simp] theorem State.updHost_sec (f : HostSup → HostSup) : (s.updHost f).sec = s.sec := rfl
@[simp] theorem State.updHost_pwr (f : HostSup → HostSup) : (s.updHost f).pwr = s.pwr := rfl
@[simp] theorem State.updHost_perst (f : HostSup → HostSup) : (s.updHost f).perst = s.perst := rfl
@[simp] theorem State.updHost_coldDue (f : HostSup → HostSup) : (s.updHost f).coldDue = s.coldDue := rfl
@[simp] theorem State.updHost_warmAt (f : HostSup → HostSup) : (s.updHost f).warmAt = s.warmAt := rfl
@[simp] theorem State.updHost_out (f : HostSup → HostSup) : (s.updHost f).out = s.out := rfl
@[simp] theorem State.updHost_freeCtr (f : HostSup → HostSup) : (s.updHost f).freeCtr = s.freeCtr := rfl
@[simp] theorem State.updHost_pending (f : HostSup → HostSup) : (s.updHost f).pending = s.pending := rfl
@[simp] theorem State.updHost_waiting (f : HostSup → HostSup) : (s.updHost f).waiting = s.waiting := rfl
@[simp] theorem State.updHost_slot0 (f : HostSup → HostSup) : (s.updHost f).slot0 = s.slot0 := rfl
@[simp] theorem State.updHost_loads (f : HostSup → HostSup) : (s.updHost f).loads = s.loads := rfl

/-! ### updFw -/

@[simp] theorem State.updFw_hif (f : Fw → Fw) : (s.updFw f).hif = s.hif := rfl
@[simp] theorem State.updFw_spn (f : Fw → Fw) : (s.updFw f).spn = s.spn := rfl
@[simp] theorem State.updFw_jig (f : Fw → Fw) : (s.updFw f).jig = s.jig := rfl
@[simp] theorem State.updFw_cells (f : Fw → Fw) : (s.updFw f).cells = s.cells := rfl
@[simp] theorem State.updFw_progs (f : Fw → Fw) : (s.updFw f).progs = s.progs := rfl
@[simp] theorem State.updFw_agg (f : Fw → Fw) : (s.updFw f).agg = s.agg := rfl
@[simp] theorem State.updFw_ring (f : Fw → Fw) : (s.updFw f).ring = s.ring := rfl
@[simp] theorem State.updFw_mem (f : Fw → Fw) : (s.updFw f).mem = s.mem := rfl
@[simp] theorem State.updFw_ram (f : Fw → Fw) : (s.updFw f).ram = s.ram := rfl
@[simp] theorem State.updFw_fab (f : Fw → Fw) : (s.updFw f).fab = s.fab := rfl
@[simp] theorem State.updFw_sec (f : Fw → Fw) : (s.updFw f).sec = s.sec := rfl
@[simp] theorem State.updFw_pwr (f : Fw → Fw) : (s.updFw f).pwr = s.pwr := rfl
@[simp] theorem State.updFw_perst (f : Fw → Fw) : (s.updFw f).perst = s.perst := rfl
@[simp] theorem State.updFw_coldDue (f : Fw → Fw) : (s.updFw f).coldDue = s.coldDue := rfl
@[simp] theorem State.updFw_warmAt (f : Fw → Fw) : (s.updFw f).warmAt = s.warmAt := rfl
@[simp] theorem State.updFw_out (f : Fw → Fw) : (s.updFw f).out = s.out := rfl
@[simp] theorem State.updFw_freeCtr (f : Fw → Fw) : (s.updFw f).freeCtr = s.freeCtr := rfl
@[simp] theorem State.updFw_pending (f : Fw → Fw) : (s.updFw f).pending = s.pending := rfl
@[simp] theorem State.updFw_waiting (f : Fw → Fw) : (s.updFw f).waiting = s.waiting := rfl
@[simp] theorem State.updFw_slot0 (f : Fw → Fw) : (s.updFw f).slot0 = s.slot0 := rfl
@[simp] theorem State.updFw_loads (f : Fw → Fw) : (s.updFw f).loads = s.loads := rfl

/-! ### An element other than the one written -/

theorem State.cell_setCell_other (c j : Nat) (v : Cell) (hne : j ≠ c) : (s.setCell c v).cell j = s.cell j := by
  simp [State.cell, State.setCell, Tab.look_put_other _ _ _ _ _ hne]
theorem State.round_setRound_other (h j : Nat) (v : Round) (hne : j ≠ h) : (s.setRound h v).round j = s.round j := by
  simp [State.round, State.setRound, Tab.look_put_other _ _ _ _ _ hne]
theorem State.bind_setBind_other (e j : Nat) (v : Bind) (hne : j ≠ e) : (s.setBind e v).bind j = s.bind j := by
  simp [State.bind, State.setBind, Tab.look_put_other _ _ _ _ _ hne]
theorem State.tenant_setTenant_other (t j : Nat) (v : Tenant) (hne : j ≠ t) : (s.setTenant t v).tenant j = s.tenant j := by
  simp [State.tenant, State.setTenant, Tab.look_put_other _ _ _ _ _ hne]
theorem State.key_setKey_other (i j : Nat) (v : Key) (hne : j ≠ i) : (s.setKey i v).key j = s.key j := by
  simp [State.key, State.setKey, Tab.look_put_other _ _ _ _ _ hne]
theorem State.shv_setShv_other (q j : Nat) (v : ShvQueue) (hne : j ≠ q) : (s.setShv q v).shv j = s.shv j := by
  simp [State.shv, State.setShv, Tab.look_put_other _ _ _ _ _ hne]
theorem State.port_setPort_other (p j : Nat) (v : Port) (hne : j ≠ p) : (s.setPort p v).port j = s.port j := by
  simp [State.port, State.setPort, Tab.look_put_other _ _ _ _ _ hne]
theorem State.ep_setEp_other (e j : Nat) (v : Endpoint) (hne : j ≠ e) : (s.setEp e v).ep j = s.ep j := by
  simp [State.ep, State.setEp, Tab.look_put_other _ _ _ _ _ hne]
theorem State.fabTenant_setFabTenant_other (t j : Nat) (v : FabTenant) (hne : j ≠ t) : (s.setFabTenant t v).fabTenant j = s.fabTenant j := by
  simp [State.fabTenant, State.setFabTenant, Tab.look_put_other _ _ _ _ _ hne]
theorem State.mapRegs_setMapRegs_other (t j : Nat) (v : MapRegs) (hne : j ≠ t) : (s.setMapRegs t v).mapRegs j = s.mapRegs j := by
  simp [State.mapRegs, State.setMapRegs, Tab.look_put_other _ _ _ _ _ hne]
theorem State.engine_setEngine_other (d j : Nat) (v : DmaEng) (hne : j ≠ d) : (s.setEngine d v).engine j = s.engine j := by
  simp [State.engine, State.setEngine, Tab.look_put_other _ _ _ _ _ hne]

/-! ### Changes by a function, draws and folds -/

@[simp] theorem State.updCell_eq (c : Nat) (f : Cell → Cell) : s.updCell c f = s.setCell c (f (s.cell c)) := rfl
@[simp] theorem State.updRound_eq (h : Nat) (f : Round → Round) : s.updRound h f = s.setRound h (f (s.round h)) := rfl
@[simp] theorem State.updTenant_eq (t : Nat) (f : Tenant → Tenant) : s.updTenant t f = s.setTenant t (f (s.tenant t)) := rfl
@[simp] theorem State.updPort_eq (p : Nat) (f : Port → Port) : s.updPort p f = s.setPort p (f (s.port p)) := rfl
@[simp] theorem State.updEp_eq (e : Nat) (f : Endpoint → Endpoint) : s.updEp e f = s.setEp e (f (s.ep e)) := rfl
@[simp] theorem State.draw_hif : s.draw.2.hif = s.hif := rfl
@[simp] theorem State.draw_spn : s.draw.2.spn = s.spn := rfl
@[simp] theorem State.draw_jig : s.draw.2.jig = s.jig := rfl
@[simp] theorem State.draw_cells : s.draw.2.cells = s.cells := rfl
@[simp] theorem State.draw_progs : s.draw.2.progs = s.progs := rfl
@[simp] theorem State.draw_agg : s.draw.2.agg = s.agg := rfl
@[simp] theorem State.draw_ring : s.draw.2.ring = s.ring := rfl
@[simp] theorem State.draw_mem : s.draw.2.mem = s.mem := rfl
@[simp] theorem State.draw_ram : s.draw.2.ram = s.ram := rfl
@[simp] theorem State.draw_fab : s.draw.2.fab = s.fab := rfl
@[simp] theorem State.draw_sec : s.draw.2.sec = s.sec := rfl
@[simp] theorem State.draw_pwr : s.draw.2.pwr = s.pwr := rfl
@[simp] theorem State.draw_dbg : s.draw.2.dbg = s.dbg := rfl
@[simp] theorem State.draw_perst : s.draw.2.perst = s.perst := rfl
@[simp] theorem State.draw_coldDue : s.draw.2.coldDue = s.coldDue := rfl
@[simp] theorem State.draw_warmAt : s.draw.2.warmAt = s.warmAt := rfl
@[simp] theorem State.draw_out : s.draw.2.out = s.out := rfl
@[simp] theorem State.draw_pending : s.draw.2.pending = s.pending := rfl
@[simp] theorem State.draw_waiting : s.draw.2.waiting = s.waiting := rfl
@[simp] theorem State.draw_slot0 : s.draw.2.slot0 = s.slot0 := rfl
@[simp] theorem State.draw_loads : s.draw.2.loads = s.loads := rfl
@[simp] theorem State.draw_freeCtr : s.draw.2.freeCtr = s.freeCtr + 1 := rfl
@[simp] theorem State.each_nil {α : Type} (f : State → α → State) : s.each [] f = s := rfl
@[simp] theorem State.each_cons {α : Type} (a : α) (l : List α) (f : State → α → State) : s.each (a :: l) f = (f s a).each l f := rfl

/-- A fold keeps what each of its steps keeps. -/
theorem State.each_keeps {α β : Type} (g : State → β) (f : State → α → State) (l : List α) (h : ∀ u a, a ∈ l → g (f u a) = g u) :
    g (s.each l f) = g s := by
  induction l generalizing s with
  | nil => rfl
  | cons a r ih =>
    rw [State.each_cons, ih (f s a) (fun u b hb => h u b (List.mem_cons_of_mem _ hb)), h s a (List.mem_cons_self ..)]

/-- A fold keeps a property that each of its steps keeps. -/
theorem State.each_induct {α : Type} (P : State → Prop) (f : State → α → State) (l : List α) (h : ∀ u a, a ∈ l → P u → P (f u a))
    (hs : P s) : P (s.each l f) := by
  induction l generalizing s with
  | nil => exact hs
  | cons a r ih =>
    exact ih (f s a) (fun u b hb => h u b (List.mem_cons_of_mem _ hb)) (h s a (List.mem_cons_self ..) hs)

end Sys2Proof.Machine
end

