-- ==== Sys2Proof/Laws/Memory.lean ====
section
/-! SUPPORT. Laws/Memory.lean: device memory keeps its canonical form under every memory operation, reads back what is written, and is left
alone elsewhere. -/

namespace Sys2Proof.Machine

open Sys2Proof

/-! ### ramWrite -/

/-- A byte outside the range written is left alone. -/
theorem ramWrite_look_other (m : List Host.Cell) (k j : Nat) (bs : List Byte) (h : j < k ∨ k + bs.length ≤ j) :
    Tab.look 0 (ramWrite m k bs) j = Tab.look 0 m j := by
  induction bs generalizing m k with
  | nil => rfl
  | cons b r ih =>
    simp only [List.length_cons] at h
    rw [ramWrite, ih _ _ (by omega), Tab.look_put_other _ _ _ _ _ (by omega)]

/-- A byte of the range written reads back. -/
theorem ramWrite_look (m : List Host.Cell) (k i : Nat) (bs : List Byte) (h : i < bs.length) :
    Tab.look 0 (ramWrite m k bs) (k + i) = bs.getD i 0 := by
  induction bs generalizing m k i with
  | nil => simp at h
  | cons b r ih =>
    cases i with
    | zero => rw [ramWrite, ramWrite_look_other _ _ _ _ (by omega)]; simp
    | succ i =>
      simp only [List.length_cons] at h
      have := ih (Tab.put 0 m k b) (k + 1) i (by omega)
      rw [ramWrite, show k + (i + 1) = k + 1 + i by omega, this]; simp

theorem ramWrite_wf (m : List Host.Cell) (k : Nat) (bs : List Byte) (h : Memory.wf m = true) : Memory.wf (ramWrite m k bs) = true := by
  induction bs generalizing m k with
  | nil => exact h
  | cons b r ih => exact ih _ _ (Tab.wf_put 0 m k b h)

/-! ### ramZero and ramCopy -/

theorem ramZero_wf (m : List Host.Cell) (tier f units : Nat) (h : Memory.wf m = true) : Memory.wf (ramZero m tier f units) = true :=
  Tab.wf_filter 0 m _ h

theorem ramCopy_wf (m : List Host.Cell) (tier src dst units : Nat) (h : Memory.wf m = true) :
    Memory.wf (ramCopy m tier src dst units) = true := by
  unfold ramCopy
  generalize m.filter _ = l
  suffices ∀ z : List Host.Cell, Memory.wf z = true → Memory.wf (l.foldl
      (fun m c => Tab.put 0 m (c.1 - ramKey tier (src * 65536) + ramKey tier (dst * 65536)) c.2) z) = true from
    this _ (ramZero_wf m tier dst units h)
  induction l with
  | nil => intro z hz; exact hz
  | cons c r ih => intro z hz; exact ih _ (Tab.wf_put 0 z _ c.2 hz)

/-- A zeroed frame reads 0. -/
theorem ramZero_look_in (m : List Host.Cell) (tier f units k : Nat) (h : ramKey tier (f * 65536) ≤ k)
    (h' : k < ramKey tier ((f + units) * 65536)) : Tab.look 0 (ramZero m tier f units) k = 0 := by
  have := Tab.look_filter (0 : Byte) m (fun x => !(decide (ramKey tier (f * 65536) ≤ x) && decide (x < ramKey tier ((f + units) * 65536)))) k
  rw [ramZero, this]
  simp [h, h']

/-- Zeroing a frame leaves every byte outside it alone. -/
theorem ramZero_look_out (m : List Host.Cell) (tier f units k : Nat)
    (h : k < ramKey tier (f * 65536) ∨ ramKey tier ((f + units) * 65536) ≤ k) :
    Tab.look 0 (ramZero m tier f units) k = Tab.look 0 m k := by
  have := Tab.look_filter (0 : Byte) m (fun x => !(decide (ramKey tier (f * 65536) ≤ x) && decide (x < ramKey tier ((f + units) * 65536)))) k
  rw [ramZero, this]
  rcases h with h | h
  · simp [Nat.not_le.2 h]
  · simp [Nat.not_lt.2 h]

/-! ### Writes through a tenant's space -/

/-- A span on one page changes device memory or what leaves for the host, and nothing else. -/
theorem State.writeSpan_frame (s : State) (t va : Nat) (bs : List Byte) :
    s.writeSpan t va bs = { s with ram := (s.writeSpan t va bs).ram, out := (s.writeSpan t va bs).out } := by
  unfold State.writeSpan; dsimp only; split
  · rfl
  · split <;> rfl

theorem State.writeSpan_wf (s : State) (t va : Nat) (bs : List Byte) (h : Memory.wf s.ram = true) :
    Memory.wf (s.writeSpan t va bs).ram = true := by
  unfold State.writeSpan; dsimp only; split
  · exact h
  · split
    · exact h
    · exact ramWrite_wf _ _ _ h

/-- A write through a tenant's space changes device memory and what leaves for the host, and nothing else. -/
theorem State.writeVA_frame (s : State) (t va : Nat) (bs : List Byte) (n : Nat) :
    s.writeVA t va bs n = { s with ram := (s.writeVA t va bs n).ram, out := (s.writeVA t va bs n).out } := by
  induction n generalizing s va bs with
  | zero => rfl
  | succ n ih =>
    cases bs with
    | nil => rfl
    | cons b r =>
      obtain ⟨x, y, h⟩ : ∃ x y, s.writeSpan t va ((b :: r).take (64 - va % 64)) = { s with ram := x, out := y } :=
        ⟨_, _, State.writeSpan_frame ..⟩
      simp only [State.writeVA, h]
      exact ih _ _ _

theorem State.writeVA_wf (s : State) (t va : Nat) (bs : List Byte) (n : Nat) (h : Memory.wf s.ram = true) :
    Memory.wf (s.writeVA t va bs n).ram = true := by
  induction n generalizing s va bs with
  | zero => exact h
  | succ n ih =>
    cases bs with
    | nil => exact h
    | cons b r => exact ih _ _ _ (State.writeSpan_wf s t va _ h)

@[simp] theorem State.readVA_length (s : State) (t va n : Nat) (host : List Byte) : (s.readVA t va n host).length = n := by
  simp [State.readVA]

/-- Device memory after reset has the canonical form. -/
theorem reset_ram_wf : Memory.wf State.reset.ram = true := rfl

end Sys2Proof.Machine
end

