-- ==== Sys2Proof/Laws/Cell.lean ====
section
/-! SUPPORT. Laws/Cell.lean: cell SRAM reads back what is written and keeps its form; the accumulator file, register by register. -/

namespace Sys2Proof.Machine

open Sys2Proof

/-! ### Cell SRAM (R141, R217) -/

/-- A write to SRAM keeps its canonical form. -/
theorem Cell.write_wf (x : Cell) (a : Nat) (bs : List Byte) (h : Memory.wf x.sram = true) : Memory.wf (x.write a bs).sram = true :=
  ramWrite_wf _ _ _ (ramWrite_wf _ _ _ h)

/-- A byte of the range written reads back, past the top of SRAM from its start on. -/
theorem Cell.write_look (x : Cell) (a i : Nat) (bs : List Byte) (ha : a < sramBytes) (hn : bs.length ≤ sramBytes) (hi : i < bs.length) :
    Tab.look 0 (x.write a bs).sram ((a + i) % sramBytes) = bs.getD i 0 := by
  unfold Cell.write
  simp only
  by_cases h : a + i < sramBytes
  · rw [Nat.mod_eq_of_lt h, ramWrite_look_other, ramWrite_look]
    · rw [List.getD_eq_getElem?_getD, List.getD_eq_getElem?_getD, List.getElem?_take_of_lt (by omega)]
    · rw [List.length_take]; omega
    · right; rw [List.length_drop]; omega
  · have e : (a + i) % sramBytes = a + i - sramBytes := by
      rw [Nat.mod_eq_sub_mod (by omega), Nat.mod_eq_of_lt (by omega)]
    have e2 : a + i - sramBytes = 0 + (a + i - sramBytes) := by omega
    rw [e, e2, ramWrite_look _ _ _ _ (by rw [List.length_drop]; omega)]
    rw [List.getD_eq_getElem?_getD, List.getD_eq_getElem?_getD, List.getElem?_drop]
    rw [show sramBytes - a + (a + i - sramBytes) = i by omega]

/-- A byte outside the range written is left alone. -/
theorem Cell.write_look_other (x : Cell) (a b : Nat) (bs : List Byte) (ha : a < sramBytes)
    (hb : b < sramBytes) (h : ∀ i, i < bs.length → (a + i) % sramBytes ≠ b) :
    Tab.look 0 (x.write a bs).sram b = Tab.look 0 x.sram b := by
  unfold Cell.write
  simp only
  rw [ramWrite_look_other, ramWrite_look_other]
  · by_cases h1 : a ≤ b
    · right; rw [List.length_take]
      by_cases h2 : b < a + bs.length
      · have := h (b - a) (by omega)
        rw [show a + (b - a) = b by omega, Nat.mod_eq_of_lt hb] at this; exact absurd rfl this
      · omega
    · left; omega
  · right; rw [List.length_drop]
    by_cases h2 : b + sramBytes < a + bs.length
    · have := h (b + sramBytes - a) (by omega)
      rw [show a + (b + sramBytes - a) = b + sramBytes by omega, Nat.add_mod_right, Nat.mod_eq_of_lt hb] at this
      exact absurd rfl this
    · omega

@[simp] theorem Cell.write_acc (x : Cell) (a : Nat) (bs : List Byte) : (x.write a bs).acc = x.acc := rfl
@[simp] theorem Cell.write_groups (x : Cell) (a : Nat) (bs : List Byte) : (x.write a bs).groups = x.groups := rfl
@[simp] theorem Cell.write_seals (x : Cell) (a : Nat) (bs : List Byte) : (x.write a bs).seals = x.seals := rfl
@[simp] theorem Cell.write_vregs (x : Cell) (a : Nat) (bs : List Byte) : (x.write a bs).vregs = x.vregs := rfl

/-! ### Groups and the accumulator file (R138, R159) -/

@[simp] theorem Cell.group_setGroup (x : Cell) (g : Nat) (v : AccGroup) : (x.setGroup g v).group g = v := by
  simp [Cell.group, Cell.setGroup]
theorem Cell.group_setGroup_other (x : Cell) (g j : Nat) (v : AccGroup) (h : j ≠ g) : (x.setGroup g v).group j = x.group j := by
  simp [Cell.group, Cell.setGroup, Tab.look_put_other _ _ _ _ _ h]
@[simp] theorem Cell.accGet_setGroup (x : Cell) (g : Nat) (v : AccGroup) (w : Bool) (h p : Nat) :
    (x.setGroup g v).accGet w h p = x.accGet w h p := rfl
@[simp] theorem Cell.group_accSet (x : Cell) (w : Bool) (h p v g : Nat) : (x.accSet w h p v).group g = x.group g := rfl
@[simp] theorem Cell.sram_accSet (x : Cell) (w : Bool) (h p v : Nat) : (x.accSet w h p v).sram = x.sram := rfl

/-- The PE's register of another PE, or another register, is left alone. -/
theorem Cell.accGet_accSet_other (x : Cell) (w w' : Bool) (h h' p p' v : Nat) (hp : p < 1024) (hp' : p' < 1024)
    (hne : h / 2 ≠ h' / 2 ∨ p ≠ p') : (x.accSet w h p v).accGet w' h' p' = x.accGet w' h' p' := by
  have : 1024 * (h' / 2) + p' ≠ 1024 * (h / 2) + p := by omega
  simp only [Cell.accGet, Cell.accSet, Tab.look_put_other _ _ _ _ _ this]

/-- A whole register reads back. -/
theorem Cell.accGet_accSet_whole (x : Cell) (h p v : Nat) : (x.accSet true h p v).accGet true h p = v % 2 ^ 64 := by
  simp [Cell.accGet, Cell.accSet]

/-- A half register reads back. -/
theorem Cell.accGet_accSet_half (x : Cell) (h p v : Nat) : (x.accSet false h p v).accGet false h p = v % 2 ^ 32 := by
  simp only [Cell.accGet, Cell.accSet, Tab.look_put_same, bits]
  generalize (Tab.look 0 x.acc (1024 * (h / 2) + p)).toNat = w
  have hv : v % 2 ^ 32 < 2 ^ 32 := Nat.mod_lt _ (by decide)
  have hw : w % 2 ^ 32 < 2 ^ 32 := Nat.mod_lt _ (by decide)
  rcases Nat.mod_two_eq_zero_or_one h with e | e
  · simp [e]
  · simp [e]; omega

end Sys2Proof.Machine
end

