-- ==== Sys2Proof/Laws/Ops.lean ====
section
/-! SUPPORT. Laws/Ops.lean: what each shared operation can do: the checks of a command, events, interrupts, completions, an instruction's
issue, and lists of checks. -/

namespace Sys2Proof.Machine

open Sys2Proof

/-! ### Lists of checks -/

/-- No check of the list fails. -/
theorem firstFail_none_iff (l : List (Bool × Status)) : firstFail l = none ↔ ∀ x ∈ l, x.1 = false := by
  induction l with
  | nil => simp [firstFail]
  | cons x r ih =>
    obtain ⟨b, st⟩ := x
    cases b <;> simp [firstFail, ih]

/-- The status of the first check that fails. -/
theorem firstFail_append (l r : List (Bool × Status)) (h : ∀ x ∈ l, x.1 = false) : firstFail (l ++ r) = firstFail r := by
  induction l with
  | nil => rfl
  | cons x l ih =>
    obtain ⟨b, st⟩ := x
    have hb := h (b, st) (List.mem_cons_self ..)
    simp only at hb; subst hb
    simpa [firstFail] using ih (fun y hy => h y (List.mem_cons_of_mem _ hy))

theorem firstFailure_none_iff (l : List (Bool × Failure)) : firstFailure l = none ↔ ∀ x ∈ l, x.1 = false := by
  induction l with
  | nil => simp [firstFailure]
  | cons x r ih =>
    obtain ⟨b, st⟩ := x
    cases b <;> simp [firstFailure, ih]

/-! ### Commands (R532, R568) -/

/-- A command that passes the checks of all commands runs its own body. -/
theorem State.command_of_accepts (s : State) (op : Nat) (c : Cmd) (body : State → State) (h : s.accepts op c = true) :
    s.command op c body = body s := by
  simp only [State.accepts, Bool.and_eq_true, beq_iff_eq, Bool.not_eq_true'] at h
  simp [State.command, h.1, h.2]

/-- No command is served during a freeze (R90, R91). -/
theorem State.command_of_frozen (s : State) (op : Nat) (c : Cmd) (body : State → State) (z : s.frozen = true) :
    s.command op c body = s := by
  simp [State.command, z]

/-- A command that a general check refuses changes nothing but its completion. -/
theorem State.command_of_general (s : State) (op : Nat) (c : Cmd) (body : State → State) (st : Status) (z : s.frozen = false)
    (h : s.general op c = some st) : s.command op c body = s.fail c st := by
  simp [State.command, h, z]

/-- A VF's command for a tenant that is gone is refused with TENANT_GONE. -/
theorem State.command_of_gone (s : State) (op : Nat) (c : Cmd) (body : State → State) (z : s.frozen = false)
    (h : s.general op c = none) (g : s.gone c = true) : s.command op c body = s.fail c .tenantGone := by
  simp [State.command, h, g, z]

/-- In TAMPERED the general checks give TAMPER, whatever the command (R483, R532). -/
theorem State.general_of_tampered (s : State) (op : Nat) (c : Cmd) (h : s.sec.lifecycle = .tampered) : s.general op c = some .tamper := by
  unfold State.general
  split <;> simp_all [firstFail]

/-- In TAMPERED every command is refused with TAMPER (R483, R532). -/
theorem State.command_of_tampered (s : State) (op : Nat) (c : Cmd) (body : State → State) (z : s.frozen = false)
    (h : s.sec.lifecycle = .tampered) : s.command op c body = s.fail c .tamper :=
  s.command_of_general op c body _ z (s.general_of_tampered op c h)

/-! ### Interrupts, events and completions -/

/-- An interrupt changes the interrupt lists of the host interface and nothing else. -/
theorem State.interrupt_frame (s : State) (f v : Nat) :
    s.interrupt f v = { s with hif := { s.hif with
      irqs := (s.interrupt f v).hif.irqs, heldIrqs := (s.interrupt f v).hif.heldIrqs, pba := (s.interrupt f v).hif.pba } } := by
  unfold State.interrupt; split
  · rfl
  · split <;> rfl

/-- An event changes one Shavings queue and the interrupt lists, and nothing else. -/
theorem State.event_frame (s : State) (q cls status source detail : Nat) : let t := s.event q cls status source detail
    t = { s with hif := { s.hif with irqs := t.hif.irqs, heldIrqs := t.hif.heldIrqs, pba := t.hif.pba },
                 dbg := { s.dbg with shv := t.dbg.shv } } := by
  intro t
  simp only [t]
  unfold State.event
  split
  · dsimp only
    split
    · rw [State.interrupt_frame]; rfl
    · rfl
  · rfl

/-- A class that the mask leaves out changes nothing. -/
theorem State.event_masked (s : State) (q cls status source detail : Nat) (h : bitAt (s.shvMask q) cls = false) :
    s.event q cls status source detail = s := by
  simp [State.event, h]

/-- A posted completion changes the host interface and nothing else. -/
theorem State.post_frame (s : State) (k : Completion) : s.post k = { s with hif := (s.post k).hif } := by
  unfold State.post; dsimp only; split
  · rw [State.interrupt_frame]; rfl
  · rfl

/-- The end of a command changes the host interface and nothing else. -/
theorem State.complete_frame (s : State) (c : Cmd) (st : Status) (r0 r1 flags : Nat) :
    s.complete c st r0 r1 flags = { s with hif := (s.complete c st r0 r1 flags).hif } := by
  unfold State.complete; dsimp only
  split
  · rfl
  · split
    · rfl
    · rw [State.post_frame]

@[simp] theorem State.interrupt_spn (s : State) (f v : Nat) : (s.interrupt f v).spn = s.spn := by rw [State.interrupt_frame]
@[simp] theorem State.interrupt_jig (s : State) (f v : Nat) : (s.interrupt f v).jig = s.jig := by rw [State.interrupt_frame]
@[simp] theorem State.interrupt_cells (s : State) (f v : Nat) : (s.interrupt f v).cells = s.cells := by rw [State.interrupt_frame]
@[simp] theorem State.interrupt_progs (s : State) (f v : Nat) : (s.interrupt f v).progs = s.progs := by rw [State.interrupt_frame]
@[simp] theorem State.interrupt_agg (s : State) (f v : Nat) : (s.interrupt f v).agg = s.agg := by rw [State.interrupt_frame]
@[simp] theorem State.interrupt_ring (s : State) (f v : Nat) : (s.interrupt f v).ring = s.ring := by rw [State.interrupt_frame]
@[simp] theorem State.interrupt_mem (s : State) (f v : Nat) : (s.interrupt f v).mem = s.mem := by rw [State.interrupt_frame]
@[simp] theorem State.interrupt_ram (s : State) (f v : Nat) : (s.interrupt f v).ram = s.ram := by rw [State.interrupt_frame]
@[simp] theorem State.interrupt_fab (s : State) (f v : Nat) : (s.interrupt f v).fab = s.fab := by rw [State.interrupt_frame]
@[simp] theorem State.interrupt_sec (s : State) (f v : Nat) : (s.interrupt f v).sec = s.sec := by rw [State.interrupt_frame]
@[simp] theorem State.interrupt_pwr (s : State) (f v : Nat) : (s.interrupt f v).pwr = s.pwr := by rw [State.interrupt_frame]
@[simp] theorem State.interrupt_perst (s : State) (f v : Nat) : (s.interrupt f v).perst = s.perst := by rw [State.interrupt_frame]
@[simp] theorem State.interrupt_coldDue (s : State) (f v : Nat) : (s.interrupt f v).coldDue = s.coldDue := by rw [State.interrupt_frame]
@[simp] theorem State.interrupt_warmAt (s : State) (f v : Nat) : (s.interrupt f v).warmAt = s.warmAt := by rw [State.interrupt_frame]
@[simp] theorem State.interrupt_out (s : State) (f v : Nat) : (s.interrupt f v).out = s.out := by rw [State.interrupt_frame]
@[simp] theorem State.interrupt_freeCtr (s : State) (f v : Nat) : (s.interrupt f v).freeCtr = s.freeCtr := by rw [State.interrupt_frame]
@[simp] theorem State.interrupt_pending (s : State) (f v : Nat) : (s.interrupt f v).pending = s.pending := by rw [State.interrupt_frame]
@[simp] theorem State.interrupt_waiting (s : State) (f v : Nat) : (s.interrupt f v).waiting = s.waiting := by rw [State.interrupt_frame]
@[simp] theorem State.interrupt_slot0 (s : State) (f v : Nat) : (s.interrupt f v).slot0 = s.slot0 := by rw [State.interrupt_frame]
@[simp] theorem State.interrupt_loads (s : State) (f v : Nat) : (s.interrupt f v).loads = s.loads := by rw [State.interrupt_frame]
@[simp] theorem State.interrupt_dbg (s : State) (f v : Nat) : (s.interrupt f v).dbg = s.dbg := by rw [State.interrupt_frame]
@[simp] theorem State.event_spn (s : State) (q cls status source detail : Nat) : (s.event q cls status source detail).spn = s.spn := by rw [State.event_frame]
@[simp] theorem State.event_jig (s : State) (q cls status source detail : Nat) : (s.event q cls status source detail).jig = s.jig := by rw [State.event_frame]
@[simp] theorem State.event_cells (s : State) (q cls status source detail : Nat) : (s.event q cls status source detail).cells = s.cells := by rw [State.event_frame]
@[simp] theorem State.event_progs (s : State) (q cls status source detail : Nat) : (s.event q cls status source detail).progs = s.progs := by rw [State.event_frame]
@[simp] theorem State.event_agg (s : State) (q cls status source detail : Nat) : (s.event q cls status source detail).agg = s.agg := by rw [State.event_frame]
@[simp] theorem State.event_ring (s : State) (q cls status source detail : Nat) : (s.event q cls status source detail).ring = s.ring := by rw [State.event_frame]
@[simp] theorem State.event_mem (s : State) (q cls status source detail : Nat) : (s.event q cls status source detail).mem = s.mem := by rw [State.event_frame]
@[simp] theorem State.event_ram (s : State) (q cls status source detail : Nat) : (s.event q cls status source detail).ram = s.ram := by rw [State.event_frame]
@[simp] theorem State.event_fab (s : State) (q cls status source detail : Nat) : (s.event q cls status source detail).fab = s.fab := by rw [State.event_frame]
@[simp] theorem State.event_sec (s : State) (q cls status source detail : Nat) : (s.event q cls status source detail).sec = s.sec := by rw [State.event_frame]
@[simp] theorem State.event_pwr (s : State) (q cls status source detail : Nat) : (s.event q cls status source detail).pwr = s.pwr := by rw [State.event_frame]
@[simp] theorem State.event_perst (s : State) (q cls status source detail : Nat) : (s.event q cls status source detail).perst = s.perst := by rw [State.event_frame]
@[simp] theorem State.event_coldDue (s : State) (q cls status source detail : Nat) : (s.event q cls status source detail).coldDue = s.coldDue := by rw [State.event_frame]
@[simp] theorem State.event_warmAt (s : State) (q cls status source detail : Nat) : (s.event q cls status source detail).warmAt = s.warmAt := by rw [State.event_frame]
@[simp] theorem State.event_out (s : State) (q cls status source detail : Nat) : (s.event q cls status source detail).out = s.out := by rw [State.event_frame]
@[simp] theorem State.event_freeCtr (s : State) (q cls status source detail : Nat) : (s.event q cls status source detail).freeCtr = s.freeCtr := by rw [State.event_frame]
@[simp] theorem State.event_pending (s : State) (q cls status source detail : Nat) : (s.event q cls status source detail).pending = s.pending := by rw [State.event_frame]
@[simp] theorem State.event_waiting (s : State) (q cls status source detail : Nat) : (s.event q cls status source detail).waiting = s.waiting := by rw [State.event_frame]
@[simp] theorem State.event_slot0 (s : State) (q cls status source detail : Nat) : (s.event q cls status source detail).slot0 = s.slot0 := by rw [State.event_frame]
@[simp] theorem State.event_loads (s : State) (q cls status source detail : Nat) : (s.event q cls status source detail).loads = s.loads := by rw [State.event_frame]
@[simp] theorem State.complete_spn (s : State) (c : Cmd) (st : Status) (r0 r1 flags : Nat) : (s.complete c st r0 r1 flags).spn = s.spn := by rw [State.complete_frame]
@[simp] theorem State.complete_jig (s : State) (c : Cmd) (st : Status) (r0 r1 flags : Nat) : (s.complete c st r0 r1 flags).jig = s.jig := by rw [State.complete_frame]
@[simp] theorem State.complete_cells (s : State) (c : Cmd) (st : Status) (r0 r1 flags : Nat) : (s.complete c st r0 r1 flags).cells = s.cells := by rw [State.complete_frame]
@[simp] theorem State.complete_progs (s : State) (c : Cmd) (st : Status) (r0 r1 flags : Nat) : (s.complete c st r0 r1 flags).progs = s.progs := by rw [State.complete_frame]
@[simp] theorem State.complete_agg (s : State) (c : Cmd) (st : Status) (r0 r1 flags : Nat) : (s.complete c st r0 r1 flags).agg = s.agg := by rw [State.complete_frame]
@[simp] theorem State.complete_ring (s : State) (c : Cmd) (st : Status) (r0 r1 flags : Nat) : (s.complete c st r0 r1 flags).ring = s.ring := by rw [State.complete_frame]
@[simp] theorem State.complete_mem (s : State) (c : Cmd) (st : Status) (r0 r1 flags : Nat) : (s.complete c st r0 r1 flags).mem = s.mem := by rw [State.complete_frame]
@[simp] theorem State.complete_ram (s : State) (c : Cmd) (st : Status) (r0 r1 flags : Nat) : (s.complete c st r0 r1 flags).ram = s.ram := by rw [State.complete_frame]
@[simp] theorem State.complete_fab (s : State) (c : Cmd) (st : Status) (r0 r1 flags : Nat) : (s.complete c st r0 r1 flags).fab = s.fab := by rw [State.complete_frame]
@[simp] theorem State.complete_sec (s : State) (c : Cmd) (st : Status) (r0 r1 flags : Nat) : (s.complete c st r0 r1 flags).sec = s.sec := by rw [State.complete_frame]
@[simp] theorem State.complete_pwr (s : State) (c : Cmd) (st : Status) (r0 r1 flags : Nat) : (s.complete c st r0 r1 flags).pwr = s.pwr := by rw [State.complete_frame]
@[simp] theorem State.complete_perst (s : State) (c : Cmd) (st : Status) (r0 r1 flags : Nat) : (s.complete c st r0 r1 flags).perst = s.perst := by rw [State.complete_frame]
@[simp] theorem State.complete_coldDue (s : State) (c : Cmd) (st : Status) (r0 r1 flags : Nat) : (s.complete c st r0 r1 flags).coldDue = s.coldDue := by rw [State.complete_frame]
@[simp] theorem State.complete_warmAt (s : State) (c : Cmd) (st : Status) (r0 r1 flags : Nat) : (s.complete c st r0 r1 flags).warmAt = s.warmAt := by rw [State.complete_frame]
@[simp] theorem State.complete_out (s : State) (c : Cmd) (st : Status) (r0 r1 flags : Nat) : (s.complete c st r0 r1 flags).out = s.out := by rw [State.complete_frame]
@[simp] theorem State.complete_freeCtr (s : State) (c : Cmd) (st : Status) (r0 r1 flags : Nat) : (s.complete c st r0 r1 flags).freeCtr = s.freeCtr := by rw [State.complete_frame]
@[simp] theorem State.complete_pending (s : State) (c : Cmd) (st : Status) (r0 r1 flags : Nat) : (s.complete c st r0 r1 flags).pending = s.pending := by rw [State.complete_frame]
@[simp] theorem State.complete_waiting (s : State) (c : Cmd) (st : Status) (r0 r1 flags : Nat) : (s.complete c st r0 r1 flags).waiting = s.waiting := by rw [State.complete_frame]
@[simp] theorem State.complete_slot0 (s : State) (c : Cmd) (st : Status) (r0 r1 flags : Nat) : (s.complete c st r0 r1 flags).slot0 = s.slot0 := by rw [State.complete_frame]
@[simp] theorem State.complete_loads (s : State) (c : Cmd) (st : Status) (r0 r1 flags : Nat) : (s.complete c st r0 r1 flags).loads = s.loads := by rw [State.complete_frame]
@[simp] theorem State.complete_dbg (s : State) (c : Cmd) (st : Status) (r0 r1 flags : Nat) : (s.complete c st r0 r1 flags).dbg = s.dbg := by rw [State.complete_frame]
@[simp] theorem State.fail_spn (s : State) (c : Cmd) (st : Status) : (s.fail c st).spn = s.spn := by simp [State.fail]
@[simp] theorem State.ok_spn (s : State) (c : Cmd) : (s.ok c).spn = s.spn := by simp [State.ok]
@[simp] theorem State.fail_jig (s : State) (c : Cmd) (st : Status) : (s.fail c st).jig = s.jig := by simp [State.fail]
@[simp] theorem State.ok_jig (s : State) (c : Cmd) : (s.ok c).jig = s.jig := by simp [State.ok]
@[simp] theorem State.fail_cells (s : State) (c : Cmd) (st : Status) : (s.fail c st).cells = s.cells := by simp [State.fail]
@[simp] theorem State.ok_cells (s : State) (c : Cmd) : (s.ok c).cells = s.cells := by simp [State.ok]
@[simp] theorem State.fail_progs (s : State) (c : Cmd) (st : Status) : (s.fail c st).progs = s.progs := by simp [State.fail]
@[simp] theorem State.ok_progs (s : State) (c : Cmd) : (s.ok c).progs = s.progs := by simp [State.ok]
@[simp] theorem State.fail_agg (s : State) (c : Cmd) (st : Status) : (s.fail c st).agg = s.agg := by simp [State.fail]
@[simp] theorem State.ok_agg (s : State) (c : Cmd) : (s.ok c).agg = s.agg := by simp [State.ok]
@[simp] theorem State.fail_ring (s : State) (c : Cmd) (st : Status) : (s.fail c st).ring = s.ring := by simp [State.fail]
@[simp] theorem State.ok_ring (s : State) (c : Cmd) : (s.ok c).ring = s.ring := by simp [State.ok]
@[simp] theorem State.fail_mem (s : State) (c : Cmd) (st : Status) : (s.fail c st).mem = s.mem := by simp [State.fail]
@[simp] theorem State.ok_mem (s : State) (c : Cmd) : (s.ok c).mem = s.mem := by simp [State.ok]
@[simp] theorem State.fail_ram (s : State) (c : Cmd) (st : Status) : (s.fail c st).ram = s.ram := by simp [State.fail]
@[simp] theorem State.ok_ram (s : State) (c : Cmd) : (s.ok c).ram = s.ram := by simp [State.ok]
@[simp] theorem State.fail_fab (s : State) (c : Cmd) (st : Status) : (s.fail c st).fab = s.fab := by simp [State.fail]
@[simp] theorem State.ok_fab (s : State) (c : Cmd) : (s.ok c).fab = s.fab := by simp [State.ok]
@[simp] theorem State.fail_sec (s : State) (c : Cmd) (st : Status) : (s.fail c st).sec = s.sec := by simp [State.fail]
@[simp] theorem State.ok_sec (s : State) (c : Cmd) : (s.ok c).sec = s.sec := by simp [State.ok]
@[simp] theorem State.fail_pwr (s : State) (c : Cmd) (st : Status) : (s.fail c st).pwr = s.pwr := by simp [State.fail]
@[simp] theorem State.ok_pwr (s : State) (c : Cmd) : (s.ok c).pwr = s.pwr := by simp [State.ok]
@[simp] theorem State.fail_perst (s : State) (c : Cmd) (st : Status) : (s.fail c st).perst = s.perst := by simp [State.fail]
@[simp] theorem State.ok_perst (s : State) (c : Cmd) : (s.ok c).perst = s.perst := by simp [State.ok]
@[simp] theorem State.fail_coldDue (s : State) (c : Cmd) (st : Status) : (s.fail c st).coldDue = s.coldDue := by simp [State.fail]
@[simp] theorem State.ok_coldDue (s : State) (c : Cmd) : (s.ok c).coldDue = s.coldDue := by simp [State.ok]
@[simp] theorem State.fail_warmAt (s : State) (c : Cmd) (st : Status) : (s.fail c st).warmAt = s.warmAt := by simp [State.fail]
@[simp] theorem State.ok_warmAt (s : State) (c : Cmd) : (s.ok c).warmAt = s.warmAt := by simp [State.ok]
@[simp] theorem State.fail_out (s : State) (c : Cmd) (st : Status) : (s.fail c st).out = s.out := by simp [State.fail]
@[simp] theorem State.ok_out (s : State) (c : Cmd) : (s.ok c).out = s.out := by simp [State.ok]
@[simp] theorem State.fail_freeCtr (s : State) (c : Cmd) (st : Status) : (s.fail c st).freeCtr = s.freeCtr := by simp [State.fail]
@[simp] theorem State.ok_freeCtr (s : State) (c : Cmd) : (s.ok c).freeCtr = s.freeCtr := by simp [State.ok]
@[simp] theorem State.fail_pending (s : State) (c : Cmd) (st : Status) : (s.fail c st).pending = s.pending := by simp [State.fail]
@[simp] theorem State.fail_waiting (s : State) (c : Cmd) (st : Status) : (s.fail c st).waiting = s.waiting := by simp [State.fail]
@[simp] theorem State.fail_slot0 (s : State) (c : Cmd) (st : Status) : (s.fail c st).slot0 = s.slot0 := by simp [State.fail]
@[simp] theorem State.fail_loads (s : State) (c : Cmd) (st : Status) : (s.fail c st).loads = s.loads := by simp [State.fail]
@[simp] theorem State.ok_pending (s : State) (c : Cmd) : (s.ok c).pending = s.pending := by simp [State.ok]
@[simp] theorem State.ok_waiting (s : State) (c : Cmd) : (s.ok c).waiting = s.waiting := by simp [State.ok]
@[simp] theorem State.ok_slot0 (s : State) (c : Cmd) : (s.ok c).slot0 = s.slot0 := by simp [State.ok]
@[simp] theorem State.ok_loads (s : State) (c : Cmd) : (s.ok c).loads = s.loads := by simp [State.ok]
@[simp] theorem State.fail_dbg (s : State) (c : Cmd) (st : Status) : (s.fail c st).dbg = s.dbg := by simp [State.fail]
@[simp] theorem State.ok_dbg (s : State) (c : Cmd) : (s.ok c).dbg = s.dbg := by simp [State.ok]

/-- In TAMPERED a register write changes nothing (R483). -/
theorem State.ifWritable_tampered (s : State) (f : State → State) (h : s.sec.lifecycle = .tampered) : s.ifWritable f = s := by
  simp [State.ifWritable, h]

/-- Outside TAMPERED a register write takes effect. -/
theorem State.ifWritable_of (s : State) (f : State → State) (h : s.sec.lifecycle ≠ .tampered) : s.ifWritable f = f s := by
  simp [State.ifWritable, h]

/-! ### Cell instructions (R204, R207) -/

/-- An instruction that is not the cell's next changes nothing. -/
theorem State.issue_idle (s : State) (a : CellAt) (w : InstrWord) (unit cost lat : Nat) (body : State → Except Failed State)
    (h : (s.beginDue (s.cellGroup a.cell.val)).issues a.cell.val w (min cost stepCycles) = false) :
    s.issue a w unit cost lat body = s := by
  simp [State.issue, h]

/-- The cell's next instruction has its effect, or fails and halts its group (R204). -/
theorem State.issue_runs (s : State) (a : CellAt) (w : InstrWord) (unit cost lat : Nat) (body : State → Except Failed State)
    (hb : s.beginDue (s.cellGroup a.cell.val) = s) (h : s.issues a.cell.val w (min cost stepCycles) = true) :
    let u := s.updCell a.cell.val fun x => x.addWork unit cost lat
    (∀ t, body u = .ok t → s.issue a w unit cost lat body = t) ∧
    (∀ f, body u = .error f → s.issue a w unit cost lat body =
      (f.at_.updCell a.cell.val fun x => { x with work := wrapAdd 64 (s.cell a.cell.val).work f.cycles }).failCell a.cell.val
        (s.cell a.cell.val).pc f.why.1 unit f.why.2) := by
  constructor
  · intro t ht; unfold State.issue; simp only [hb, h, if_true, ht]
  · intro f ht; unfold State.issue; simp only [hb, h, if_true, ht]

/-- An instruction of a unit whose checks fail fails with the first of them, after one work cycle (R204, R210, R228). -/
theorem State.unitInstr_fails (s : State) (a : CellAt) (w : InstrWord) (o : UnitOp) (checks : State → List (Bool × Failure))
    (effect : Nat → State → Except Failed State) (hb : s.beginDue (s.cellGroup a.cell.val) = s)
    (h : s.issues a.cell.val w (min o.cost stepCycles) = true) (e : Failure)
    (he : firstFailure (checks (s.updCell a.cell.val fun x => x.addWork o.unit o.cost o.lat)) = some e) :
    s.unitInstr a w o checks effect =
      ((s.updCell a.cell.val fun x => x.addWork o.unit o.cost o.lat).updCell a.cell.val fun x =>
        { x with work := wrapAdd 64 (s.cell a.cell.val).work 1 }).failCell a.cell.val (s.cell a.cell.val).pc e.1 o.unit e.2 := by
  unfold State.unitInstr
  exact (s.issue_runs a w o.unit o.cost o.lat _ hb h).2 
    { why := e, at_ := s.updCell a.cell.val fun x => x.addWork o.unit o.cost o.lat } (by simp only [he])

/-- An instruction of a unit that meets nothing from outside has its whole effect and completes (R204, R211). -/
theorem State.unitInstr_completes (s : State) (a : CellAt) (w : InstrWord) (o : UnitOp) (checks : State → List (Bool × Failure))
    (effect : Nat → State → Except Failed State) (hb : s.beginDue (s.cellGroup a.cell.val) = s)
    (h : s.issues a.cell.val w (min o.cost stepCycles) = true) (hm : a.met = {}) (t : State)
    (hc : firstFailure (checks (s.updCell a.cell.val fun x => x.addWork o.unit o.cost o.lat)) = none)
    (ht : effect o.steps (s.updCell a.cell.val fun x => x.addWork o.unit o.cost o.lat) = .ok t) :
    s.unitInstr a w o checks effect =
      (t.settle (s.updCell a.cell.val fun x => x.addWork o.unit o.cost o.lat) a.cell.val o {}).completeInstr a := by
  unfold State.unitInstr
  refine (s.issue_runs a w o.unit o.cost o.lat _ hb h).1 _ ?_
  simp only [hc, hm, UnitOp.meets, ht, Except.map, Nat.lt_irrefl, if_false]

/-- s0 reads 0, and a write of it is discarded (R202). -/
@[simp] theorem Cell.sreg_zero (x : Cell) : x.sreg 0 = 0 := rfl
@[simp] theorem Cell.setSreg_zero (x : Cell) (v : Word64) : x.setSreg 0 v = x := rfl
theorem Cell.sreg_setSreg (x : Cell) (r q : Nat) (v : Word64) (h : r ≠ 0) :
    (x.setSreg r v).sreg q = if q = r then v else x.sreg q := by
  by_cases hq : q = r
  · subst hq; simp [Cell.sreg, Cell.setSreg, h]
  · by_cases hz : q = 0
    · subst hz; simp [hq]
    · simp [Cell.sreg, Cell.setSreg, h, hq, hz, Tab.look_put_other _ _ _ _ _ hq]

end Sys2Proof.Machine
end

