-- ==== Sys2Proof/Tests/Slice0.lean ====
section
/-! SUPPORT. Tests/Slice0.lean: the refusals of the well-formedness checks, small checks of single commands against the spec's own numbers and
examples, and for the statements states and operands that meet their hypotheses. -/

namespace Sys2Proof.Tests

set_option Elab.async false

open Sys2Proof Sys2Proof.Machine

/-! ### States to test on -/

/-- A cell group 0 of cells 0 and 1, and everything else, is tenant 1's; engine 0 feeds the group; tenant 1 owns every slot. -/
def cfg : JigConfig :=
  { assembly := { members := [default], coordinator := 0 }
    partition := [{ cellTenant := [1, 1], cellGroup := [0, 0], dmaGroup := [0] }]
    slots := [[(0, List.replicate 64 1), (256, List.replicate 64 1), (512, List.replicate 64 1), (768, List.replicate 64 1),
      (1024, List.replicate 64 1), (1280, List.replicate 64 1), (1536, List.replicate 64 1)]]
    routes := [[{ src := 0, dst := 1, hops := 1, path := 1 }]]
    ports := [[{ role := 1, peerMember := 1 }]] }

/-- A page of a tenant's space with every right. -/
def full (tier frame : Nat) : Page := { tier := tier, r := true, w := true, acc := true, x := true, frame := frame }

/-- A running engine: OWNED, firmware RUNNING, tenant 1 RUNNING, the jig above; page 0 of tenants 0 and 1 on the host, page 1 in HBM. -/
def run : State :=
  { State.reset with
    perst := false
    spn := { pos := 1000000, align := .done, epochSet := true, locked := true, lastBoundary := 999424 }
    jig := { loaded := true, cfg := cfg, shadow := cfg }
    dbg := { fw := { state := .running } }
    sec := { lifecycle := .owned, tenants := [(1, { state := .running, drbg := true })] }
    mem := { pages := [(0, full 3 0), (1, full 1 70000), (8589934592, full 3 1), (8589934593, full 1 70001)]
             limit := [(3, 1048576), (4, 1048576), (5, 1048576)] } }

/-- A command of PF0 with these operands. -/
def cmd (tenant a0 : Nat) : Cmd := { fn := 0, qp := 0, cid := 7, tenant := tenant, a0 := a0 }
/-- A command of VF 1. -/
def vf (a0 : Nat) : Cmd := { fn := 1, qp := 0, cid := 8, a0 := a0 }

/-- The state that a command answers. -/
def after (i : Instr) (s : State) : State := afterRow (exec i s) s

/-- The cell that issues. -/
def at0 : CellAt := { cell := 0 }
/-- An address operand on s0. -/
def addr (n : Nat) : AddrOp := { base := 0, off := n }
/-- `run` with group 0's program started: cell 0 has a word at its instruction pointer, between two NOPs. -/
def prog (w : InstrWord) : State :=
  { run with
    cells := [(0, { running := true, store := [cellWord at0 false 0x00 [], w, cellWord at0 false 0x00 []], pc := 1 })]
    progs := [{ group := 0, entry := 0, args := [], cmd := cmd 1 0, begun := true, at_ := 0 }] }
/-- The same with another first cell. -/
def progOn (w : InstrWord) (f : Cell → Cell) : State := (prog w).updCell 0 f

/-- `run` at another position. -/
def atPos (p : Nat) : State := { run with spn := { run.spn with pos := p } }
/-- `run` with this in the SEC block. -/
def withSec (f : Sec → Sec) : State := { run with sec := f run.sec }

/-- Both signatures verify. -/
def sigs : SigPair := { rsa := true, slh := true }
/-- A step answers a next state. -/
def next? (o : Host.Outcome State Fault Refusal) : Bool := match o with | .next _ => true | .fault _ => false | .refused _ => false
/-- A block of `n` zero bytes in host memory. -/
def zeros (n : Nat) : List Byte := List.replicate n 0


/-! ### The well-formedness checks refuse -/

theorem test_wf_command_field : Instr.wf (.quotaSet { cmd 1 0 with a0 := 2 ^ 64 }) = false := by decide
theorem test_wf_command : Instr.wf (.quotaSet (cmd 1 0)) = true := by decide
theorem test_wf_address_operand : Instr.wf (.vld at0 0 (addr (2 ^ 22))) = false := by decide
theorem test_wf_control_signals : Instr.wf (.halt { cell := 0, sig := some 3 }) = false := by decide
theorem test_wf_loop_count : Instr.wf (.loop at0 5 0 0) = false := by decide
theorem test_wf_jump_target : Instr.wf (.jump at0 4096) = false := by decide
theorem test_wf_brank_value : Instr.wf (.brank at0 0 0 64) = false := by decide
theorem test_wf_nop_count : Instr.wf (.nop at0 65536) = false := by decide
theorem test_wf_wait_count : Instr.wf (.wait at0 false 0 0) = false := by decide
theorem test_wf_signal_count : Instr.wf (.signal at0 0 65536) = false := by decide
theorem test_wf_salu_func : Instr.wf (.salu at0 0 0 0 8 false 0) = false := by decide
theorem test_wf_gclose_out : Instr.wf (.gclose at0 0 3 0 0 (addr 0) (addr 0) (addr 0) 0) = false := by decide
theorem test_wf_gclose_fused : Instr.wf (.gclose at0 0 0 6 0 (addr 0) (addr 0) (addr 0) 0) = false := by decide
theorem test_wf_accld_slots : Instr.wf (.accld at0 0 0 0 17 (addr 0)) = false := by decide
theorem test_wf_accst_slots : Instr.wf (.accst at0 0 0 0 0 (addr 0)) = false := by decide
theorem test_wf_mma_mode : Instr.wf (.mma at0 0 0 0 14 false (addr 0) (addr 0) 4) = false := by decide
theorem test_wf_mma_transposed_mode : Instr.wf (.mma at0 0 0 0 2 true (addr 0) (addr 0) 4) = false := by decide
theorem test_wf_mma_packed_count : Instr.wf (.mma at0 0 0 0 3 false (addr 0) (addr 0) 6) = false := by decide
theorem test_wf_ewadd_passes : Instr.wf (.ewadd at0 0 0 0 0 false (addr 0)) = false := by decide
theorem test_wf_mask_passes : Instr.wf (.mask at0 0 0 0 17 false 0) = false := by decide
theorem test_wf_vop_reserved : Instr.wf (.vop at0 0 0 0 15 false 0 false 0) = false := by decide
theorem test_wf_vop_modular_unpaired : Instr.wf (.vop at0 0 0 0 18 false 0 false 0) = false := by decide
theorem test_wf_vred_func : Instr.wf (.vred at0 0 0 3 false) = false := by decide
theorem test_wf_move_transposed : Instr.wf (.move at0 (addr 0) (addr 0) 17 true) = false := by decide
theorem test_wf_send_beats : Instr.wf (.send at0 0 false 0 (addr 0) (addr 0) 0) = false := by decide
theorem test_wf_feed_descriptor : Instr.wf (.feed at0 false 0 (addr (2 ^ 22))) = false := by decide
theorem test_wf_access_aligned : Instr.wf (.readClear { fn := 0, offset := 4, size := 8, value := 0, write := false }) = false := by decide
theorem test_wf_access_error_is_misaligned :
    Instr.wf (.accessError { fn := 0, offset := 8, size := 8, value := 0, write := false }) = false := by decide
theorem test_wf_window_miss_is_a_vf : Instr.wf (.vfWindowMiss { fn := 0, offset := 8, size := 8, value := 0, write := false }) = false := by
  decide
theorem test_wf_access_offset : Instr.wf (.readClear { fn := 0, offset := 2 ^ 26, size := 8, value := 0, write := false }) = false := by
  decide
theorem test_wf_packet : Instr.wf (.etkaiSendPacket { head := zeros 47 }) = false := by decide
theorem test_wf_message : Instr.wf (.keyex 0 (zeros 63) [] {} true) = false := by decide
theorem test_wf_fetched_entry : Instr.wf (.commandFetch 0 0 (zeros 63)) = false := by decide
theorem test_wf_doorbell : Instr.wf (.hifSqDoorbell 0 0 4096) = false := by decide


/-! ### States and operands that meet the hypotheses of the statements: the queue, resets, commands, firmware, power -/

/-- `run` as seen by a host driver whose queue pair 0 has a command waiting, with an event mask in force. -/
def hosted : State :=
  { run with hif := { queues := [(0, { enable := true, ien := true, sqTail := 1 })] }
             dbg := { fw := { state := .running }, host := { supervised := true, lastBeat := 1000000 } } }
/-- `run` in HOST_LOST. -/
def lost : State := { run with dbg := { fw := { state := .running }, host := { supervised := true, lost := true } } }
/-- A firmware image of 8,368 bytes with SVN 5 and ADVANCE, for the firmware keys that the part accepts. -/
def image (keys : Nat) : List Byte :=
  leBytes 4 0x49574658 ++ leBytes 2 1 ++ leBytes 2 0x80 ++ leBytes 4 8368 ++ leBytes 2 0x7264 ++ leBytes 1 2 ++ leBytes 1 1 ++
    leBytes 4 2 ++ leBytes 4 5 ++ leBytes 4 128 ++ leBytes 4 0 ++ leBytes 48 keys ++ leBytes 48 0 ++ List.replicate 8240 0
/-- FW_LOAD of that image. -/
def fwCmd (keys : Nat) : Cmd := { cmd 0 0 with len := 8368, host := image keys }
/-- LOAD_WAIT after alignment, tenant 0 alone. -/
def waiting : State := { run with dbg := {} }
/-- BOOTING, the image's SVN 5 above the counter. -/
def booting : State := { run with dbg := { fw := { state := .booting, loading := some (some (cmd 0 0), 5, true, 999000) } } }
/-- HOST_LOST with a command at the head of PF0 queue 0. -/
def lostHosted : State :=
  { lost with hif := { queues := [(0, { enable := true, ien := true, sqTail := 1 })] } }
/-- A submission-queue entry of all zeros but its opcode. -/
def raw (op : Nat) : List Byte := BitVec.ofNat 8 op :: zeros 63
theorem leNat_leBytes (n v : Nat) : leNat (leBytes n v) = v % 256 ^ n := by
  induction n generalizing v with
  | zero => simp [leBytes, leNat, Nat.mod_one]
  | succ n ih => simp [leBytes, leNat, ih, Nat.pow_succ, Nat.mul_comm _ 256, Nat.mod_mul]

theorem witness_front_and_empty_queue :
    ({ run with pending := [.heartbeat 0, .fwReady] } : State).pending = .heartbeat 0 :: [.fwReady] ∧ run.pending = [] ∧ run.counting = true ∧
    State.reset.counting = false ∧ run.waiting = [] ∧ run.loads = [] ∧ run.ring.evkJobs = [] ∧ run.progs = [] ∧ run.fab.eps = [] := by decide +kernel
theorem witness_tamper_trip : ∀ x : Sensor, run.sensing x = true ∧ run.sec.lifecycle.live = true := by
  intro x; cases x <;> decide +kernel
theorem witness_tampered_step : ({ run with sec := { lifecycle := .tampered } } : State).sec.lifecycle = .tampered ∧
    next? (step { run with sec := { lifecycle := .tampered } }) = true := by decide +kernel
theorem witness_memory_canonical : Memory.wf [(5, 1), (9, 2)] = true ∧ next? (step { run with ram := [(5, 1), (9, 2)] }) = true := by decide +kernel
theorem witness_lifecycle_change : (after (.tamperTrip .vbatLoss) run).sec.lifecycle ≠ run.sec.lifecycle := by decide +kernel
theorem witness_completion : run.hif.discard.contains (0, 7) = false ∧ run.dbg.host.lost = false ∧ lost.dbg.host.lost = true ∧
    ((hosted.queue 0 0).ien && (hosted.queue 0 0).cqHead == (hosted.queue 0 0).cqTail) = true := by decide +kernel
theorem witness_event : bitAt (run.shvMask 0) 10 = true ∧ bitAt ({ run with dbg := { shv := [(1, { mask := 0 })] } : State}.shvMask 1) 10 = false ∧
    (run.shv 0).entries.length < 4096 := by decide +kernel
theorem witness_event_full : ∃ e : Shaving, 4096 ≤ ({ run with dbg := { shv := [(0, { entries := List.replicate 4096 e })] } : State}.shv 0).entries.length :=
  ⟨⟨0, false, 0, 0, 0, 0, 0⟩, by decide +kernel⟩
theorem witness_tampered_command : ({ run with sec := { lifecycle := .tampered } } : State).sec.lifecycle = .tampered ∧
    (Instr.keyGenerate (cmd 1 0)).cmd? = some (cmd 1 0) ∧ run.frozen = false ∧ ({ run with spn := { run.spn with frozenAt := some 1 } } : State).frozen = true := by
  decide
theorem witness_load_wait_refusal : waiting.sec.lifecycle ≠ .tampered ∧ waiting.dbg.fw.state = .loadWait ∧ run.dbg.fw.state ≠ .loadWait := by decide
theorem witness_unused_operand : Nat.land (2 ^ 64) 18446744073709551615 ≠ 2 ^ 64 ∧ (vf 0).fn ≠ 0 ∧ 7 < (cmd 8 0).tenant ∧ (cmd 1 0).tenant ≠ 0 ∧
    (run.tenant 2).state = .absent := by decide +kernel
theorem witness_undefined_opcode : hosted.frozen = false ∧ hosted.dbg.host.lost = false ∧ hosted.nextFetch = some (0, 0) ∧ hosted.sec.lifecycle ≠ .tampered ∧
    hosted.dbg.fw.state ≠ .loadWait ∧ (cmdOfBytes 0 0 (raw 0xFF)).1 = 0xFF := by decide +kernel
theorem witness_fetch : hosted.frozen = false ∧ hosted.nextFetch = some (0, 0) ∧ hosted.general (cmdOfBytes 0 0 (raw 0x60)).1 (cmdOfBytes 0 0 (raw 0x60)).2 = none ∧
    run.nextFetch ≠ some (0, 0) ∧ lostHosted.dbg.host.lost = true ∧ (lostHosted.queue 0 0).fetchable = true ∧ (cmdOfBytes 0 0 (raw 0x83)).1 = 0x83 ∧
    lostHosted.general (cmdOfBytes 0 0 (raw 0x83)).1 (cmdOfBytes 0 0 (raw 0x83)).2 = none ∧ (cmdOfBytes 0 0 (raw 0x60)).1 ≠ 0x83 ∧ (cmd 7 9).wf = true := by decide +kernel
/-- R531: KEY_DESTROY, CID 0x1234, TENANT 2, ARG0 0x0005, its 64 bytes written out from the table. -/
theorem test_command_bytes : (let b : List Byte := [0x62, 0, 0x34, 0x12, 2, 0, 0, 0] ++ zeros 16 ++ [5, 0, 0, 0, 0, 0, 0, 0] ++ zeros 32
    let x := cmdOfBytes 3 1 b; (x.1, x.2.cid, x.2.tenant, x.2.a0, x.2.rsvd)) = (0x62, 0x1234, 2, 5, 0) := by decide +kernel
theorem witness_queue_enable : (run.queue 0 0).enable = false ∧ (run.queue 0 0).draining = false ∧ (run.queue 0 0).sqUnaligned = false ∧
    (run.queue 0 0).cqUnaligned = false ∧ 4 ≤ bits (0xC4 : Word64).toNat 0 4 ∧ bits (0xC4 : Word64).toNat 0 4 ≤ bits (0xC4 : Word64).toNat 4 4 ∧
    bits (0xC4 : Word64).toNat 4 4 ≤ 12 := by decide +kernel
theorem witness_queue_enable_discarded : (hosted.queue 0 0).enable = true ∧ bits (0x45 : Word64).toNat 4 4 < bits (0x45 : Word64).toNat 0 4 := by
  decide +kernel
theorem witness_doorbells : 15 % 4096 < 2 ^ (hosted.queue 0 0).sqLog ∧ 2 ^ (hosted.queue 0 0).sqLog ≤ 16 % 4096 ∧
    (let q := { hosted.queue 0 0 with cqTail := 3 }; 3 % 4096 < 2 ^ q.cqLog ∧
      (3 % 4096 + 2 ^ q.cqLog - q.cqHead) % 2 ^ q.cqLog ≤ (q.cqTail + 2 ^ q.cqLog - q.cqHead) % 2 ^ q.cqLog) := by decide +kernel
theorem witness_hif_reset : bits (0xC01D000000000001 : Word64).toNat 48 16 = 0xC01D ∧ bits (0xC01C000000000001 : Word64).toNat 48 16 ≠ 0xC01D := by
  decide
theorem witness_vector : Tab.look false run.hif.pba 3 = false ∧ Tab.look false [(3, true)] 3 = true := by decide +kernel
theorem witness_link : run.spn.align = .done ∧ run.perst = false ∧ hosted.dbg.host.supervised = true ∧ hosted.dbg.host.downAt = none ∧
    ({ run with hif := { spdm := true } } : State).hif.spdm = true := by decide +kernel

/-- Page 2 of tenant 1 in DDR5 at the bottom of the exchange window, shared with the host, with or without a lock. -/
def exchanged (locks : Nat) : State :=
  { run with mem := { run.mem with exch := 1, pages := run.mem.pages ++ [(8589934594, { full 2 458752 with exch := true, locks := locks })] } }
theorem witness_exchange : 0 + 3 ≤ (exchanged 0).mem.exch * 2 ^ 21 ∧ (∀ t p, (exchanged 0).exchPage 0 = some (t, p) → p.locks = 0) ∧
    (exchanged 1).exchPage 65535 = some (1, { full 2 458752 with exch := true, locks := 1 }) ∧
    (exchanged 0).mem.exch * 2 ^ 21 < 2097150 + 3 ∧ 2097149 + 3 ≤ (exchanged 0).mem.exch * 2 ^ 21 := by
  refine ⟨by decide, fun t p h => ?_, by decide +kernel, by decide +kernel, by decide +kernel⟩
  have h0 : (exchanged 0).exchPage 0 = some (1, { full 2 458752 with exch := true }) := by decide +kernel
  rw [h0] at h; simp only [Option.some.injEq, Prod.mk.injEq] at h; rw [← h.2]; rfl

theorem witness_fw_load : waiting.accepts 0x08 (fwCmd (Config.vendorKeys true)) = true ∧ waiting.dbg.fw.state = .loadWait ∧
    (fwCmd (Config.vendorKeys true)).addr % 64 = 0 ∧
    fwCheck waiting (fwCmd (Config.vendorKeys true)).host (fwCmd (Config.vendorKeys true)).len false sigs = none := by
  have hk : ∀ v, v < 2 ^ 384 → field (image v) 0x20 48 = v := by
    intro v hv
    have : field (image v) 0x20 48 = leNat (leBytes 48 v) := rfl
    rw [this, leNat_leBytes]; exact Nat.mod_eq_of_lt hv
  have ho : fwHeaderOk waiting (image (Config.vendorKeys true)) 8368 = true := by decide +kernel
  refine ⟨rfl, rfl, rfl, ?_⟩
  have hs : field (image (Config.vendorKeys true)) 0x14 4 = 5 := rfl
  have hv := hk (Config.vendorKeys true) (Config.vendorKeyBits true).isLt
  change fwCheck waiting (image (Config.vendorKeys true)) 8368 false sigs = none
  simp only [fwCheck, ho, hs]
  simp [show waiting.sec.partB = true from rfl, show waiting.sec.otpSvn = 0 from rfl, show sigs.ok = true from rfl, hv]
theorem witness_fw_ready : booting.dbg.fw.loading = some (some (cmd 0 0), 5, true, 999000) ∧ booting.dbg.fw.state = .booting ∧
    booting.pos ≤ 999000 + 200000000 ∧ booting.sec.otpSvn < 5 := by decide +kernel
theorem witness_fw_timeout : 999000 + 200000000 ≤ ({ booting with spn := { booting.spn with pos := 200999000 } } : State).pos := by decide
theorem witness_firmware_stop : run.dbg.fw.state = .running ∧ run.pwr.lastLoop + 3 ≤ run.turn / 8 := by decide +kernel
theorem witness_host_lost : (let s := { hosted with dbg := { fw := { state := .running }, host := { supervised := true, lastBeat := 0 } } };
    ∃ b, s.hostLostAt = some b ∧ b ≤ ({ s with spn := { s.spn with pos := b } } : State).pos) ∧ run.spn.frozenAt = none :=
  ⟨⟨_, rfl, Nat.le_refl _⟩, rfl⟩
/-- HOST_LOST with that measurement of the running firmware. -/
def lostWith (m : Nat) : State := { lost with dbg := { lost.dbg with fw := { state := .running, measurement := m } } }
/-- ATTACH that names the measurement 3. -/
def attachCmd : Cmd := { cmd 0 0 with len := 128, a0 := 3, host := zeros 128 }
theorem witness_attach : (lostWith 3).accepts 0x83 attachCmd = true ∧ (lostWith 3).dbg.fw.state ≠ .booting ∧ 128 ≤ attachCmd.len ∧
    (lostWith 3).blockFail 0 attachCmd.addr 128 (fun p => p.r && p.w) = none ∧
    (lostWith 3).attachNames attachCmd = (lostWith 3).dbg.fw.measurement ∧
    (lostWith 4).attachNames attachCmd ≠ (lostWith 4).dbg.fw.measurement ∧ (lostWith 4).accepts 0x83 attachCmd = true := by decide +kernel
theorem witness_shavings : (let c := { cmd 0 8 with a1 := 0xFFFFFFFF, a2 := 63, a3 := 4096 }; run.accepts 0xA0 c = true ∧ c.a0 ≤ 8 ∧
      c.a1 < 2 ^ 32 ∧ c.a2 ≤ 63 ∧ 1 ≤ c.a3 ∧ c.a3 ≤ 4096) ∧
    (run.accepts 0xA0 (vf 3) = true ∧ (vf 3).fn ≠ 0 ∧ (vf 3).a0 ≠ (vf 3).fn.val + 1) ∧
    (run.accepts 0xA0 { cmd 0 9 with a3 := 1 } = true ∧ 8 < (cmd 0 9).a0) ∧
    (let s := { run with dbg := { run.dbg with shv := [(0, { entries := [⟨1, false, 0, 0, 0, 0, 0⟩] })] } };
      (s.shv 0).entries = [⟨1, false, 0, 0, 0, 0, 0⟩] ∧ (s.shv 1).entries = []) := by decide +kernel

theorem witness_power_loop : (let s := atPos 1048576; s.dbg.fw.state = .running ∧ s.spn.frozenAt = none ∧ s.turn % 8 = 0 ∧
    s.pwr.lastLoop ≠ s.turn / 8 + 1 ∧ Tab.look 0 s.sec.calEffect 0x20 = 0 ∧ s.pwr.tripFrame ≠ s.turn / 8) := by decide +kernel
theorem witness_power_ladder : 11 * 450 < 4951 ∧ (10 * 450 < 4950 ∧ 4950 ≤ 11 * 450) ∧ 2 * 4275 ≤ 19 * 450 ∧
    (19 * 450 < 2 * 4276 ∧ 4500 ≤ 10 * 450) := by decide
theorem test_power_ladder : loopDecide [0, 1, 2, 3, 4, 5, 6, 7] 5 false 2 4951 450 = (8, true, 0) ∧ loopDecide [0, 1, 2, 3, 4, 5, 6, 7] 5 false 2 4950 450 = (6, true, 0) ∧
    loopDecide [0, 1, 2, 3, 4, 5, 6, 7] 5 false 3 4275 450 = (4, true, 0) ∧ loopDecide [0, 1, 2, 3, 4, 5, 6, 7] 5 false 2 4275 450 = (5, false, 3) ∧
    loopDecide [0, 1, 2, 3, 4, 5, 6, 7] 5 false 2 4276 450 = (5, false, 0) ∧ loopDecide [0, 1, 2, 3, 4, 5, 6, 7] 5 false 2 4500 450 = (5, false, 0) ∧
    loopDecide [0, 1, 2, 3, 4, 5, 6, 7] 26 false 2 4951 450 = (27, true, 0) := by decide +kernel
theorem witness_grants : run.pwr.hot = false ∧ run.barrierTurn 1 run.turn = false ∧ run.windowTurn 1 run.turn .meshRoute = false ∧
    ({ run with pwr := { hot := true } } : State).pwr.hot = true := by decide +kernel
theorem test_rungs : rungRatio 2 = 27 ∧ rungDuty 11 7 = 4 ∧ rungDuty 10 7 = 8 ∧ rungDuty 12 0 = 2 ∧ rungDuty 20 0 = 1 ∧ rungDuty 27 7 = 1 := by decide
theorem witness_thermal : run.dbg.fw.state = .running ∧ run.spn.frozenAt = none ∧ run.pwr.lastThermal + 1000000 ≤ run.pos ∧
    (∀ i, i < 16 → Tab.look 0 run.sec.calEffect (0x10 + i) = 0) ∧ (List.replicate 16 (1600 : Int)).length = 16 ∧ run.pwr.hot = false ∧
    run.pwr.hotDue = false := by decide +kernel
theorem test_thermal_floor : (after (.thermalLoop (List.replicate 16 1600)) run).pwr.nextFloor = 1 ∧
    (after (.thermalLoop (List.replicate 16 1599)) run).pwr.nextFloor = 0 := by decide +kernel
theorem witness_hot_trip : (1696 : Int) ≤ 1696 ∧ (2000 : Int) ≤ 2000 ∧ run.pwr.hot = false ∧ run.pwr.hotDue = false := by decide
theorem witness_hot_release : (let s := { atPos 999424 with pwr := { hot := true } }; s.pwr.hot = true ∧ s.pos % 2 ^ s.spn.k = 0) ∧
    ∀ x ∈ [(1648 : Int)], x ≤ 1648 := by decide +kernel
theorem witness_trips : run.released = true ∧ run.accepts 0x90 (cmd 0 450) = true ∧ run.accepts 0x90 (cmd 0 1050) = true ∧
    run.accepts 0x90 (cmd 0 449) = true ∧ run.dbg.fw.state ≠ .stopped ∧ run.pwr.lastDw < 10240 := by decide +kernel
theorem witness_vdd : (let s := { atPos 1097728 with pwr := { vddWait := some 1000 } }; s.dbg.fw.state = .running ∧ s.spn.frozenAt = none ∧
    s.turn % 8 = 6 ∧ s.pwr.vddWait = some 1000 ∧ 985 * 1000 ≤ 1000 * 985) := by decide +kernel

/-! ### Keys, attestation, life cycle and resets -/

/-- Usage UTT of a key of type 1 by tenant 1. -/
def keyCmd : Cmd := cmd 1 (1 + 16 + 0x1000000)
/-- An elliptic-curve key of tenant 1, from 32 bytes in host memory. -/
def importCmd (b : Nat) : Cmd := { cmd 1 (3 + 0x1000000) with len := 32, host := List.replicate 32 (BitVec.ofNat 8 b) }
/-- Key entry 0 is tenant 1's. -/
def keyed : State := withSec fun x => { x with keys := [(0, { type := 1, owner := 1, uses := 1, value := 77 })] }
/-- The device's identity is ready. -/
def named : State := withSec fun x => { x with identityReady := true, attSerial := 1, keys := [(0, { type := 1, owner := 1, uses := 1, value := 77 }),
  (1022, { type := 6, owner := 0xA, uses := 0x4000, value := 1 }), (1023, { type := 7, owner := 0xA, uses := 0x4000, value := 2 })] }

theorem witness_key_generate : run.accepts 0x60 keyCmd = true ∧ run.keyRefusal keyCmd = none ∧ run.freeTenantKeys ≠ [] ∧ run.freeTenantKeys.head? = some 0 ∧
    run.sec.healthFail = false := by decide +kernel
theorem witness_key_refusal : run.accepts 0x60 (cmd 1 0x1000000) = true ∧ run.accepts 0x61 (cmd 1 0x1000000) = true ∧
    run.keyRefusal (cmd 1 0x1000000) = some .bounds := by decide +kernel
theorem test_key_generate : ((after (.keyGenerate keyCmd) run).key 0).type = 1 ∧ ((after (.keyGenerate keyCmd) run).key 0).uses = 1 ∧
    ((after (.keyGenerate keyCmd) run).key 1).type = 0 := by decide +kernel
theorem witness_key_import : (let c := importCmd 1; run.accepts 0x61 c = true ∧ run.keyRefusal c = none ∧ run.freeTenantKeys.head? = some 0 ∧
    run.sec.enforce = false ∧ c.len = 32 ∧ run.blockFail (cmdActs c) c.addr 32 (fun p => p.r) = none ∧ bits c.a0 0 4 = 3 ∧
    beNat (run.readVA (cmdActs c) c.addr 32 c.host) ≠ 0 ∧ beNat (run.readVA (cmdActs c) c.addr 32 c.host) < p256Order) := by decide +kernel
theorem witness_key_destroy : keyed.accepts 0x62 (vf 0) = true ∧ (keyed.key 0).type ≠ 0 ∧ keyed.keyInUse 0 = false ∧ (keyed.key 0).owner = (vf 0).fn.val ∧
    (let c : Cmd := { vf 0 with fn := 2 }
     let s := withSec fun x => { x with tenants := [(1, { state := .running }), (2, { state := .running })], keys := keyed.sec.keys }
     s.accepts 0x62 c = true ∧ (s.key 0).type ≠ 0 ∧ c.fn ≠ 0 ∧ (s.key 0).owner ≠ c.fn.val) := by decide +kernel
theorem test_key_destroy : ((after (.keyDestroy (vf 0)) keyed).key 0).type = 0 := by decide +kernel
theorem witness_answer : named.sec.identityReady = true ∧ named.blockFail 1 0 16384 (fun p => p.w) = none ∧
    named.keyUse 1022 deviceOwner 14 = none ∧ named.keyUse 1023 deviceOwner 14 = none := by decide +kernel
theorem witness_attestations : (let c := { vf 0 with len := 16384 }; named.accepts 0x63 c = true ∧ (named.key c.a0).type ≠ 0 ∧
      (named.key c.a0).owner = cmdActs c ∧ named.accepts 0x81 c = true ∧ c.fn ≠ 0 ∧ attestScope named.sec.lifecycle = 2) ∧
    named.accepts 0x81 (cmd 0 0) = true ∧ named.accepts 0x82 (cmd 0 0) = true ∧ named.sec.attSerial ≠ 0 := by decide +kernel
theorem witness_identity : run.sec.lifecycle.live = true ∧ run.sec.identityReady = false ∧ run.spn.align = .done := by decide
theorem witness_approved : run.sec.lifecycle ≠ .tampered ∧ run.sec.healthFail = false ∧ (0x13C0 : Word64).toNat % 1024 ≤ 960 ∧
    960 < (961 : Word64).toNat % 1024 := by decide
/-- CAL_USER_LOAD of one entry. -/
def calCmd (id delta : Nat) : Cmd :=
  { cmd 0 0 with len := 16, host := leBytes 4 0x4C414358 ++ leBytes 1 1 ++ leBytes 1 0 ++ leBytes 2 1 ++ leBytes 2 id ++ leBytes 2 0 ++ leBytes 4 delta }
theorem witness_calibration : (let s := withSec fun x => { x with lifecycle := .open_ }; let c := calCmd 0x20 5; let b := s.readVA 0 c.addr 16 c.host
    s.accepts 0x91 c = true ∧ s.blockFail 0 c.addr c.len (fun p => p.r) = none ∧ s.dbg.fw.state ≠ .stopped ∧ s.sec.lifecycle = .open_ ∧
    c.len = 16 ∧ field b 0 4 = 0x4C414358 ∧ field b 4 1 = 1 ∧ field b 5 1 = 0 ∧ field b 6 2 = 1 ∧ (calLimit (field b 8 2)).isSome = true ∧
    field b 10 2 = 0) := by decide +kernel
theorem witness_calibration_limit : calLimit 0x20 = some 20 := by decide
theorem witness_lifecycle_advance : (let s := withSec fun x => { x with tenants := [], chalValid := true }
    let c := { cmd 0 1 with len := 8240, host := zeros 8240 }
    s.accepts 0x80 c = true ∧ lifecycleOf c.a0 = some .provisioned ∧ advanceNeeds s.sec.lifecycle .provisioned = some 2 ∧ c.len = 8240 ∧ sigs.ok = true ∧
    s.sec.chalValid = true ∧ s.blockFail 0 c.addr c.len (fun p => p.r) = none ∧ (s.sec.enforce && Lifecycle.provisioned == .open_) = false ∧
    (∀ t, t < 8 → 0 < t → (s.tenant t).state = .absent) ∧ s.busyZero = false ∧ s.jig.commit = none ∧
    s.hif.discard.contains (16 * c.fn.val + c.qp.val, c.cid) = false ∧ s.dbg.host.lost = false) := by decide +kernel
theorem witness_lifecycle_refused : run.accepts 0x80 (cmd 0 0) = true ∧ lifecycleOf 0 = some .blank ∧ advanceNeeds run.sec.lifecycle .blank = none := by
  decide +kernel
theorem test_lifecycle_table : advanceNeeds .open_ .owned = some 0 ∧ advanceNeeds .owned .open_ = some 3 ∧ advanceNeeds .retired .owned = none := by
  decide
theorem witness_cold : ({ run with coldDue := true } : State).coldDue = true ∧ run.perst = false ∧ State.reset.perst = true ∧
    State.reset.spn.align = .inReset := by decide
theorem test_cold_reset_keeps_the_life_cycle : (after (.perstAssert 100) run).sec.lifecycle = .owned ∧ (after (.perstAssert 100) run).perst = true ∧
    (after (.perstAssert 99) run).perst = false := by decide +kernel
theorem witness_warm : (let s := { run with warmAt := some 999424 }; s.warmAt = some 999424 ∧ 999424 ≤ s.pos ∧ s.spn.frozenAt = none) := by decide
theorem witness_flr : (run.tenant 1).removal = none ∧ (run.tenant 1).state ≠ .removing ∧ (run.tenant 1).state ≠ .absent ∧
    (hosted.hif.queues.any (fun e => e.1 / 16 == 0)) = true ∧
    ((after (.vfFlr 1) run).tenant 1).removal.isSome = true := by decide +kernel

/-! ### Tenants, memory and DMA -/

/-- `run` with tenant 2 as given. -/
def tenant2 (x : Tenant) : State := withSec fun y => { y with tenants := y.tenants ++ [(2, x)] }
/-- A removal of a tenant. -/
def removal (b : Nat) (begun : Bool) : Removal := ⟨b, false, none, begun, true, 0, 0, 0, 0, 0, 0⟩
/-- `run` where DMA engine 0 also has slots of DEVICE, with this jig otherwise. -/
def devSlots : List Nat := List.replicate 32 1 ++ List.replicate 32 0xA
/-- `run` where DMA engine 0 also has slots of DEVICE. -/
def device : State :=
  { run with jig := { loaded := true, cfg := { cfg with slots := [(cfg.slots.headD []).map (fun e => if e.1 = 512 then (512, devSlots) else e)],
                                                        dmaBudget := [(1, 1048576)] } }
             spn := { run.spn with budgetDma := [(1, { remaining := 1048576 })] } }
/-- `device` with this in the MEM block. -/
def withMem (f : Mem → Mem) : State := { device with mem := f device.mem }
/-- A descriptor of 64 bytes from HBM to HBM. -/
def desc : Desc := { op := 0, v := false, srcCell := false, dstCell := false, format := 0, q := 0, src := 65536, dst := 65664, length := 64, tag := 0,
                     formOk := true }
/-- A chain of that descriptor. -/
def work (begun : Bool) : DmaWork := ⟨.cmd (cmd 1 0), [desc], 0, 0, false, false, false, begun, none⟩
/-- That chain on engine 0, with the tenant's budget full. -/
def moving : State :=
  withMem (fun m => { m with work := [(32, [work true])] })
/-- The same parked. -/
def parked : State := { moving with mem := { moving.mem with parked := [(32, { pending := true, turns := 65536 })] } }

theorem witness_tenant_create : (let c := cmd 2 0; run.accepts 0x10 c = true ∧ run.sec.lifecycle = .owned ∧ run.jig.loaded = true ∧ run.jig.commit = none ∧
    (run.tenant 2).state = .absent ∧ (run.tenant 2).creating = none ∧ run.bigE ≤ 1 ∧ run.keysHeld 2 + 5 ≤ run.keyLimit 2 ∧
    5 ≤ run.freeTenantKeys.length ∧ run.sec.healthFail = false) ∧ run.accepts 0x10 (cmd 0 0) = true ∧ run.accepts 0x10 (cmd 1 0) = true ∧
    (run.tenant 1).state ≠ .absent := by decide +kernel
/-- A creation that waits for the boundary, decided. -/
def creation (d : Status) : Creating := { boundary := 999424, cmd := some (cmd 2 0), decision := some d }
theorem witness_tenant_create_boundary : (let s := tenant2 { creating := some (creation .ok) }
    (s.tenant 2).creating = some (creation .ok) ∧ s.due (creation .ok).boundary = true ∧ ∀ u, u < 8 → u ≠ 2 → (s.tenant u).creating = none) ∧
    (let s := tenant2 { creating := some (creation .quotaExceeded) }; (s.tenant 2).creating = some (creation .quotaExceeded) ∧ s.due 999424 = true) := by
  decide +kernel
theorem test_tenant_create : ((after .tenantCreateBoundary (tenant2 { creating := some (creation .ok) })).tenant 2).state = .created ∧
    ((after .tenantCreateBoundary (tenant2 { creating := some (creation .quotaExceeded) })).tenant 2).state = .absent := by decide +kernel
theorem witness_tenant_remove : run.accepts 0x11 (cmd 1 0) = true ∧ (run.tenant 1).state ≠ .removing ∧ run.jig.commit = none ∧ run.bigE ≤ 1 ∧
    run.accepts 0x11 (cmd 0 0) = true ∧ run.accepts 0x11 (cmd 2 0) = true ∧ (run.tenant 2).state = .absent := by decide +kernel
theorem witness_tenant_remove_boundary : (let s := tenant2 { state := .removing, removal := some (removal 999424 false) }
    (s.tenant 2).removal = some (removal 999424 false) ∧ s.due (removal 999424 false).boundary = true ∧
    (∀ u, u < 8 → u ≠ 2 → (s.tenant u).removal = none)) ∧
    (∀ c, ((tenant2 { state := .removing }).cell c).running = false) := ⟨by decide +kernel, fun _ => rfl⟩
/-- A removal in its fence, in slot 0 of a turn. -/
def fencing (n : Nat) : State :=
  { tenant2 { state := .removing, removal := some (removal 8192 true), phase := n } with spn := { run.spn with pos := 999424 } }
theorem witness_fence : (let s := fencing 14; (s.tenant 2).removal = some (removal 8192 true) ∧ (s.tenant 2).phase = 14 ∧ (removal 8192 true).begun = true ∧
    s.due ((removal 8192 true).boundary + 15 * 2 ^ s.spn.k) = true ∧ s.slotOf s.pos = 0 ∧ s.waiting = [] ∧ s.fabricUp = []) ∧
    (let s := fencing 15; (s.tenant 2).phase = 15 ∧ s.due ((removal 8192 true).boundary + 16 * 2 ^ s.spn.k) = true) := by decide +kernel
theorem witness_scrub : (let s : State := { device with sec := (tenant2 { state := .removing, removal := some (removal 1 true), phase := 17 }).sec }
    (s.tenant 2).removal = some (removal 1 true) ∧ 17 ≤ (s.tenant 2).phase ∧ (∀ c, c < 64 → s.cellTenant c = 2 → (s.cell c).clearing = false) ∧
    s.frozen = false ∧ s.scrubMode = 0 ∧ s.deviceEngines ≠ []) ∧
    (let r := { removal 1 true with cmd := some (cmd 2 0) }
     let s : State := { device with sec := (tenant2 { state := .removing, removal := some r, phase := 17 }).sec }
     (s.tenant 2).removal = some r ∧ r.cmd = some (cmd 2 0) ∧ s.bigE ≤ 1 ∧ s.jig.me = 0 ∧ s.spn.lost = [] ∧ (s.tenant 2).early = []) := by decide +kernel
theorem witness_quota : run.accepts 0x12 (cmd 1 5) = true ∧ run.present 1 = true ∧ run.accepts 0x12 (cmd 1 2147483648) = true ∧
    run.accepts 0x12 (cmd 2 5) = true ∧ run.present 2 = false := by decide +kernel
theorem test_quota : (after (.quotaSet (cmd 1 5)) run).limitUnits 1 2 = 5 := by decide +kernel
theorem witness_host_lost_limit : (let s : State := { lost with spn := { lost.spn with pos := 12000000000000 } }
    s.dbg.host.lost = true ∧ s.dbg.host.limitPassed = false ∧ s.limitAt ≤ s.pos ∧ s.frozen = false ∧ (s.tenant 1).state = .running ∧ s.agg.rounds = []) := by
  decide +kernel
theorem witness_enables : (run.tenant (1 : TenantId).val).state = .running := by decide +kernel

/-- MEM_MAP of tenant 1 at page 4, toward host address 0. -/
def mapping : State := withMem fun m => { m with maps := [(1, { va := 262144 })] }
/-- GO for one page of a tier with every right. -/
def goTier (n : Nat) : Word64 := BitVec.ofNat 64 (4 * n + 0x1E0 + 2 ^ 32)
/-- The registers that GO leaves. -/
def goRegs (op n va : Nat) : MapRegs := { va := va, op := op, tier := n, rights := 15, count := 1, byHost := true }
theorem witness_map_busy : ((withMem fun m => { m with maps := [(1, { busy := true })] }).mapRegs 1).busy = true := by decide +kernel
theorem witness_map : mapping.sec.lifecycle ≠ .tampered ∧ (mapping.mapRegs 1).busy = false ∧ bits (goTier 3).toNat 2 2 = 3 ∧
    bits (goTier 3).toNat 32 21 = 1 ∧ bits (goTier 3).toNat 5 4 = 15 ∧ bitAt (goTier 3).toNat 4 = false ∧ bitAt (goTier 3).toNat 9 = false ∧
    mapping.mapCheck 0 1 0 (goRegs 0 3 262144) = none ∧ mapping.mapCheck 0 1 0 (goRegs 0 1 262144) = none ∧
    mapping.mapCheck 0 1 0 (goRegs 0 3 65536) = some .xlateFault ∧ mapping.mapCheck 0 1 1 (goRegs 1 3 65536) = none ∧
    mapping.mapCheck 0 1 1 (goRegs 1 3 262144) = some .xlateFault ∧ mapping.mapCheck 0 1 2 (goRegs 2 3 65536) = none ∧
    mapping.mapCheck 0 1 2 (goRegs 2 3 262144) = some .xlateFault ∧
    (mapping.takeFrames 1 1 1 1 (mapping.firstFrame 1)).isSome = true := by decide +kernel
theorem test_map : ((after (.memMap 0 1 (goTier 3)) mapping).page 1 262144).tier = 3 ∧ ((after (.memMap 0 1 (goTier 1)) mapping).mapRegs 1).busy = true := by
  decide +kernel
theorem witness_zero_fill : run.deviceEngines = [] ∧ (let s := withMem fun m => { m with maps := [(1, { busy := true, tier := 1, frames := [70002] })] }
    s.deviceEngines ≠ [] ∧ s.frozen = false ∧ (s.mapRegs 1).busy = true ∧ (s.tenant 1).removal = none) := by decide +kernel
theorem witness_exchange_size : waiting.sec.lifecycle ≠ .tampered ∧ State.reset.jig.loaded = false ∧ (32768 : Word64).toNat % 65536 ≤ 32768 ∧
    32768 < (32769 : Word64).toNat % 65536 ∧ run.jig.loaded = true := by decide
/-- MEM_RETIRE of a frame. -/
def retire (tier f : Nat) : Word64 := BitVec.ofNat 64 (tier * 2 ^ 47 + f * 2 ^ 16)
theorem witness_retire : bits (retire 1 4718591).toNat 16 31 = 4718591 ∧ bits (retire 1 4718591).toNat 47 2 = 1 ∧ 4718591 < run.frameCount 1 ∧
    run.frameCount 1 ≤ 4718592 ∧ run.firstFrame 1 ≤ 4718591 ∧ 0 < run.firstFrame 1 ∧ (run.mem.retired.filter (fun x => x.1 == 1)).length < 4096 ∧
    (1, 4718591) ∉ run.mem.retired ∧ run.pageOfFrame 1 4718591 = none := by decide +kernel
theorem witness_rotate : (let c := cmd 1 1; run.accepts 0x64 c = true ∧ (run.tierKey (cmdActs c) 0).prevValid = false ∧
    (run.tierKey (cmdActs c) 0).cmd = none ∧ (memoryKeys false).length ≤ run.freeTenantKeys.length ∧ run.present (cmdActs c) = true ∧
    run.sec.healthFail = false) ∧
    (withMem fun m => { m with keys := [(2, { prevValid := true })] }).accepts 0x64 (cmd 1 1) = true := by decide +kernel
theorem witness_rotate_boundary : (let s := withMem fun m => { m with keys := [(2, { cmd := some (cmd 1 1, 999424) })] }
    (s.tierKey 1 (b2n false)).cmd = some (cmd 1 1, 999424) ∧ 999424 ≤ s.pos ∧ s.frozen = false ∧
    ∃ e ∈ s.mem.pages, e.1 / 2 ^ 33 = 1 ∧ e.2.tier = b2n false + 1 ∧ e.2.exch = false) := by decide +kernel
/-- A sweep of tenant 1's HBM with two old pages left. -/
def sweeping : State := withMem fun m => { m with keys := [(2, { sweeping := true, prevValid := true, epoch := 1, oldPages := 2 })] }
/-- `run` with an exchange window of 2 MiB at the foot of the DDR5 reservation and a page of tenant 1 in DDR5 of the epoch before. -/
def ciphered : State :=
  withMem fun m => { m with exch := 1, keys := [(2, { cur := [0, 1] }), (3, { epoch := 1, cur := [2, 3, 4], prev := [5, 6, 7] })]
                            pages := m.pages ++ [(8589934594, full 2 70002)] }
theorem witness_cipher : ciphered.inExchange 2 ciphered.exchBase = true ∧ ciphered.exchBase + 2097152 < 18446744073709551616 ∧
    (ciphered.pageOfFrame 1 70001).map (fun x => (x.1, x.2.tier, x.2.epoch)) = some (8589934593, 1, 0) ∧ (ciphered.tierKey 1 0).epoch = 0 ∧
    (ciphered.pageOfFrame 2 70002).map (fun x => (x.1, x.2.tier, x.2.epoch)) = some (8589934594, 2, 0) ∧ (ciphered.tierKey 1 1).epoch ≠ 0 ∧
    ciphered.inExchange 2 (70002 * 65536) = false ∧ ciphered.pageOfFrame 1 0 = none ∧ 0 < ciphered.firstFrame 1 ∧
    ciphered.pageOfFrame 1 70003 = none ∧ ciphered.firstFrame 1 ≤ 70003 ∧ (ciphered.unitKeys 1 0).isSome = true := by decide +kernel
theorem witness_sweep : (sweeping.tierKey 1 (b2n false)).sweeping = true ∧ sweeping.deviceEngines ≠ [] ∧ sweeping.frozen = false ∧
    sweeping.sweepNext 1 (b2n false) = some (8589934593, full 1 70001) ∧
    (sweeping.takeFrames 1 (b2n false + 1) 1 1 (sweeping.firstFrame (b2n false + 1))).map (fun x => x.1.length) = some 1 ∧
    pageUnits false < (sweeping.tierKey 1 (b2n false)).oldPages := by decide +kernel
theorem witness_dma_submit : (let c := { cmd 1 0 with len := 64, host := zeros 64 }
    device.accepts 0x30 c = true ∧ device.ownsSlot .dma c.a0 (cmdActs c) = true ∧ device.dmaBudgetFull (cmdActs c) ≠ 0 ∧
    device.blockFail (cmdActs c) c.addr c.len (fun p => p.r) = none ∧ run.dmaBudgetFull (cmdActs c) = 0 ∧ device.accepts 0x30 (cmd 1 32) = true) := by
  decide +kernel
theorem witness_beat : (let p := device.page 1 65664; (desc.dst + 0) % 64 = 0 ∧ desc.dstCell = false ∧ p.tier = 1 ∧ p.broken = false ∧ p.acc = true ∧
    p.w = true ∧ p.sealed_ = false ∧ p.locks = 0) ∧ (device.page 1 262144).tier = 0 ∧
    (let p := (withMem fun m => { m with pages := [(8589934593, { tier := 1, frame := 70001 })] }).page 1 65664
     p.tier ≠ 0 ∧ p.broken = false ∧ p.w = false ∧ p.acc = false) := by decide +kernel
theorem witness_dma_end : moving.work 1 0 = [work true] ∧ (work true).idx + 1 = (work true).descs.length ∧ moving.mayIssue 1 .dma 0 = true ∧
    (moving.parkedAt 1 0).pending = false ∧
    moving.descPages 1 desc (fun p => p.tier != 3 && !p.exch) (fun p => p.tier != 3 && !p.exch) = true ∧
    (let s0 := (moving.setParked 1 0 {}).setEngine 0 { (moving.setParked 1 0 {}).engine 0 with active := true, tenant := 1, op := 0, device := false }
     (State.dmaBeats 1 0 (work true) desc [] none {} (desc.length / 64 + 1) s0 0 false (s0.runCycles .dma 0 1)).2 = (64, none)) := by decide +kernel
theorem test_dma_copy : (let s := after (.dmaCopy 1 0 [] none {}) { moving with ram := [(18446744073709551616 + 70001 * 65536, 9)] }
    s.ramByte (18446744073709551616 + 70001 * 65536 + 128) = 9 ∧ s.work 1 0 = []) := by decide +kernel
theorem witness_dma_parked : (parked.parkedAt 1 0).pending = true ∧ (parked.parkedAt 1 0).resume = false ∧ parked.work 1 0 = [work true] ∧
    parked.mem.faultLimit ≠ 0 ∧ parked.mem.faultLimit ≤ (parked.parkedAt 1 0).turns ∧ parked.frozen = false := by decide +kernel

/-! ### The jig and the Spindle -/

/-- A refresh table with a window in every sixth slot. -/
def refreshTable : List Nat := (List.range 64).map (fun i => if i % 6 = 0 then 9 else 8)
/-- A jig that every check of R118 passes, for one engine. -/
def goodCfg : JigConfig :=
  { cfg with
    ports := []
    spindle := { k := 13, roles := [.master] }
    slots := [(cfg.slots.headD []) ++ (List.range 8).map (fun i => (1792 + i, refreshTable)) ++ (List.range 12).map (fun i => (2048 + i, refreshTable))]
    routeSets := [(0, { upstream := [{}], shards := [[0]] })] }
/-- A section of an image: TYPE, INSTANCE 0, LENGTH, value. -/
def sectionBytes (t : Nat) (v : List Byte) : List Byte := leBytes 2 t ++ leBytes 2 0 ++ leBytes 4 v.length ++ v
/-- The values of the sections 1 to 12. -/
def sectionValues : List (List Byte) :=
  [zeros 8, zeros 8, partitionRecord (cfg.partition.headD {}), zeros 8, zeros 8, meshRecord (cfg.routes.headD []), portsRecord [], zeros 8, zeros 8, zeros 8,
   zeros 8, zeros 8]
/-- An unsigned image of 3,696 bytes, its header and sections written out as R97 and R98 lay them out. -/
def imageBytes : List Byte :=
  leBytes 4 0x47494A58 ++ leBytes 2 1 ++ leBytes 2 0x100 ++ leBytes 4 3696 ++ leBytes 2 0x7264 ++ leBytes 1 0xB1 ++ leBytes 1 1 ++ zeros 48 ++
    leBytes 8 5 ++ leBytes 2 0 ++ leBytes 2 12 ++ leBytes 4 3696 ++ zeros 48 ++ zeros 128 ++
    (sectionValues.zipIdx.map (fun x => sectionBytes (x.2 + 1) x.1)).flatten
/-- What its bytes say. -/
def goodHeader : JigHeader := { imageLength := 3696, stepping := 0xB1, flags := 1, serial := 5, sectionCount := 12, sigOffset := 3696 }
/-- Its sections. -/
def goodSections : List JigSection :=
  [⟨1, 0, 256, 8, zeros 8, true⟩, ⟨2, 0, 272, 8, zeros 8, true⟩, ⟨3, 0, 288, 192, partitionRecord (cfg.partition.headD {}), true⟩,
   ⟨4, 0, 488, 8, zeros 8, true⟩, ⟨5, 0, 504, 8, zeros 8, true⟩, ⟨6, 0, 520, 2056, meshRecord (cfg.routes.headD []), true⟩,
   ⟨7, 0, 2584, 1024, portsRecord [], true⟩, ⟨8, 0, 3616, 8, zeros 8, true⟩, ⟨9, 0, 3632, 8, zeros 8, true⟩,
   ⟨10, 0, 3648, 8, zeros 8, true⟩, ⟨11, 0, 3664, 8, zeros 8, true⟩, ⟨12, 0, 3680, 8, zeros 8, true⟩]
/-- `goodCfg` as its PARTITION, MESH_ROUTES and PORTS bytes give it. -/
def readCfg : JigConfig :=
  let part : JigPartition := { cellTenant := [1, 1] ++ List.replicate 62 8, cellGroup := [0, 0] ++ List.replicate 62 0xFF, dmaGroup := [0] ++ List.replicate 31 0xFF }
  { goodCfg with ports := [List.replicate 16 {}], partition := [part] }
/-- An engine with running firmware and no tenant. -/
def fresh : State := withSec fun x => { x with tenants := [] }
/-- The same in OPEN. -/
def openFresh : State := { fresh with sec := { fresh.sec with lifecycle := .open_ } }
/-- JIG_LOAD's command, its image in host memory. -/
def loadCmd : Cmd := { cmd 0 0 with len := 3696, host := imageBytes }
/-- `run` under the good jig, its shadow the same. -/
def good : State := { run with jig := { loaded := true, cfg := goodCfg, shadow := goodCfg } }
/-- JIG_COMMIT for turn 160 with a signature block. -/
def commitCmd (turn : Nat) : Cmd := { cmd 0 turn with len := 8240, a1 := 1 }
/-- A commit for turn 122 that is pending. -/
def pend (vs : List (Nat × Status × Nat)) (d : Option (Bool × Status × Nat × Nat)) : Commit := ⟨122, 1, false, 0, some (commitCmd 122), vs, (.ok, 0), false, [], d⟩
/-- `good` with that commit. -/
def committing (vs : List (Nat × Status × Nat)) (d : Option (Bool × Status × Nat × Nat)) : State :=
  { good with jig := { good.jig with commit := some (pend vs d) } }
/-- `run` with this in the SPN block. -/
def withSpn (f : Spn → Spn) : State := { run with spn := f run.spn }

theorem witness_jig_load_refused : run.accepts 0x01 loadCmd = true ∧ run.loadLocked = true ∧
    (let s : State := { fresh with sec := { fresh.sec with lifecycle := .provisioned } }
     s.accepts 0x01 loadCmd = true ∧ s.loadLocked = false ∧ s.sec.lifecycle ≠ .owned ∧ s.sec.lifecycle ≠ .open_) := by decide +kernel
/-- A buffer on the first page, in the HOST tier, reads as the host gives it. -/
theorem readVA_host (s : State) (host : List Byte) (h : ∀ i, i < host.length → (s.page 0 i).tier = 3) : s.readVA 0 0 host.length host = host := by
  apply List.ext_getElem
  · simp [State.readVA]
  · intro i h1 h2
    simp [State.readVA, State.vaByte, h i h2, List.getElem?_eq_getElem h2]
theorem image_read : imageBytes.length = 3696 ∧ readJig imageBytes goodCfg = (goodHeader, goodSections, readCfg) := by decide +kernel
theorem load_buffer (s : State) (hs : s.mem = run.mem) : s.readVA 0 loadCmd.addr (min loadCmd.len 4194304) loadCmd.host = imageBytes := by
  have := readVA_host s imageBytes (by
    intro i hi
    rw [image_read.1] at hi
    have : pageKey 0 i = 0 := by simp [pageKey]; omega
    simp only [State.page, hs, this]; rfl)
  rwa [image_read.1] at this
theorem witness_jig_load : openFresh.accepts 0x01 loadCmd = true ∧ openFresh.loadLocked = false ∧ openFresh.sec.lifecycle = .open_ ∧
    openFresh.blockFail 0 loadCmd.addr loadCmd.len (fun p => p.r) = none ∧ fresh.accepts 0x01 loadCmd = true ∧ fresh.loadLocked = false ∧
    fresh.sec.lifecycle = .owned ∧ fresh.blockFail 0 loadCmd.addr loadCmd.len (fun p => p.r) = none := by decide +kernel
theorem witness_jig_load_image : (let r := readJig (openFresh.readVA 0 loadCmd.addr (min loadCmd.len 4194304) loadCmd.host) goodCfg
    openFresh.jigImageCheck r.1 r.2.2 sigs loadCmd.len = none) ∧
    (let r := readJig (fresh.readVA 0 loadCmd.addr (min loadCmd.len 4194304) loadCmd.host) goodCfg
     fresh.jigImageCheck r.1 r.2.2 sigs loadCmd.len = some .cfgSignature) := by
  simp only [load_buffer openFresh rfl, load_buffer fresh rfl, image_read.2]
  decide +kernel
theorem witness_jig_load_check : (let c := { goodCfg with scrub := 2 }
    let r := readJig (openFresh.readVA 0 loadCmd.addr (min loadCmd.len 4194304) loadCmd.host) c
    openFresh.jigImageCheck r.1 r.2.2 sigs loadCmd.len = none ∧ (firstCheck (openFresh.loadChecks r.1 r.2.1 r.2.2 [])).map (·.id) = some 0x13) := by
  have h : readJig imageBytes { goodCfg with scrub := 2 } = (goodHeader, goodSections, { readCfg with scrub := 2 }) := by decide +kernel
  simp only [load_buffer openFresh rfl, h]
  decide +kernel
theorem witness_jig_load_passes : (let r := readJig (openFresh.readVA 0 loadCmd.addr (min loadCmd.len 4194304) loadCmd.host) goodCfg
    firstCheck (openFresh.loadChecks r.1 r.2.1 r.2.2 []) = none) := by
  simp only [load_buffer openFresh rfl, image_read.2]
  have h1 : firstCheck (check01 goodHeader goodSections readCfg.bigE []) = none := by decide +kernel
  have h2 : firstCheck (openFresh.valueChecks readCfg) = none := by decide +kernel
  unfold State.loadChecks firstCheck at *
  rw [List.find?_append, h1, h2]
  rfl
theorem witness_jig_load_effect : (let s := { fresh with jig := { loading := some (loadCmd, ⟨goodHeader, [], readCfg⟩, 940000) } }
    s.due ((940000 / 65536 + 1) * 65536) = true) ∧ run.jig.loading = none := by decide +kernel
/-- An edit record: TYPE, INSTANCE, FLAGS, OFFSET, LENGTH, 8 bytes of data. -/
def editBytes (t flags off : Nat) : List Byte := leBytes 2 t ++ leBytes 2 0 ++ leBytes 2 flags ++ leBytes 2 0 ++ leBytes 4 off ++ leBytes 4 8 ++ leBytes 8 1
/-- JIG_EDIT of one such record. -/
def editCmd (t flags off : Nat) : Cmd := { cmd 0 0 with len := 24, host := editBytes t flags off }
/-- `good` with sections of 8 bytes. -/
def edited : State := { good with jig := { good.jig with sectionLen := [(8, 8), (40, 8)] } }
/-- What the record means for SCRUB. -/
def scrubOne : List EditMeaning := [{ value := .scrub 1 }]
theorem test_edit_records : editRecordsOf 2 (editBytes 10 0 0) = [⟨10, 0, 0, 0, 0, 8, leBytes 8 1⟩] ∧
    editRecordsOf 2 (leBytes 2 10 ++ leBytes 2 0 ++ leBytes 2 1 ++ zeros 10) = [⟨10, 0, 1, 0, 0, 0, []⟩] := by decide +kernel
theorem witness_jig_edit : edited.accepts 0x02 (editCmd 10 0 0) = true ∧ edited.blockFail 0 0 24 (fun p => p.r) = none ∧
    edited.editFail (edited.editRecords (editCmd 10 0 0) scrubOne) = none ∧
    (edited.editRecords (editCmd 10 0 1) scrubOne).any (fun r => edited.recordOutside r.1) = true ∧
    (edited.editRecords (editCmd 14 0 0) scrubOne).any (fun r => !edited.sectionKnown r.1) = true ∧
    (edited.editRecords (editCmd 2 0 0) [{ value := .spindle goodCfg.spindle, locked := true }]).any (fun r => edited.recordLocked r.1 r.2) = true ∧
    recordResets ⟨0xFFFF, 0, 1, 0, 0, 0, []⟩ = true := by decide +kernel
theorem test_jig_edit : ((after (.jigEdit (editCmd 10 0 0) scrubOne) edited).jig.shadow.scrub = 1) ∧
    (after (.jigEdit (editCmd 10 0 0) scrubOne) edited).jig.cfg.scrub = 0 := by decide +kernel
theorem witness_live_fields : 100 ≤ (0x15180_0000EA60 : Word64).toNat % 4294967296 ∧ (0x15180_0000EA60 : Word64).toNat % 4294967296 ≤ 60000 ∧
    60 ≤ (0x15180_0000EA60 : Word64).toNat / 4294967296 ∧ (0x15180_0000EA60 : Word64).toNat / 4294967296 ≤ 86400 ∧
    (99 : Word64).toNat % 4294967296 < 100 ∧ 70 ≤ (70 : Word64).toNat % 256 ∧ (104 : Word64).toNat % 256 ≤ 104 := by decide
theorem witness_jig_commit : good.accepts 0x03 (commitCmd 160) = true ∧ (commitCmd 160).len = 8240 ∧ good.jig.loaded = true ∧ good.jig.commit = none ∧
    good.jig.loading = none ∧ good.bigE ≤ 1 ∧ good.blockFail 0 (commitCmd 160).addr 8240 (fun p => p.r) = none ∧ good.pos + 150000 + 2 ^ (good.spn.k + 1) ≤ (commitCmd 160).a0 * 2 ^ good.spn.k ∧
    (commitCmd 140).a0 * 2 ^ good.spn.k < good.pos + 150000 + 2 ^ (good.spn.k + 1) ∧ good.accepts 0x03 (commitCmd 140) = true ∧ sigs.ok = true ∧
    (committing [] none).accepts 0x03 (commitCmd 160) = true ∧ (committing [] none).jig.commit ≠ none := by decide +kernel
/-- The commit seen shortly before its turn. -/
def committingAt (p : Nat) (vs : List (Nat × Status × Nat)) (d : Option (Bool × Status × Nat × Nat)) : State :=
  { committing vs d with spn := { run.spn with pos := p, lastBoundary := p / 8192 * 8192 } }
theorem witness_commit_verdict : (let s := committingAt 983040 [] none; s.jig.commit = some (pend [] none) ∧
    s.due (s.commitAt (pend [] none) - 2 ^ (s.spn.k + 1)) = true ∧ s.isCoord = true ∧ s.decides = true ∧ s.pos ≤ s.commitAt (pend [] none) - 2 ^ s.spn.k ∧
    (pend [] none).sent = false) := by decide +kernel
theorem witness_commit_decision : (let s := committingAt 991232 [(0, .ok, 0)] none; s.decides = true ∧ s.due (s.commitAt (pend [(0, .ok, 0)] none) - 2 ^ s.spn.k) = true ∧
    (∀ m, m < s.bigE → m ∉ s.spn.lost ∧ (pend [(0, .ok, 0)] none).verdicts.find? (fun v => v.1 == m) = some (m, .ok, 0))) ∧
    0 < (committing [] none).bigE ∧ (∀ v ∈ (pend [] none).verdicts, v.1 ≠ 0) ∧ 0 ∉ (committing [] none).spn.lost := by decide +kernel
theorem witness_jig_swap : (let k := pend [(0, .ok, 0)] (some (true, .ok, 0, 0)); let s := committing [(0, .ok, 0)] (some (true, .ok, 0, 0))
    s.jig.commit = some k ∧ s.due (s.commitAt k) = true ∧ k.cmd = some (commitCmd 122)) ∧
    (let s := committing [] none; s.jig.commit = some (pend [] none) ∧ s.due (s.commitAt (pend [] none)) = true ∧ (pend [] none).decision = none) := by
  decide +kernel

theorem witness_alignment : (let s := withSpn fun x => { x with align := .qualifying }; s.spn.align = .qualifying ∧ s.perst = false) ∧
    (let s := withSpn fun x => { x with align := .locking, locked := false, pos := 20000, releaseAfter := some 19999 }; s.spn.locked = false ∧ 20000 ≤ s.pos ∧
      s.pos % 100 = 0 ∧ s.pos ≤ 20100 ∧ s.spn.releaseAfter = some 19999 ∧ 19999 < s.pos) ∧
    (let s := withSpn fun x => { x with align := .locking, pos := 20000, releaseAfter := some 20000 }; s.spn.releaseAfter = some 20000 ∧ s.pos ≤ 20000) ∧
    (let s := withSpn fun x => { x with align := .released 999900, alignRepeats := 3 }; s.spn.align = .released 999900 ∧ 999900 + 100 ≤ s.pos ∧
      3 ≤ s.spn.alignRepeats) ∧
    (let s := withSpn fun x => { x with align := .checked 999800 }; s.spn.align = .checked 999800 ∧ 999800 + 200 ≤ s.pos) := by decide +kernel
theorem witness_epoch : (let s : State := { fresh with spn := { run.spn with role := .master, arm := true, epoch := 5000 } }
    s.sec.lifecycle ≠ .tampered ∧ (0x8000000000000064 : Word64).toNat % 9223372036854775808 % 100 = 0 ∧ s.spn.role = .master ∧
    s.jig.cfg.spindle.epoch = .sync ∧ s.quiet = true ∧ s.spn.arm = true ∧ s.mayAdopt = true) ∧ (101 : Word64).toNat % 9223372036854775808 % 100 ≠ 0 ∧ run.quiet = false := by
  decide +kernel
/-- One quiet engine that takes its time by PTP on port 0. -/
def ptp : State :=
  { fresh with jig := { loaded := true, cfg := { cfg with spindle := { epoch := .ptp, ptpPort := 0, ptpDomain := 5 } } }
               spn := { run.spn with role := .master, epochSet := false, ptpTime := some (1000000000, 999900), ptpReady := some 999999 }
               fab := { ports := [(0, { role := 2, state := 1 })] } }
theorem witness_ptp : ptp.jig.loaded = true ∧ ptp.spn.role = .master ∧ ptp.jig.cfg.spindle.epoch = .ptp ∧ ptp.jig.cfg.spindle.ptpPort = 0 ∧
    ptp.jig.cfg.spindle.ptpDomain = 5 ∧ (ptp.port 0).state = 1 ∧ ptp.frozen = false ∧ ptp.bigE = 1 ∧ ptp.spn.epochSet = false ∧
    ptp.pos % 100 = 0 ∧ ptp.mayAdopt = true ∧ ptp.spn.ptpReady = some 999999 ∧ 999999 < ptp.pos := by decide +kernel
theorem witness_ptp_offset : (let s : State := { ptp with spn := { ptp.spn with epochSet := true, pos := 100000000 } }
    s.spn.epochSet = true ∧ s.spn.ptpUpdated + 100000000 ≤ s.pos) := by decide
/-- Two members on two links; this one is the second, the first its coordinator and upstream on port 0, on port 1 as secondary; the second is
the standby. -/
def pairCfg : JigConfig :=
  { cfg with assembly := { members := [{ fingerprint := 0, index := 0, domain := 0 }, { fingerprint := 1, index := 1, domain := 1 }], coordinator := 0, standby := 1 }
             spindle := { roles := [.master, .follower] }
             ports := [[{ role := 1, peerMember := 1 }, { role := 1, peerMember := 1, peerPort := 1 }],
                       [{ role := 1, peerMember := 0 }, { role := 1, peerMember := 0, peerPort := 1 }]]
             linkBudget := [(16, 8400), (17, 8400)]
             routeSets := [(0, { routes := [{ src := 0, dst := 1, ports := [0] }, { src := 1, dst := 0, ports := [0] }],
                                 upstream := [{}, { pri := some 0, sec := some 1 }], shards := [[0], [1]] })] }
/-- This engine as that follower. -/
def follower : State :=
  { run with jig := { loaded := true, cfg := pairCfg, shadow := pairCfg, me := 1 }
             spn := { run.spn with role := .follower, source := .primary, locked := true }
             fab := { ports := [(0, { role := 1, state := 1, keyed := true, peer := 0 })] } }
/-- And as the coordinator. -/
def coord : State :=
  { follower with jig := { follower.jig with me := 0 }, spn := { run.spn with role := .master } }
theorem witness_assembly_alignment : (let s : State := { follower with sec := fresh.sec }
    s.jig.loaded = true ∧ 2 ≤ s.bigE ∧ s.mayAdopt = true ∧ s.spn.stopped = false ∧ s.jig.me ∉ s.spn.lost ∧ s.spn.role = .follower ∧ s.spn.locked = true ∧
    s.spn.source ≠ .holdover ∧ s.measuresBoth [(0, 4000), (1, 6000)] = true ∧ s.measuresBoth [(0, 4000)] = false ∧ 1 ≠ s.dbg.fw.fwClass) := by decide +kernel
theorem witness_sources : follower.spn.role = .follower ∧ follower.spn.source = .primary ∧
    (let s : State := { follower with spn := { follower.spn with source := .holdover, holdoverTurns := 16 } }; s.spn.source = .holdover ∧ 16 ≤ s.spn.holdoverTurns) ∧
    coord.spn.role = .master ∧ coord.spn.clkLostAt = none := by decide
theorem witness_ratio : (let s := withSpn fun x => { x with ratioDue := some (30, 999950) }; s.spn.ratioDue = some (30, 999950) ∧
    s.due ((999950 + 99) / 100 * 100) = true) := by decide +kernel
theorem witness_freeze : (let s := withSpn fun x => { x with tripAt := some 999999 }; s.spn.tripAt = some 999999 ∧ s.spn.frozenAt = none) ∧
    (let s := withSpn fun x => { x with frozenAt := some 999799, tripAt := some 999789 }; s.spn.frozenAt = some 999799 ∧ s.spn.tripAt = some 999789 ∧
      999789 ≤ 999999 ∧ 999999 < s.pos ∧ s.pos % 100 = 0 ∧ 999799 + 200 < s.pos) ∧
    (let s := withSpn fun x => { x with frozenAt := some 999800 }; s.spn.frozenAt = some 999800 ∧ s.pos ≤ 999800 + 200) := by decide
theorem witness_refresh : (let s : State := { good with spn := { good.spn with pos := 999424 } }; s.frozen = false ∧
    s.refreshAt (s.slotTable .hbmRefresh 7) s.pos ≠ none ∧ s.refreshAt (s.slotTable .ddrRefresh 11) s.pos ≠ none) := by decide +kernel
theorem witness_turn_boundary : (atPos 1007615).pos < (atPos 1007615).spn.lastBoundary + 2 ^ (atPos 1007615).spn.k ∧
    (atPos 1007616).spn.lastBoundary + 2 ^ (atPos 1007616).spn.k ≤ (atPos 1007616).pos ∧ (atPos 1007616).frozen = false ∧
    (let s := withSec fun x => { x with tenants := [(1, { state := .running, suspendDue := 2 })] }; (s.tenant 1).state = .running ∧ (s.tenant 1).suspendDue ≠ 0 ∧
      Tab.look false s.hif.bme 1 = false) := by decide +kernel
theorem test_turn_boundary : (after .turnBoundary (atPos 1007616)).spn.lastBoundary = 1007616 := by decide +kernel
theorem witness_member_loss : coord.jig.loaded = true ∧ 2 ≤ coord.bigE ∧ coord.decides = true ∧ 1 ∉ coord.spn.missedBy ∧ 1 < coord.bigE ∧ 1 ≠ coord.jig.me ∧ 1 ∉ coord.spn.lost ∧
    1 ∉ coord.spn.lossDue ∧ (let s : State := { coord with spn := { coord.spn with quietMembers := 2 } }; s.isCoord = true ∧ 2 ≤ s.spn.quietMembers) ∧
    (let s : State := { follower with spn := { follower.spn with quietCoord := 2, quietBoth := 4, pos := 999424 } }; s.slotOf s.pos = 0 ∧ s.spn.ceased = false ∧ s.spn.standbyTree = false ∧ s.jig.me = s.standby ∧
      2 ≤ s.spn.quietCoord ∧ s.spn.coordLossAt = none ∧ s.isCoord = false ∧ 4 ≤ s.spn.quietBoth) := by decide +kernel
theorem witness_slot0 : coord.slotOf coord.pos ≠ 0 ∧ (let s : State := { coord with spn := { coord.spn with pos := 999424 } }; s.frozen = false ∧ s.slotOf s.pos = 0 ∧ s.spn.slot0Sent = false ∧
    s.isCoord = true ∧ s.spn.stopped = false ∧ s.spn.ceased = false ∧ s.spn.clkLostAt = none) ∧
    (let s : State := { follower with jig := { follower.jig with cfg := { pairCfg with assembly := { pairCfg.assembly with standby := 0 } } } }
     s.isCoord = false ∧ s.jig.me ≠ s.standby) := by decide +kernel

/-! ### Ports and frames -/

/-- `follower`, its clock a MASTER's, with port 0 as given. -/
def withPort (x : Port) : State := { coord with fab := { ports := [(0, x)] } }
/-- A fabric port in service. -/
def fabricPort : Port := { role := 1, state := 1, keyed := true, peer := 1 }
/-- A scheduled frame of tenant 1. -/
def frame : SchedFrame := { owner := 1, route := 0, dstMember := 0, port := 0, seq := 1, ackSeq := 0, tagOk := true, len := 64, regionKey := 5 * 4096, last := false,
                            srcMember := 1, data := zeros 64 }
theorem witness_tenant_create_assembly : (let c := cmd 2 0; coord.accepts 0x10 c = true ∧ coord.sec.lifecycle = .owned ∧ coord.jig.loaded = true ∧
    coord.jig.commit = none ∧ (coord.tenant 2).state = .absent ∧ (coord.tenant 2).creating = none ∧ 2 ≤ coord.bigE ∧ coord.isCoord = true ∧
    coord.keysHeld 2 + 5 ≤ coord.keyLimit 2 ∧ 5 ≤ coord.freeTenantKeys.length ∧ coord.sec.healthFail = false) := by decide +kernel
theorem witness_port_causes : (let s := withPort fabricPort; 1 ≤ (s.port 0).role ∧ (s.port 0).state = 1 ∧ s.spn.role ≠ .follower ∧ s.sec.lifecycle ≠ .tampered ∧
    16 < 17 ∧ 1 ≤ 16) := by decide +kernel
theorem witness_readmit : (let s := withPort { fabricPort with state := 2 }; s.sec.lifecycle ≠ .tampered ∧ (s.port 0).state = 2) ∧
    (withPort { fabricPort with state := 2, readmit := true, upAt := some 999424 }).mayRise 0 = true ∧
    (withPort { fabricPort with state := 2, readmit := true, upAt := some 1000001 }).mayRise 0 = false := by decide +kernel
theorem test_lane_failure : ((after (.laneFailure 0 1 17) (withPort fabricPort)).port 0).state = 2 ∧
    ((after (.laneFailure 0 1 16) (withPort fabricPort)).port 0).state = 1 := by decide +kernel
theorem witness_link_key : (let s := withPort { fabricPort with state := 0 }; (s.port 0).role = 1 ∧ (s.port 0).state = 0 ∧ s.frozen = false ∧ sigs.ok = true ∧
    (s.jig.cfg.assembly.members.find? (fun m => m.index == (s.jigPort s.jig.me 0).peerMember)).map (·.fingerprint) = some 1 ∧ (⟨true, false⟩ : SigPair).ok = false) ∧
    (let s := withPort fabricPort; (s.port 0).state = 1 ∧ s.slotOf s.pos ≠ 0 ∧ ({ s with spn := { s.spn with pos := 999424 } } : State).slotOf 999424 = 0 ∧ (s.port 0).role = 1 ∧
      (s.jig.cfg.assembly.members.find? (fun m => m.index == (s.jigPort s.jig.me 0).peerMember)).isSome = true) := by decide +kernel
/-- A frame sent at a position that waits for its acknowledgement. -/
def heldAt (p : Nat) : HeldSent := ⟨1, zeros 96, p⟩
theorem witness_replay : (let s := withPort { fabricPort with replay := [heldAt 999800] }; (s.port 0).role = 1 ∧ (s.port 0).state = 1 ∧ s.frozen = false ∧
    (s.port 0).replay = [heldAt 999800] ∧ (heldAt 999800).at_ + 200 ≤ s.pos ∧ s.pos < (heldAt 999801).at_ + 200) := by decide +kernel
theorem test_replay : ((after (.linkReplay 0) (withPort { fabricPort with replay := [heldAt 999800] })).port 0).replays = 1 ∧
    ((after (.linkReplay 0) (withPort { fabricPort with replay := [heldAt 999801] })).port 0).replays = 0 := by decide +kernel
theorem witness_ethernet : (let s := withPort { role := 2, state := 1 }; (s.port 0).role = 2 ∧ (s.port 0).state = 1 ∧ 0 = s.ownAddress 0 ∧ 1 ≠ s.ownAddress 0) := by
  decide +kernel
/-- `withPort fabricPort` where region 5 of tenant 1 takes pushed data. -/
def pushed : State :=
  { withPort fabricPort with
    fab := { ports := [(0, fabricPort)], regions := [(5, ⟨1, 65536, 65536, 3, 3, 0, 0, 0, 0, 0xFFFF, 0, []⟩)], regionGen := [(5, 1)] } }
theorem witness_scheduled_frame : (let s := withPort fabricPort; (s.port 0).role = 1 ∧ (s.port 0).state = 1 ∧ s.frozen = false ∧ frame.tagOk = true ∧
    frame.seq = ((s.port 0).rxSeq + 1) % 4294967296 ∧ frame.dstMember = s.jig.me ∧ frame.owner ≤ 7 ∧ frame.answer = none ∧ frame.last = false ∧
    (s.fabTenant 1).fenceRound ≠ 17 ∧ s.refusedSoFar frame = none ∧ { frame with seq := 2 }.seq ≠ ((s.port 0).rxSeq + 1) % 4294967296) := by decide +kernel
theorem witness_pushed_frame : (let s := (pushed.rxFrame 0 96).updPort 0 fun x => { x with replay := x.replay.filter (fun y => decide (frame.ackSeq < y.seq)) }
    (match s.landPush frame with | .ok _ => true | .error _ => false) = true) := by decide +kernel
theorem witness_timing_frames : coord.spn.role = .master ∧ follower.spn.role = .follower ∧ follower.upstream.1 = some 0 ∧ (follower.port 0).role = 1 ∧
    (follower.port 0).state = 1 := by decide +kernel

/-! ### Programs and barriers -/

/-- A program image of one HALT, for a group of two cells. -/
def progImage (cells : Nat) : List Byte :=
  leBytes 4 0x47525058 ++ leBytes 2 1 ++ leBytes 2 0x80 ++ leBytes 4 144 ++ leBytes 2 0x7264 ++ leBytes 2 0 ++ leBytes 2 1 ++ leBytes 2 0 ++ leBytes 1 cells ++
    leBytes 1 0 ++ leBytes 2 100 ++ leBytes 16 0 ++ zeros 88 ++ leBytes 16 (cellWord at0 false 0x01 []).toNat
/-- PROG_LOAD of it into a group. -/
def progCmd (group cells : Nat) : Cmd := { cmd 1 group with len := 144, host := progImage cells }
/-- `device` with both cells of group 0 loaded. -/
def loaded : State :=
  { device with cells := [(0, { store := [cellWord at0 false 0x01 []], loaded := true }), (1, { store := [cellWord at0 false 0x01 []], loaded := true })] }
theorem witness_prog_load : device.accepts 0x40 (progCmd 0 2) = true ∧ device.notOwner (progCmd 0 2) 0 = false ∧ device.groupCells 0 ≠ [] ∧
    (device.ringGroup 0 || device.groupBusy 0 || device.groupAwaited 0) = false ∧ device.canFeed 0 1 = true ∧ device.feedMoves 0 1 144 = 144 ∧
    ({ device with spn := run.spn } : State).feedMoves 0 1 144 < 144 ∧
    device.mapped 1 0 144 = true ∧ device.allPages 1 0 144 (fun p => p.x) = true ∧ device.allPages 1 0 144 (fun p => !p.broken) = true ∧
    device.imageCheck (readImage (device.readVA 1 0 144 (progImage 2))) 144 0 = none ∧
    device.imageCheck (readImage (device.readVA 1 0 144 (progImage 3))) 144 0 = some (3, .cfgMismatch, 0) := by decide +kernel
theorem witness_prog_load_refused : device.notOwner (cmd 2 0) 0 = true ∧ device.groupCells 1 = [] ∧ device.notOwner (cmd 1 1) 1 = false ∧
    ({ device with cells := [(1, { running := true })] } : State).groupBusy 0 = true ∧ run.canFeed 0 1 = false ∧ device.mapped 1 131072 144 = false ∧
    (withMem fun m => { m with pages := [(8589934592, { tier := 3, r := true })] }).allPages 1 0 144 (fun p => p.x) = false := by decide +kernel
theorem test_prog_load : ((after (.progLoad (progCmd 0 2)) device).cell 1).waitLimit = 100 ∧
    (after (.progLoad (progCmd 0 2)) { device with spn := run.spn }).loads.length = 1 := by decide +kernel
theorem witness_prog_start : loaded.accepts 0x41 (cmd 1 0) = true ∧ loaded.notOwner (cmd 1 0) 0 = false ∧ (loaded.ringGroup 0 || loaded.groupBusy 0) = false ∧
    loaded.noProgram 0 0 = false ∧ loaded.ownsSlot .cellGroup 0 (loaded.groupOwner 0) = true ∧ device.noProgram 0 0 = true ∧ loaded.noProgram 0 1 = true := by
  decide +kernel
/-- A barrier of DMA engine 0 on this engine alone. -/
def barrierBlock : List Byte := leBytes 1 1 ++ zeros 5 ++ leBytes 2 1 ++ zeros 56 ++ leBytes 1 1 ++ zeros 31
/-- BARRIER_ARM at a position. -/
def barrierCmd (p : Nat) : Cmd := { cmd 1 p with len := 96, host := barrierBlock }
theorem witness_barrier_arm : (let c := barrierCmd 1016384; let blk := device.readVA (cmdActs c) c.addr 96 c.host
    let b := parseBarrier c.a0 (cmdActs c) blk (some c) c.cid
    device.accepts 0x42 c = true ∧ device.jig.loaded = true ∧ device.bigE ≤ 1 ∧ device.blockFail (cmdActs c) c.addr 96 (fun p => p.r) = none ∧
    barrierFieldsOk blk device.bigE = true ∧ device.barrierOwned b = true ∧ b.kind ≠ 0 ∧ device.pos + 2 * 2 ^ device.spn.k ≤ c.a0 ∧
    device.spn.barriers.length < 64 ∧ barrierSlots device.jig.cfg device.spn.k b = true ∧ (barrierCmd 1016383).a0 < device.pos + 2 * 2 ^ device.spn.k) ∧
    (let c : Cmd := { barrierCmd 1016384 with host := zeros 64 ++ leBytes 1 1 ++ zeros 31 }
     let blk := device.readVA (cmdActs c) c.addr 96 c.host; let b := parseBarrier c.a0 (cmdActs c) blk (some c) c.cid
     barrierFieldsOk blk device.bigE = true ∧ device.barrierOwned b = true ∧ b.kind = 0 ∧ b.members = [0] ∧ device.noProgram b.group b.entry = true ∧
     loaded.noProgram b.group b.entry = false) := by
  decide +kernel
/-- The barrier armed for 999,998. -/
def armed : Barrier := ⟨999998, 1, 1, 0, 0, 0, 1, 0, [0, 0, 0, 0], [0], some (barrierCmd 999998), 7⟩
theorem witness_barrier_start : (let s : State := { device with spn := { device.spn with barriers := [armed] } }; s.spn.barriers = [armed] ∧ armed.pos + 2 = s.pos ∧
    s.jig.me ∈ armed.members ∧ s.frozen = false ∧ s.spn.source ≠ .holdover ∧ s.spn.stopped = false ∧ armed.kind ≠ 0 ∧ armed.cmd = some (barrierCmd 999998) ∧
    s.inAssembly = false) ∧ (let s : State := { coord with spn := { coord.spn with barriers := [armed], stopped := true } }; s.inAssembly = true ∧ armed.pos + 2 = s.pos) ∧
    (∀ b ∈ ([{ armed with pos := 999999 }] : List Barrier), device.pos < b.pos + 2) := by decide +kernel

/-! ### Rounds -/

/-- A round of tenant 1 with one cohort of 16 clients and one chunk of 4 elements. -/
def rnd : Round :=
  { tenant := 1, number := 5, b := 16, k := 2, t := 1, batch := 16, l := 4, pCollect := 1048576, pDeadline := 1179648, pShareEnd := 1441792, staging := 2097152,
    sizes := [16], cohortMin := 16, roundMin := 16, shards := [[0]], cohorts := [(0, { s := [3, 4] })], release := { noiseKey := 0xFFFF } }
/-- `device` with that round, changed, in handle 0. -/
def withRound (f : Round → Round) : State := { device with agg := { rounds := [(0, f rnd)] }, fab := { ports := [(0, { role := 2, state := 1 })] } }
/-- The same at a position. -/
def roundAt (p : Nat) (f : Round → Round) : State := let s := withRound f; { s with spn := { s.spn with pos := p, lastBoundary := p / 8192 * 8192 } }
/-- ROUND_OPEN's block of 128 bytes and the cohort table. -/
def openBlock (b : Nat) : List Byte :=
  leBytes 6 5 ++ leBytes 1 0 ++ leBytes 1 b ++ leBytes 2 1 ++ leBytes 1 2 ++ leBytes 1 1 ++ leBytes 2 16 ++ leBytes 1 255 ++ leBytes 1 0 ++ leBytes 8 4 ++
    leBytes 8 0 ++ leBytes 8 1179648 ++ leBytes 8 1310720 ++ leBytes 8 1572864 ++ leBytes 8 2097152 ++ leBytes 8 256 ++ leBytes 8 512 ++ leBytes 8 1024 ++
    zeros 22 ++ leBytes 2 0xFFFF ++ zeros 16 ++ leBytes 4 16
/-- ROUND_OPEN. -/
def openCmd (b : Nat) : Cmd := { cmd 1 65535 with len := 128, host := openBlock b }
/-- `device` with routes for one shard. -/
def opening : State := { device with jig := { device.jig with cfg := { device.jig.cfg with routeSets := [(0, { shards := [[0]] })] } } }
theorem witness_round_open : (let c := openCmd 16; let s := opening; s.accepts 0x50 c = true ∧ s.bigE ≤ 1 ∧ c.len = 128 ∧ s.readFail (cmdActs c) c.addr 128 = none ∧
    (let b := s.readVA (cmdActs c) c.addr 128 c.host
     field b 8 2 = 1 ∧ field b 14 1 = 255 ∧ s.readFail (cmdActs c) (field b 64 8) (4 * field b 8 2) = none ∧
     (let tb := s.readVA (cmdActs c) (field b 64 8) (4 * field b 8 2) (c.host.drop 128)
      let r0 := s.parseRound c (cmdActs c) b tb s.bOpenNow []
      let r := { r0 with repaired := if r0.repair then s.uncovered r0.parent else [] }
      s.roundChecks r b s.bOpenNow = none ∧ s.sec.healthFail = false ∧ s.freeHandle [] = some 0 ∧ s.freeHandle (List.range 64) = none ∧
      (s.startRound 0 r 0 none).isSome = true))) := by decide +kernel
theorem witness_round_open_refused : (let c := openCmd 0; let s := opening; let b := s.readVA (cmdActs c) c.addr 128 c.host
    let tb := s.readVA (cmdActs c) (field b 64 8) (4 * field b 8 2) (c.host.drop 128)
    s.roundChecks (s.parseRound c (cmdActs c) b tb s.bOpenNow []) b s.bOpenNow = some .bounds) ∧
    opening.readFail 1 262144 4 = some .xlateFault := by decide +kernel
theorem witness_round_open_boundary : (∀ d ∈ [some Status.ok, some Status.bounds, none], let s := withRound fun r =>
      { r with bOpen := some 999424, openCmd := some (cmd 1 65535), openDecision := d }
    (s.round 0).bOpen = some 999424 ∧ (s.round 0).openCmd = some (cmd 1 65535) ∧ (s.round 0).state = .free ∧ s.due 999424 = true ∧
    (s.round 0).openDecision = d) := by decide +kernel
theorem witness_set_deadline : (let s := withRound fun r => { r with state := .collecting }; s.accepts 0x51 (cmd 1 0) = true ∧ s.bigE ≤ 1 ∧
    s.coordCmd (cmd 1 0) = none ∧ (s.round 0).state.early = true ∧ 1187840 % 2 ^ s.spn.k = 0 ∧ (s.round 0).lastDeadline < 1187840 ∧
    s.pos + 150000 + 2 ^ (s.spn.k + 1) ≤ 1187840 ∧ 1187841 % 2 ^ s.spn.k ≠ 0 ∧ 1179648 ≤ (s.round 0).lastDeadline) ∧
    (roundAt 1100000 fun r => { r with state := .collecting }).pos + 150000 + 2 ^ (13 + 1) > 1187840 := by decide +kernel
theorem witness_deadline_change : (let s := withRound fun r => { r with state := .collecting, newDeadlines := [(999424, 1187840, some (cmd 1 0))] }
    (s.round 0).newDeadlines = [(999424, 1187840, some (cmd 1 0))] ∧ s.due 999424 = true ∧ (s.round 0).state.early = true) ∧
    (withRound fun r => { r with state := .frozen }).frozen = false ∧ ((withRound fun r => { r with state := .frozen }).round 0).state.early = false := by decide +kernel
/-- A binding of the round's tile to cell 0. -/
def bound : Bind := { enable := true, cell := 0, token := 48, round := 0, engine := 0, chunkCount := 1, cohortCount := 1, tile := 0, desc := 1048576, buf := 2097152, placed := 1 }
/-- `roundAt` with that binding in slot 32. -/
def boundAt (p : Nat) (f : Round → Round) (b : Bind) : State := let s := roundAt p f; { s with agg := { s.agg with binds := [(32, b)] } }
theorem witness_collect : (let s := boundAt 1048576 (fun r => { r with state := .armed }) bound; (s.round 0).state = .armed ∧ s.due (s.round 0).pCollect = true ∧
    s.covered 0 = true) ∧ (roundAt 1048576 fun r => { r with state := .armed }).covered 0 = false := by decide +kernel
theorem witness_deadline : (let s := roundAt 1179648 fun r => { r with state := .collecting }; (s.round 0).state = .collecting ∧
    s.due (s.round 0).pDeadline = true) := by decide +kernel
theorem witness_freeze_exchange : (let s := roundAt 1212416 fun r => { r with state := .frozen }; (s.round 0).state = .frozen ∧
    s.due ((s.round 0).pDeadline + 2 ^ (s.spn.k + 2)) = true ∧ s.twin (s.round 0) = none ∧ (s.round 0).sizes.length = 1 ∧
    s.home (s.round 0) 0 = some s.jig.me ∧ (s.round 0).mirrorQueue = [] ∧ ((s.round 0).cohort 0).published = false ∧ (s.round 0).repair = false) := by
  decide +kernel
theorem witness_unmasking : (let s := roundAt 1310720 fun r => { r with state := .frozen, cohorts := [(0, { published := true })] }
    ((s.round 0).cohort 0).published = true ∧ s.due ((s.round 0).pDeadline + 2 ^ (s.spn.k + 4)) = true ∧ s.verdictsIn (s.round 0) = true) ∧
    (let s := roundAt 1441792 fun r => { r with state := .unmasking }; (s.round 0).state = .unmasking ∧ s.due (s.round 0).pShareEnd = true) := by
  decide +kernel
theorem witness_round_commands : (let s := withRound fun r => { r with state := .unmasking }; s.bigE ≤ 1 ∧ s.coordCmd (cmd 1 0) = none ∧ s.accepts 0x52 (cmd 1 0) = true ∧
      (s.round 0).unmaskCmd = none ∧ (s.round 0).unmaskArmed = false ∧ (s.round 0).armAt = none ∧ s.accepts 0x53 (cmd 1 0) = true ∧ s.accepts 0x55 (cmd 1 0) = true ∧
      (s.round 0).change = none ∧ (s.round 0).changeCmds = []) ∧
    (let s := withRound fun r => { r with state := .summed }; s.coordCmd (cmd 1 0) = none ∧ (s.round 0).state = .summed ∧ (s.round 0).change = none) ∧
    (let s := withRound fun r => { r with state := .committed }; s.coordCmd (cmd 1 0) = none ∧ s.accepts 0x54 (cmd 1 0) = true ∧ (s.round 0).releaseCmd = none ∧
      (s.round 0).repair = false ∧ s.uncovered 0 = [] ∧ s.iRelease (s.round 0) = true ∧ s.hostTargetOk (s.round 0) = true ∧ s.noiseKeyOk (s.round 0) = true ∧
      (s.round 0).change = none) ∧
    (let s := withRound fun r => { r with state := .committed, releaseCmd := some (cmd 1 0) }; s.decides = true ∧ s.jig.me = 0 ∧ s.takesPart (s.round 0) 0 = true ∧
      (s.round 0).writing = false ∧ s.holdsGood 0 = true ∧ s.iRelease (s.round 0) = true ∧ s.twin (s.round 0) = none ∧
      ((s.updRound 0 fun r => { r with releasing := true }).obtainSeed 0).isSome = true) ∧
    (withRound fun r => { r with state := .aborted }).coordCmd (cmd 1 0) = none ∧ (withRound fun r => { r with state := .released }).coordCmd (cmd 1 0) = none := by
  decide +kernel
theorem witness_release_write : (let s := withRound fun r => { r with state := .committed, writing := true, releasing := true, releaseCmd := some (cmd 1 0) }
    (s.round 0).state = .committed ∧ (s.round 0).writing = true ∧ (s.round 0).releasing = true ∧ (s.round 0).written = false ∧ (s.round 0).change = none ∧
    s.frozen = false ∧ s.dbg.host.lost = false ∧ (s.round 0).releaseCmd = some (cmd 1 0) ∧
    (s.releaseSet 0).filter (fun k => s.holdsGood k && s.iRelease (s.round k)) ≠ [] ∧ lost.dbg.host.lost = true ∧ (s.round 0).release.target = 0) ∧
    (let s := withRound fun r => { r with state := .unmasking, armAt := some 999424 }; (s.round 0).armAt = some 999424 ∧ s.due 999424 = true) := by decide +kernel
theorem witness_round_free : (let s := withRound fun r => { r with state := .released, clearedAt := some 980000 }; (s.round 0).clearedAt = some 980000 ∧
    s.due (s.boundaryAfter 980000) = true ∧ s.frozen = false ∧ s.deviceEngines ≠ []) := by decide +kernel

/-- The 64 bytes of a message header, written out from R244: TYPE, FORMAT, CLIENT, COUNT, PAYLOAD_LENGTH; round 5 of tenant 1, cohort 0,
chunk 0, offset 0, and the nonce of R245. -/
def headBytes (ty fmt client count len : Nat) : List Byte :=
  leBytes 4 0x4D474158 ++ leBytes 1 1 ++ leBytes 1 ty ++ leBytes 1 1 ++ leBytes 1 fmt ++ leBytes 6 5 ++ leBytes 2 0 ++ leBytes 3 client ++ leBytes 1 0 ++
    leBytes 4 count ++ leBytes 6 0 ++ zeros 2 ++ leBytes 6 0 ++ zeros 2 ++ zeros 6 ++ leBytes 6 ty ++ leBytes 4 len ++ zeros 8
/-- A message of a client with a payload. -/
def message (ty fmt client count : Nat) (b : List Byte) : ClientMsg :=
  { head := headBytes ty fmt client count b.length, payload := b, totalLength := 80 + b.length, tagOk := true }
/-- A KEYEX whose mask key is uncompressed, a CONTRIB of 4 elements, a SHARE of 1 entry for client 0 and an ABORT. -/
def keyexMsg : ClientMsg := message 1 255 3 0 (zeros 1185 ++ [4] ++ zeros 78)
def contribMsg : ClientMsg := message 2 0 3 4 (leBytes 4 1 ++ leBytes 4 2 ++ leBytes 4 3 ++ leBytes 4 4)
def shareMsg : ClientMsg := message 3 255 1 1 (leBytes 3 0 ++ leBytes 1 1 ++ zeros 4 ++ leBytes 32 9)
def abortMsg : ClientMsg := message 4 255 3 0 (leBytes 4 1 ++ zeros 12)
/-- The keys of clients 1 and 3 are held. -/
def keyHeld (r : Round) : Round := { r with clients := [(1, { keyHeld := true }), (3, { keyHeld := true })] }
theorem test_message_header : msgHeader contribMsg =
    { type := 2, tenant := 1, format := 0, round := 5, client := 3, count := 4, nonce := 2 * 2 ^ 48, payloadLength := 16, totalLength := 96, tagOk := true } := by
  decide +kernel
theorem witness_messages : (let s := withRound fun r => { r with state := .armed }; let m := msgHeader keyexMsg
    (s.port 0).state = 1 ∧ (s.port 0).role = (if m.forwarded then 1 else 2) ∧
    s.ingestEngine m.tenant m.client = some 0 ∧ s.mayIssue m.tenant .ingest 0 = true ∧ s.matchRound m.tenant m.round = some 0 ∧
    s.handler (s.round 0) m = some (some s.jig.me) ∧ headerOk 1 m = true ∧
    s.messageFail (s.round 0) m 1 (keyexOk keyexMsg.payload true) ((s.round 0).client m.client).keyHeld = none ∧
    s.messageFail (s.round 0) m 1 (keyexOk keyexMsg.payload false) ((s.round 0).client m.client).keyHeld = some .bounds) ∧
    (∀ ty ∈ [1, 2, 3, 4], headerOk ty (msgHeader (message 9 255 3 0 [])) = false) := by decide +kernel
theorem witness_contrib : (let s := withRound fun r => { keyHeld r with state := .collecting }; let m := msgHeader contribMsg; headerOk 2 m = true ∧
    s.handler (s.round 0) m = some (some s.jig.me) ∧ s.messageFail (s.round 0) m 2 true ((s.round 0).bit m.client m.chunk) = none ∧ (s.round 0).r ≠ 2 ∧
    (s.round 0).elements m contribMsg.payload = [1, 2, 3, 4] ∧ (s.takeChunk 0 m [1, 2, 3, 4]).isSome = true ∧
    s.messageFail (s.round 0) m 2 true true = some .duplicateContrib) := by decide +kernel
/-- Two twins of one shard; the message was forwarded over port 0. -/
def twinned (st : RoundState) : State :=
  { coord with agg := { rounds := [(0, { keyHeld rnd with state := st, r := 2, shards := [[0, 1]] })] } }
theorem witness_mirrored : (let s := twinned .collecting; let m := msgHeader { contribMsg with forwarded := true }; let r := s.round 0
    (s.port 0).state = 1 ∧ (s.port 0).role = (if m.forwarded then 1 else 2) ∧ s.ingestEngine m.tenant m.client = some 0 ∧ s.mayIssue m.tenant .ingest 0 = true ∧
    s.matchRound m.tenant m.round = some 0 ∧ s.handler r m = some (some s.jig.me) ∧ headerOk 2 m = true ∧
    s.messageFail r m 2 true (r.bit m.client m.chunk) = none ∧ (s.takeChunk 0 m (r.elements m contribMsg.payload)).isSome = true ∧ s.twin r = some 1 ∧
    (r.mirrorQueue.map (fun y => y.bytes)).sum + (64 + m.payloadLength) ≤ s.mirrorLimit r 1) := by decide +kernel
/-- A cohort of two clients that have both survived, client 1 past its guard. -/
def two (r : Round) : Round :=
  { r with state := .unmasking, sizes := [2], clients := [(1, { keyHeld := true, guard := 1 })], cohorts := [(0, { s := [0, 1] })] }
theorem graph_of_two (seed n c : Nat) : graphAt seed n c 2 = [0, 1] ∨ graphAt seed n c 2 = [1, 0] := by
  have h : keystream seed n 3 (c * 2 ^ 48) 8 (8 * (2 - 2 - 0)) % (0 + 2) < 2 := Nat.mod_lt _ (by decide)
  unfold graphAt
  simp only [shuffle]
  generalize keystream seed n 3 (c * 2 ^ 48) 8 (8 * (2 - 2 - 0)) % (0 + 2) = w at *
  match w, h with
  | 0, _ => exact .inr rfl
  | 1, _ => exact .inl rfl
theorem witness_share : (let s := withRound fun r => { keyHeld r with state := .unmasking }; let m := msgHeader shareMsg; headerOk 3 m = true ∧
    s.handler (s.round 0) m = some (some s.jig.me) ∧ s.messageFail (s.round 0) m 3 true false = none ∧
    (shareEntries m shareMsg.payload).all (fun y => decide (y.value < gfP)) = true ∧ (s.round 0).shareFail m (shareEntries m shareMsg.payload) = some .guardRefused ∧
    (shareEntries m (zeros 8 ++ leBytes 32 gfP)).all (fun y => decide (y.value < gfP)) = false) ∧
    (let s := withRound two; let m := msgHeader shareMsg; s.handler (s.round 0) m = some (some s.jig.me) ∧ s.messageFail (s.round 0) m 3 true false = none ∧
     s.ingestEngine m.tenant m.client = some 0) := by decide +kernel
theorem witness_share_taken : (two rnd).shareFail (msgHeader shareMsg) (shareEntries (msgHeader shareMsg) shareMsg.payload) = none := by
  have hn : (two rnd).shareNames 0 1 = [0] := by
    have h : (two rnd).neighbours 0 1 0 = true ∧ (two rnd).neighbours 0 1 1 = false := by
      unfold Round.neighbours Round.position
      rw [show (two rnd).size 0 = 2 from rfl]
      rcases graph_of_two (two rnd).graphSeed (two rnd).number 0 with h | h <;> rw [h] <;> decide
    rw [Round.shareNames, show (two rnd).members 0 = [0, 1] from rfl]
    simp only [List.filter, h.1, h.2]
    decide
  unfold Round.shareFail
  rw [show (msgHeader shareMsg).cohort = 0 by decide +kernel, show (msgHeader shareMsg).client = 1 by decide +kernel, hn]
  decide +kernel
theorem witness_abort : (let s := withRound fun r => { keyHeld r with state := .collecting }; let m := msgHeader abortMsg; headerOk 4 m = true ∧
    zeroAt abortMsg.payload 4 12 = true ∧ s.messageFail (s.round 0) m 4 true false = none ∧
    s.messageFail (s.round 0) m 4 true true = some .duplicateContrib) ∧ zeroAt (zeros 4 ++ leBytes 12 1) 4 12 = false := by decide +kernel

/-! ### Messages between members, bindings and the gate -/

/-- The cohort's survivors' secrets are to be rebuilt from one share of client 3's. -/
def shares (r : Round) : Round := { r with state := .unmasking, cohorts := [(0, { s := [3], settled := true, streams := 1, shares := [(3, 3, 1, 77)] })] }
theorem witness_member_messages : (let s := withRound fun r => { r with state := .collecting }; s.frozen = false ∧ (s.round 0).state.isOpen = true ∧ 15 < (s.round 0).nMax ∧
      s.matchRound 1 5 = some 0 ∧ (s.round 0).clientOk 0 3 = true ∧ (s.round 0).sums s.jig.me 0 0 = true ∧ (s.round 0).bit 3 0 = false ∧
      (s.takeChunk 0 (msgHeader contribMsg) ((s.round 0).elements (msgHeader contribMsg) contribMsg.payload)).isSome = true) ∧
    (let s := withRound fun r => { r with state := .collecting, bitmap := [(bitKey 3 0, true)] }; (s.round 0).bit 3 0 = true) ∧
    (let s := withRound fun r => { r with state := .unmasking }; s.matchRound 1 5 = some 0 ∧ (s.round 0).clientOk 0 3 = true ∧
      ((s.round 0).client 3).shared = false) := by decide +kernel
theorem witness_mirror_ack : (let x : Mirror := ⟨3, 0, 80, 9, false⟩; let s := withRound fun r => { r with mirrorQueue := [x] };
    x ∈ (s.round 0).mirrorQueue ∧ x.chunk ≠ shareMark ∧ ∀ y ∈ (s.round 0).mirrorQueue, y.client = x.client → y.chunk = x.chunk → y = x) := by decide +kernel
theorem witness_seeds : (let s := withRound shares; (s.round 0).state = .unmasking ∧ 0 < (s.round 0).sizes.length ∧ s.isHome (s.round 0) 0 = true ∧
    ((s.round 0).cohort 0).settled = true ∧ ((s.round 0).cohort 0).rebuilt = false ∧ ((s.round 0).cohort 0).reason = 0 ∧ ((s.round 0).cohort 0).d = []) := by
  decide +kernel
theorem witness_seed_rebuilt : ∀ x ∈ (((withRound shares).round 0).cohort 0).s, ((withRound shares).round 0).rebuild 0 x 1 true = .ok 77 := by
  intro x hx
  have h3 : x = 3 := by
    have : (((withRound shares).round 0).cohort 0).s = [3] := by decide +kernel
    rw [this] at hx; simpa using hx
  subst h3
  have ht : ((withRound shares).round 0).threshold 0 3 = 1 := by
    unfold Round.threshold
    split
    · decide +kernel
    · decide +kernel
  have hp : ((withRound shares).round 0).points 0 3 1 = [(4, 77)] := by decide +kernel
  unfold Round.rebuild
  rw [ht, hp]
  decide +kernel
theorem witness_bind : (let s := boundAt 1000000 (fun r => { r with state := .armed }) bound; s.sec.lifecycle ≠ .tampered ∧ (s.bind 32).enable = true ∧
      (s.round (s.bind 32).round).state = .armed) ∧
    (let s := boundAt 1000000 (fun r => { r with state := .armed }) { bound with enable := false, placed := 0, buf := 512, desc := 16384 };
     (s.bind 32).enable = false ∧ s.bindFail 32 ((s.bind 32).ctl (1 + 48 * 128)) = none ∧ s.bindFail 32 ((s.bind 32).ctl 1) = some .bounds) ∧
    (let s := boundAt 1000000 (fun r => { r with state := .armed, sizes := [16, 16] })
      { bound with enable := false, placed := 0, buf := 512, desc := 16384, cohortCount := 2 }
     s.bindFail 32 ((s.bind 32).ctl (1 + 48 * 128)) = none ∧ (s.bind 32).cohortCount ≠ 1) := by decide +kernel
theorem witness_batch : (let x : Bin := ⟨0, 0, 0, 16⟩; let s := boundAt 1000000 (fun r => { r with state := .collecting, batches := [x] }) bound
    let r := s.round (s.bind 32).round; let i := r.tileIndex s.jig.me x.cohort x.chunk
    (s.bind 32).enable = true ∧ (s.bind 32).busy = false ∧ s.nextBatch 32 = some x ∧ s.mayIssue r.tenant .dma (s.bind 32).engine = true ∧
    s.tileBudget 32 i = true ∧ (s.bind 32).placed = i + 1 ∧ (s.cell (s.bind 32).cell).waiting = .none ∧
    Tab.look 0 (s.cell (s.bind 32).cell).tokens (s.bind 32).token < 65535) := by decide +kernel
theorem witness_stream : (let s := boundAt 1000000 (fun r => { shares r with unmaskArmed := true, clients := [(3, { secret := 78 })] }) { bound with streams := 1 };
    let r := s.round (s.bind 32).round
    r.state = .unmasking ∧ r.unmaskArmed = true ∧ s.nextBatch 32 = none ∧ s.mayIssue r.tenant .dma (s.bind 32).engine = true ∧
    nthStream r ((s.bind 32).tiles r) (s.bind 32).delivered = some (0, 0, 0) ∧ (r.streamList 0)[0]? = some (.self 3) ∧
    (s.streamChunk r 0 0 (.self 3)).isSome = true ∧ (s.bind 32).placed = r.tileIndex s.jig.me 0 0 + 1 ∧
    s.tileBudget 32 (r.tileIndex s.jig.me 0 0) = true ∧ (s.cell 0).waiting = .none ∧ Tab.look 0 (s.cell 0).tokens 48 < 65535) := by decide +kernel
theorem witness_sealed_clear : (let s := withRound fun r => { r with sealedCells := [5] }; 5 ∈ (s.round 0).sealedCells ∧ s.cellGroup 5 = 255 ∧ s.frozen = false) := by
  decide +kernel
theorem witness_gate : (let s := withRound fun r => { r with state := .unmasking, cohorts := [(0, { s := [3], rebuilt := true })] };
      (s.round 0).gateDone = false ∧ s.frozen = false ∧ (s.round 0).cohortsDone = true ∧ (s.round 0).shardStatus = .ok ∧ s.bindsDone 0 = true ∧
      (s.round 0).robust = false) ∧
    (let s := withRound fun r => { r with state := .unmasking, gateDone := true, digests := [7], shardStatus := .ok };
      (s.round 0).gateDone = true ∧ (s.round 0).replicaOk = false ∧ (s.round 0).digests = [7] ∧ (s.round 0).shardStatus = .ok) := by decide +kernel
theorem witness_announce : (let s := roundAt 999424 fun r => { r with state := .unmasking, reports := [(0, .ok)], reportTurn := 121 };
    s.decides = true ∧ (s.round 0).announced = false ∧ (s.round 0).change = none ∧ s.slotOf s.pos = 0 ∧ (s.round 0).reportTurn < s.turn ∧ s.frozen = false ∧
    ∀ m, m < max s.bigE 1 → s.takesPart (s.round 0) m = true → (m, Status.ok) ∈ (s.round 0).reports) := by decide +kernel

/-! ### The ring sequencer -/

/-- Parameter sets: two limbs and a special one; a switch set; an approximate one. -/
def sets : Tab ParamSet :=
  let p : ParamSet := { valid := true, owner := 1, exact := true, logN := 12, limbs := 2, special := 1, dnum := 1, plainT := 65537, fresh := 100,
                        primes := [134250497, 134275073] ++ List.replicate 62 0 ++ [134348801] ++ List.replicate 15 0,
                        roots := [78445154, 32735733] ++ List.replicate 62 0 ++ [127257558] ++ List.replicate 15 0,
                        thresh := [65535, 65535], group := 0, scratch := 2097152, scratchLen := 2097152 }
  [(0, p), (1, { p with limbs := 1, special := 0 }), (2, { p with exact := false, plainT := 0, limbs := 1 })]
/-- A descriptor of tenant 1 in its place `i` of 64 KiB. -/
def ct (i : Nat) : RingDesc :=
  { valid := true, owner := 1, psid := 0, level := 1, eval := true, scale := 1, fingerprint := 99, base := 4194304 + 65536 * i, compStride := 32768, limbStride := 16384, cap := 2 }
/-- Descriptors: ciphertexts, a constant, an LWE ciphertext of each dimension, and what the switch and approximate sets need. -/
def descs : Tab RingDesc :=
  [(0, ct 0), (1, ct 1), (2, ct 2), (3, { ct 3 with type := 1, compStride := 0 }), (4, { ct 4 with eval := false }), (5, { ct 5 with plain := true }),
   (6, { ct 6 with type := 2, level := 0, eval := false, plain := true, compStride := 0, limbStride := 20480, cap := 1, dim := 4096 }),
   (7, { ct 7 with psid := 1, type := 2, level := 0, eval := false, plain := true, compStride := 0, limbStride := 4096, cap := 1, dim := 256 }),
   (8, { ct 8 with psid := 1, level := 0, cap := 1 }), (9, { ct 9 with psid := 1, type := 1, level := 0, eval := false, compStride := 0, cap := 1 }),
   (10, { ct 10 with level := 0, eval := false }), (11, { ct 11 with psid := 2, level := 0, cap := 1 }), (12, { ct 12 with psid := 2, level := 0, cap := 1 })]
/-- Evaluation keys: relinearisation, rotation, LWE switching and blind rotation. -/
def evks : Tab Evk :=
  let k : Evk := { valid := true, owner := 1, psid := 0, kind := 0, fingerprint := 99, chunks := 6, base := 6291456, digests := 65536, digestKey := 0 }
  [(0, k), (1, { k with kind := 1, rot := 1 }), (2, { k with kind := 2, targetPsid := 1, lweDim := 256 }), (3, { k with kind := 3, targetPsid := 1, lweDim := 256 })]
/-- `device` with all of it on pages of HBM and DDR5, and mesh routes both ways. -/
def ringing : State :=
  { device with
    jig := { device.jig with cfg := { device.jig.cfg with
      slots := [(device.jig.cfg.slots.headD []) ++ [(257, List.replicate 64 1)]]
      routes := [[{ src := 0, dst := 1, hops := 1, path := 1 }, { src := 1, dst := 0, hops := 1, path := 3 }]] } }
    mem := { device.mem with pages := device.mem.pages ++
      [(8589934624, { full 1 80000 with large := true }), (8589934656, { full 1 80032 with large := true }), (8589934688, { full 2 80000 with large := true })] }
    sec := { device.sec with keys := [(0, { type := 2, owner := 1, uses := 0x2000, value := 5 })] }
    fab := { eps := [(0, { state := 1, tenant := 1 })] }
    ring := { params := sets, descs := descs, evks := evks
              plans := [(0, { valid := true, owner := 1, psid := 2, inScale := 1, inNoiseMax := 100 })]
              exits := [(4, { valid := true, macKey := 0, sigma := 65536, rBits := 2, waitTurns := 16, sends := 2 })] } }
/-- An entry. -/
def entry (op dst a b evk arg imm : Nat) : RingEntry := ⟨op, 0, dst, a, b, evk, 0, arg, imm, 0⟩
/-- A command of one entry at the head of tenant 1's list. -/
def macro1 (e : RingEntry) : RingMacro := { cmd := cmd 1 0, entries := [e], pos := 0, flags := 0, waiting := false }
/-- `ringing` with it. -/
def heading (e : RingEntry) : State := { ringing with ring := { ringing.ring with macros := [(1, [macro1 e])] } }
/-- One entry for each operation of R338. -/
def entries : List RingEntry :=
  let n := 0xFFFF
  [entry 1 0 1 2 n 0 0, entry 2 0 1 2 n 0 0, entry 3 0 1 3 n 0 0, entry 4 0 1 3 n 0 0, entry 5 0 1 n n 0 7, entry 6 0 1 2 0 0 0, entry 7 0 1 n n 0 0,
   entry 8 0 1 n 1 1 0, entry 9 0 1 n n 0 0, entry 10 0 4 n n 0 0, entry 11 0 1 n n 0 0, entry 12 0 5 n n 0 0, entry 13 0 1 n n 0 0]
theorem witness_ring_operations : ∀ e ∈ entries, let s := heading e; s.ringHead 1 e.op = some (macro1 e) ∧ firstFail (s.entryChecks 1 e) = none := by
  decide +kernel
theorem witness_ring_operation_issues : (let s := heading (entry 6 0 1 2 0 0 0); s.ringIssue 1 (s.params 0).group = true ∧
    s.ringMapped 1 [s.desc 0, s.desc 1, s.desc 2] = true ∧
    (let e := (macro1 (entry 6 0 1 2 0 0 0)).head; let b := s.beginEntry 1 (macro1 e); let n := entryChunks (s.params 0) e (s.desc 1).level
     65536 * n ≤ b.feedMoves (s.params 0).group 1 (65536 * n) ∧
     (b.chargeDma 1 (65536 * n)).ringStop 1 [s.desc 0, s.desc 1, s.desc 2] false {} = none)) ∧
    (let s : State := { heading (entry 6 0 1 2 0 0 0) with spn := run.spn }; let e := (macro1 (entry 6 0 1 2 0 0 0)).head
     let n := entryChunks (s.params 0) e (s.desc 1).level
     (s.beginEntry 1 (macro1 e)).feedMoves (s.params 0).group 1 (65536 * n) < 65536 * n) ∧ ringing.ringHead 1 6 = none ∧
    firstFail ((heading (entry 6 0 1 2 1 0 0)).entryChecks 1 (entry 6 0 1 2 1 0 0)) = some .ctParams := by decide +kernel
/-- A macro at the head has what it needs, to its last key byte. -/
def goes (s : State) (m : RingMacro) (l : List RingDesc) (n : Nat) : Bool :=
  let a := s.desc m.head.a
  let b := s.beginEntry 1 m
  m.run.isNone && s.ringIssue 1 (s.params a.psid).group && s.ringMapped 1 l && b.feedMoves (s.params a.psid).group 1 (65536 * n) == 65536 * n &&
    ((b.chargeDma 1 (65536 * n)).ringStop 1 l false {}).isNone
theorem witness_ring_macros_go : (let e := entry 0x40 12 11 0xFFFF 0xFFFF 0 0; let s := heading e; goes s (macro1 e) [s.desc 12, s.desc 11] (s.plan e.arg).chunks = true) ∧
    (let e := entry 0x41 6 10 0xFFFF 0xFFFF 4095 1; let s := heading e; goes s (macro1 e) [s.desc 6, s.desc 10] 0 = true) ∧
    (let e := entry 0x42 7 6 0xFFFF 2 0 0; let s := heading e; goes s (macro1 e) [s.desc 7, s.desc 6] (s.evk e.evk).chunks = true) ∧
    (let e := entry 0x43 8 7 9 3 0 0; let s := heading e; let a := s.desc e.a
     goes s (macro1 e) ((s.blindDests e).map s.desc ++ [a, s.desc e.b]) ((a.cap + (s.groupCells (s.params a.psid).group).length - 1) /
       (s.groupCells (s.params a.psid).group).length * (s.evk e.evk).chunks) = true) := by decide +kernel
theorem witness_ring_macros : (let e := entry 0x40 12 11 0xFFFF 0xFFFF 0 0; let s := heading e; s.ringHead 1 0x40 = some (macro1 e) ∧ firstFail (s.refreshChecks 1 e) = none) ∧
    (let e := entry 0x41 6 10 0xFFFF 0xFFFF 4095 1; let s := heading e; s.ringHead 1 0x41 = some (macro1 e) ∧ firstFail (s.extractChecks 1 e) = none) ∧
    (let e := entry 0x42 7 6 0xFFFF 2 0 0; let s := heading e; s.ringHead 1 0x42 = some (macro1 e) ∧ firstFail (s.lweChecks 1 e) = none) ∧
    (let e := entry 0x43 8 7 9 3 0 0; let s := heading e; s.ringHead 1 0x43 = some (macro1 e) ∧ firstFail (s.blindChecks 1 e) = none) ∧
    ringing.ringIssue 1 0 = true ∧ ringing.ringMapped 1 (descs.map (·.2)) = true ∧ ringing.ringStop 1 (descs.map (·.2)) true {} = none ∧
    firstFail (ringing.extractChecks 1 (entry 0x41 6 10 0xFFFF 0xFFFF 4095 2)) = some .ctParams := by decide +kernel
theorem witness_sign_exit : (let e := entry 0x44 0 1 0xFFFF 0xFFFF 0 0; let s := heading e; s.ringHead 1 0x44 = some (macro1 e) ∧ firstFail (s.signChecks 1 e) = none ∧
    s.keyUse (s.exitBind 1 0).macKey 1 13 = none ∧ s.ringMapped 1 [s.desc 0, s.desc 1] = true ∧ s.ringStop 1 [s.desc 0, s.desc 1] false {} = none) := by
  decide +kernel
/-- A request that waits. -/
def request : ExitReq := ⟨1, 1, 0, 0, 99, 0, 100, 1, none, 0, 1, 16, 2⟩
/-- Its reply. -/
def reply : ExitReplyMsg := ⟨true, 0, false, 0, 1, 99, 32768, []⟩
theorem witness_exit_reply : (let s : State := { ringing with ring := { ringing.ring with reqs := [request] } }
    s.ring.reqs.find? (fun q => q.tenant == 1 && q.id == reply.requestId) = some request ∧ request.check = none ∧ reply.kind = request.kind ∧
    reply.fingerprint = request.fingerprint ∧ reply.payloadLength = s.replyLength request ∧ request.sentTurn + request.waitTurns ≤ s.turn ∧
    request.sends < request.sendsMax ∧ s.frozen = false) ∧ ringing.ring.reqs.find? (fun q => q.tenant == 1 && q.id == reply.requestId) = none ∧
    (1, 1) ∉ ringing.ring.settled ∧ { request with sends := 2 }.sendsMax ≤ 2 := by decide +kernel
theorem witness_robust_check : (let r : Round := { rnd with state := .frozen, robust := true, psid := some 2, cohorts := [(0, { s := [3, 4], published := true })] }
    let s : State := { ringing with agg := { rounds := [(0, r)] } }
    (s.round 0).test = 0 ∧ s.awaitsCheck 0 3 = true ∧ (∀ y, y < 3 → s.awaitsCheck 0 y = false) ∧ s.mayIssue 1 .ring 0 = true ∧
    s.ringIssue 1 (s.params (s.plan (s.round 0).checkPlan).psid).group = true ∧ s.keyUse (s.exitBind 1 (s.round 0).exitBind).macKey 1 13 = none ∧
    (let n := 65536 * (s.plan (s.round 0).checkPlan).chunks; n ≤ (s.round 0).checkMoved + s.feedMoves (s.params (s.plan (s.round 0).checkPlan).psid).group 1 n) ∧
    ({ s with spn := run.spn } : State).feedMoves 0 1 65536 < 65536) := by decide +kernel
/-- The record and placement of a set of one limb and one special prime. -/
def paramBlock (spread : Nat) : List Byte :=
  leBytes 4 0x53525058 ++ leBytes 1 1 ++ leBytes 1 1 ++ leBytes 1 12 ++ leBytes 1 1 ++ leBytes 1 1 ++ leBytes 1 1 ++ leBytes 1 spread ++ leBytes 1 0 ++ leBytes 4 65537 ++
    zeros 48 ++ leBytes 4 134250497 ++ zeros 252 ++ leBytes 4 134275073 ++ zeros 60 ++ leBytes 4 78445154 ++ zeros 252 ++ leBytes 4 32735733 ++ zeros 60 ++
    leBytes 2 1000 ++ zeros 126 ++ zeros 8 ++ leBytes 8 2097152 ++ leBytes 8 2097152 ++ zeros 8
/-- CT_REGISTER of it. -/
def paramCmd (spread : Nat) : Cmd := { cmd 1 0 with len := 864, host := paramBlock spread }
theorem witness_ct_register_params : (let s : State := { ringing with ring := {} }; let c := paramCmd 0; s.accepts 0x70 c = true ∧
    s.blockFail (cmdActs c) c.addr 864 (fun p => p.r) = none ∧
    (let b := s.readVA (cmdActs c) c.addr 864 c.host; let p := parseParams (cmdActs c) b
     p.fieldsOk b = true ∧ p.primesOk = true ∧ p.switchOk = true ∧ s.ringGroupOk p = true ∧ s.ringRoutesOk p = true ∧ s.ringGroupLocked p = false ∧
     p.scratchNeed ≤ p.scratchLen ∧ s.scratchOk (cmdActs c) p.scratch p.scratchLen = true ∧ s.freeParams = some 0)) ∧
    (parseParams 1 (paramBlock 5)).fieldsOk (paramBlock 5) = false := by decide +kernel
/-- A descriptor's block. -/
def descBlock : List Byte :=
  leBytes 2 0 ++ leBytes 1 0 ++ leBytes 1 1 ++ leBytes 1 1 ++ zeros 1 ++ leBytes 2 0 ++ leBytes 4 1 ++ leBytes 4 0 ++ zeros 8 ++ leBytes 8 5242880 ++ leBytes 4 32768 ++
    leBytes 4 16384 ++ zeros 4 ++ leBytes 1 2 ++ zeros 19
theorem witness_ct_register_descriptor : (let s := ringing; let c := { cmd 1 1 with len := 64, a1 := 0xFFFF, host := descBlock }; s.accepts 0x70 c = true ∧
    s.blockFail (cmdActs c) c.addr 64 (fun p => p.r) = none ∧
    (let b := s.readVA (cmdActs c) c.addr 64 c.host; let d := parseRingDesc (cmdActs c) b; let p := s.params d.psid
     let d' : RingDesc := { d with fingerprint := p.fingerprint d.keyset, noise := if d.type = 0 then max d.noise p.fresh else d.noise, generation := 0 }
     s.ownsParams (cmdActs c) d.psid = true ∧ d'.fieldsOk p b = true ∧ s.descsHeld (cmdActs c) < Tab.look 512 s.ring.descLimit (cmdActs c) ∧
     disjointRanges (s.extents d') = true ∧ (∀ x ∈ s.extents d', s.mapped (cmdActs c) x.1 x.2 = true) ∧
     (∀ x ∈ s.extents d', s.allPages (cmdActs c) x.1 x.2 (fun g => decide (g.tier ≤ 2) && g.r && g.w) = true) ∧ s.freeDesc = some 13)) ∧
    ({ ringing with ring := {} } : State).ownsParams 1 0 = false := by decide +kernel
theorem witness_ring_release : ringing.accepts 0x70 { cmd 1 8 with a1 := 0 } = true ∧ ringing.ownsParams 1 0 = true ∧ ringing.ownsParams 1 3 = false ∧
    ringing.ownsDesc 1 0 = true ∧ ringing.descInUse 1 0 = false ∧ ringing.plansName 1 0 = false ∧ (heading (entry 1 0 1 2 0xFFFF 0 0)).descInUse 1 0 = true ∧
    ringing.ownsEvk 1 0 = true ∧ ringing.evkInUse 1 0 = false ∧ (∀ e ∈ ringing.ring.plans, e.2.owner = 1 → 0 ∉ e.2.keysNamed) ∧
    (heading (entry 6 0 1 2 0 0 0)).evkInUse 1 0 = true ∧ ringing.ownsPlan 1 0 = true := by decide +kernel
/-- An evaluation key's block. -/
def evkBlock : List Byte := leBytes 2 0 ++ zeros 22 ++ leBytes 8 6291456 ++ leBytes 8 65536 ++ zeros 24
theorem witness_evk_register : (let s := ringing; let c := { cmd 1 0 with len := 64, host := evkBlock }; s.accepts 0x71 c = true ∧
    s.blockFail (cmdActs c) c.addr 64 (fun p => p.r) = none ∧
    (let b := s.readVA 1 c.addr 64 c.host; let k := parseEvk 1 b; let n := s.evkChunks k
     s.evkFieldsOk 1 k b = true ∧ s.mapped 1 k.base (65536 * n) = true ∧ s.mapped 1 k.digests (8 * n) = true ∧
     s.allPages 1 k.base (65536 * n) (fun p => p.tier == 2 && p.r) = true ∧ s.allPages 1 k.digests (8 * n) (fun p => p.w) = true ∧
     s.freeTenantKeys.isEmpty = false ∧ s.keysHeld 1 < s.keyLimit 1 ∧ s.freeEvk = some 4 ∧ s.allPages 1 k.base (65536 * n) (fun p => !p.broken) = true ∧
     (let g := (s.params k.psid).group; s.canFeed g 1 = true ∧ s.feedMoves g 1 (65536 * n) = 65536 * n ∧
      ({ s with spn := run.spn } : State).feedMoves g 1 (65536 * n) < 65536 * n ∧
      ({ s with jig := { s.jig with cfg := { s.jig.cfg with dmaBudget := [] } } } : State).canFeed g 1 = false))) := by decide +kernel
/-- A CHECK plan of one TO_MONT from its input to its output. -/
def planBlock (dst : Nat) : List Byte :=
  leBytes 4 0x4E4C5058 ++ leBytes 1 1 ++ leBytes 1 1 ++ leBytes 2 0 ++ leBytes 2 1 ++ leBytes 1 1 ++ leBytes 1 1 ++ leBytes 2 0 ++ leBytes 2 0 ++ leBytes 4 1 ++ leBytes 4 0 ++
    leBytes 8 2097152 ++ leBytes 8 2097152 ++ zeros 24 ++
    leBytes 2 12 ++ leBytes 2 dst ++ leBytes 2 0xFE00 ++ leBytes 2 0xFFFF ++ leBytes 2 0xFFFF ++ zeros 22
theorem witness_plan : (let s := ringing; let c := { cmd 1 2 with len := 96, host := planBlock 0xFF00 }; s.accepts 0x70 c = true ∧
    s.blockFail 1 c.addr c.len (fun p => p.r) = none ∧
    (let b := s.readVA 1 c.addr c.len c.host; let p := parsePlan 1 b
     s.mapped 1 p.scratch p.scratchLen = true ∧ s.scratchOk 1 p.scratch p.scratchLen = true ∧ s.planHeaderOk 1 p b c.len = true ∧ s.planForm 1 p [] p.entries = none ∧
     (match s.planSymbolic 1 p with | .ok x => ((s.planLook 1 x.1 planOut).map (·.type)) == some 0 | .error _ => false) = true ∧
     s.planScratch p ≤ p.scratchLen ∧ s.freePlan = some 1)) ∧
    ringing.planForm 1 (parsePlan 1 (planBlock 0xFF01)) [] (parsePlan 1 (planBlock 0xFF01)).entries = some 0 := by decide +kernel
/-- An exit binding's block. -/
def exitBlock : List Byte := leBytes 2 0 ++ leBytes 2 0 ++ leBytes 4 65536 ++ leBytes 1 2 ++ leBytes 1 0 ++ leBytes 2 16 ++ leBytes 1 1 ++ zeros 19
theorem witness_exit : (let s := ringing; let c := { cmd 1 3 with len := 32, a1 := 3, host := exitBlock }; let x := parseExit (s.readVA (cmdActs c) c.addr 32 c.host);
    s.accepts 0x70 c = true ∧ s.blockFail (cmdActs c) c.addr 32 (fun p => p.r) = none ∧ x.fieldsOk (s.readVA (cmdActs c) c.addr 32 c.host) = true ∧
    (s.ep x.endpoint).state ≠ 0 ∧ (s.ep x.endpoint).tenant = cmdActs c ∧ (s.key x.macKey).type ≠ 0 ∧ (s.key x.macKey).owner = cmdActs c ∧
    bitAt (s.key x.macKey).uses 13 = true) := by decide +kernel
/-- `ringing` without a slot of the ring sequencer. -/
def net0 : State := { ringing with jig := { ringing.jig with cfg := { ringing.jig.cfg with slots := [] } } }
theorem witness_ring_macro : (let c : Cmd := { cmd 1 0 with len := 32, host := leBytes 2 1 ++ leBytes 2 0 ++ leBytes 2 1 ++ leBytes 2 2 ++ leBytes 2 0xFFFF ++ zeros 22 }
    let es := parseEntries (ringing.readVA (cmdActs c) c.addr c.len c.host) 0 (c.len / 32)
    ringing.accepts 0x72 c = true ∧ ringing.blockFail (cmdActs c) c.addr c.len (fun p => p.r) = none ∧ es.any ringing.namesDetached = false ∧
    (!ringing.ownsSlot .ring 0 1 || (es.any (fun e => usesEvk e.op) && ringing.dmaBudgetFull 1 == 0)) = false ∧ net0.ownsSlot .ring 0 1 = false ∧
    ringing.macros 1 = [] ∧ es.all (fun e => ringOpKnown e.op) = true ∧ (heading (entry 1 0 1 2 0xFFFF 0 0)).macros 1 = [macro1 (entry 1 0 1 2 0xFFFF 0 0)] ∧
    ringOpKnown (macro1 (entry 1 0 1 2 0xFFFF 0 0)).head.op = true) ∧
    16 ≤ (({ ringing with ring := { ringing.ring with macros := [(1, List.replicate 16 (macro1 (entry 1 0 1 2 0xFFFF 0 0)))] } } : State).macros 1).length := by
  decide +kernel

/-! ### Cells -/

/-- Cell 0 issues this word next, its first step within the run of owned slots, and no program waits to begin. -/
def ready (s : State) (w : InstrWord) : Bool := (s.runOf 0).all (·.begun) && s.issues 0 w stepCycles
theorem ready_issues (s : State) (w : InstrWord) (n : Nat) (h : ready s w = true) : s.issues 0 w (min n 256) = true ∧ (1 ≤ n → s.issues 0 w 1 = true) := by
  have hs := (Bool.and_eq_true_iff.mp h).2
  have mono : ∀ m, m ≤ stepCycles → s.issues 0 w m = true := by
    intro m hm
    rw [State.issues, Bool.and_eq_true, decide_eq_true_eq] at hs ⊢
    exact ⟨hs.1, Nat.le_trans hm hs.2⟩
  exact ⟨mono _ (Nat.min_le_right n 256), fun _ => mono _ (by decide)⟩
theorem witness_met : (at0.met.cut = none ∧ at0.met.ue = none) ∧ (let a : CellAt := { cell := 0, met := { ue := some (0, .sram 5) } }; a.met.cut = none ∧
    a.met.ue = some (0, .sram 5)) ∧ (let a : CellAt := { cell := 0, met := { cut := some 1 } }; a.met.ue = none ∧ a.met.cut = some 1 ∧ 1 < 2) := by decide
theorem ready_due (w : InstrWord) (f : Cell → Cell) : (progOn w f).beginDue ((progOn w f).cellGroup 0) = progOn w f := rfl
def wNop : InstrWord := cellWord at0 false 0x00 [(16, 16, 5)]
def wWait (t n : Nat) : InstrWord := cellWord at0 false 0x05 [(16, 6, t), (32, 16, n)]
def tokens (n : Nat) (x : Cell) : Cell := { x with tokens := [(3, n)] }
theorem witness_control_held : State.reset.issues 0 wNop (min (1 + 5) 256) = false := by decide +kernel
theorem witness_control : ready (progOn wNop id) wNop = true ∧
    ([cellWord at0 false 0x01 [], cellWord at0 false 0x02 [(16, 12, 2)], cellWord at0 false 0x03 [(16, 12, 2), (28, 4, 0), (32, 32, 0)],
      cellWord at0 false 0x03 [(16, 12, 2), (28, 4, 0), (32, 32, 4294967295)], cellWord at0 false 0x03 [(16, 12, 2), (28, 4, 5), (32, 32, 0)],
      cellWord at0 false 0x04 [(16, 12, 0), (28, 2, 2), (32, 6, 1)], cellWord at0 false 0x04 [(16, 12, 0), (28, 2, 3), (32, 6, 0)], wWait 3 2,
      cellWord at0 false 0x06 [(16, 6, 3), (32, 16, 65533)], cellWord at0 false 0x07 [],
      cellWord at0 false 0x10 [(16, 4, 0), (64, 64, 18446744073709551615)], cellWord at0 false 0x12 [(16, 4, 1), (20, 1, 1)]].all
      (fun w => ready (progOn w (tokens 2)) w) = true) ∧
    (progOn wNop id).busyBinds 0 = [] ∧ (let x := (progOn (wWait 3 2) (tokens 2)).cell 0; 2 ≤ Tab.look 0 x.tokens 3 ∧ Tab.look 0 x.tokens 4 < 1 ∧
      Tab.look 0 x.tokens 3 + 65533 ≤ 65535 ∧ x.sreg 5 = 0) ∧ ((progOn wNop fun x => x.setSreg 5 7).cell 0).sreg 5 ≠ 0 ∧ (progOn wNop id).rank 0 = 0 := by
  decide +kernel
/-- SALU with FUNC f of s1 and an immediate. -/
def wSalu (f v : Nat) : InstrWord := cellWord at0 false 0x11 [(16, 4, 2), (20, 4, 1), (24, 4, 3), (28, 4, f), (32, 1, 1), (64, 64, v)]
theorem witness_salu : (∀ f ∈ List.range 8, ready (progOn (wSalu f 63) id) (wSalu f 63) = true) ∧ (63#64).toNat < 64 := by decide +kernel
theorem witness_wait_limit : (let x := (progOn (wWait 3 1) fun x => { x with waiting := .token 3 1, waitLimit := 4, waitTurns := 4 }).cell 0
    x.running = true ∧ x.waiting ≠ .none ∧ x.waitLimit ≠ 0 ∧ x.waitLimit ≤ x.waitTurns) ∧ (prog 0).frozen = false := by decide +kernel
theorem witness_loops : (let x := (prog 0).cell 0; x.loops = [] ∧ 2 < x.store.length ∧ x.store.length ≤ 3) ∧
    (let x := (progOn 0 fun x => { x with loops := [(0, 1, 2)] }).cell 0; x.loops = [(0, 1, 2)] ∧ 1 < 2 ∧ 0 < x.store.length) ∧
    (let x := (progOn 0 fun x => { x with loops := [(0, 1, 1)] }).cell 0; x.loops = [(0, 1, 1)] ∧ 1 ≤ 1 ∧ 1 + 1 < x.store.length) ∧
    (15 : Nat) ≠ 0 ∧ (1 : Nat) ≠ 15 := by decide +kernel
/-- A block of cell 0 sealed for round 3. -/
def sealedAt (b : Nat) (x : Cell) : Cell := { x with seals := [(b, 4)] }
def wVld (o : Nat) : InstrWord := cellWord at0 false 0x40 [(16, 5, 31), (40, 26, addrCode (addr o))]
def wVop (f pr : Nat) : InstrWord := cellWord at0 false 0x42 [(16, 5, 1), (21, 5, 2), (26, 5, 3), (31, 5, f), (36, 1, pr), (37, 4, 15), (41, 1, 0), (42, 64, 0)]
def wMove (o p n tr : Nat) : InstrWord := cellWord at0 false 0x50 [(40, 26, addrCode (addr o)), (66, 26, addrCode (addr p)), (92, 15, n), (107, 1, tr)]
theorem witness_vector_unit : ([wVld 512, wVld 4194048, cellWord at0 false 0x41 [(16, 5, 0), (40, 26, addrCode (addr 512))], wVop 0 0, wVop 22 1,
      cellWord at0 false 0x43 [(16, 5, 1), (21, 5, 2), (26, 5, 3)], cellWord at0 false 0x44 [(16, 5, 1), (21, 5, 2), (26, 2, 2), (28, 1, 1)],
      cellWord at0 false 0x45 [(16, 5, 1), (21, 4, 15)], cellWord at0 true 0x46 [(16, 5, 1)], wMove 0 4096 16 1, wMove 0 256 2 0].all
      (fun w => ready (progOn w id) w) = true) ∧
    (let x := (prog 0).cell 0; x.misaligned (addr 8) 256 = true ∧ x.misaligned (addr 512) 256 = false ∧ x.misaligned (addr 4096) 4096 = false ∧
      x.sealedRange (x.ea (addr 512)) 512 none = false ∧ (sealedAt 0 x).sealedRange (x.ea (addr 512)) 512 none = true ∧
      (Tab.look ({} : Modulus) x.modulus 15).valid = false ∧ (x.ea (addr 0) < x.ea (addr 256) + 512 ∧ x.ea (addr 256) < x.ea (addr 0) + 512) ∧
      (x.ea (addr 0) + 512 ≤ x.ea (addr 512)) ∧ x.sealedRange (x.ea (addr 0)) 512 none = false) := by decide +kernel

/-- A modulus table with 2^31 - 1 in entry 0. -/
def withQ (x : Cell) : Cell := { x with modulus := [(0, { q := 2147483647, valid := true, qinv := qinvOf 2147483647, rsq := rsqOf 2147483647 })] }
/-- Group 2 of cell 0 open in a format, with one tile of one output. -/
def group2 (fmt : Nat) (x : Cell) : Cell := withQ { x with groups := [(2, { isOpen := true, format := fmt, tiles := 1, halves := [0], windowOpen := fmt == 3 })] }
/-- The same, sealed for round 3. -/
def sealed2 (x : Cell) : Cell := withQ { x with groups := [(2, { isOpen := true, format := 2, tiles := 1, halves := [0], sealed := true, round := 3 })] }
/-- A group descriptor at byte 0 of SRAM: group, format and tiles. -/
def gdesc (g fmt t : Nat) (x : Cell) : Cell := x.write 0 ([BitVec.ofNat 8 g, BitVec.ofNat 8 fmt, 0, BitVec.ofNat 8 t, 0, 0, 0, 255] ++ zeros 24)
def wGopen : InstrWord := cellWord at0 false 0x20 [(40, 26, addrCode (addr 0))]
/-- An opening succeeds. -/
def opens (e : Except Failed State) : Bool := match e with | .ok _ => true | .error _ => false
theorem witness_gopen : (let s := progOn wGopen (gdesc 5 0 32); let x := s.cell 0; ready s wGopen = true ∧ x.misaligned (addr 0) 32 = false ∧
      x.sealedRange (x.ea (addr 0)) 32 none = false ∧
      opens ((s.updCell 0 fun x => x.addWork 2 32 0).openGroup 0 (parseGroup ((x.seen {}).read (x.ea (addr 0)) 32))) = true) ∧
    (let s := progOn wGopen (gdesc 5 0 33); let x := s.cell 0;
      opens ((s.updCell 0 fun x => x.addWork 2 32 0).openGroup 0 (parseGroup ((x.seen {}).read (x.ea (addr 0)) 32))) = false) := by decide +kernel
def wAccld : InstrWord := cellWord at0 false 0x22 [(16, 5, 2), (21, 5, 0), (26, 4, 0), (30, 5, 1), (40, 26, addrCode (addr 256))]
def wAccst : InstrWord := cellWord at0 false 0x23 [(16, 5, 2), (21, 5, 0), (26, 4, 0), (30, 5, 1), (40, 26, addrCode (addr 256))]
theorem witness_load_store : ready (progOn wAccld (group2 2)) wAccld = true ∧ ready (progOn wAccst (group2 2)) wAccst = true ∧
    (let x := (progOn wAccld (group2 2)).cell 0; let G := x.group 2; x.misaligned (addr 256) 256 = false ∧ (x.group 3).isOpen = false ∧ G.isOpen = true ∧
      0 < G.tiles ∧ 0 + 1 ≤ G.slots ∧ x.sealedRange (x.ea (addr 256)) (1 * G.slotBytes) none = false ∧ x.storeForbidden G (x.ea (addr 256)) (1 * G.slotBytes) = false) ∧
    (let x := (progOn wAccld fun x => sealedAt 0 (sealed2 x)).cell 0; let G := x.group 2;
      x.sealedRange (x.ea (addr 0)) 4096 (some G.round) = false ∧ x.storeForbidden G (x.ea (addr 0)) 4096 = false) := by decide +kernel
def wMma (m ct k : Nat) : InstrWord :=
  cellWord at0 false 0x30 [(16, 5, 2), (21, 5, 0), (26, 4, 0), (30, 4, m), (34, 1, ct), (40, 26, addrCode (addr 4096)), (66, 26, addrCode (addr 8192)), (92, 12, k - 1)]
theorem witness_mma : (∀ e ∈ [(0, 2, 1), (1, 0, 1), (2, 1, 0), (3, 3, 0), (13, 3, 0)], ready (progOn (wMma e.1 e.2.2 4) (group2 e.2.1)) (wMma e.1 e.2.2 4) = true ∧
      (let x := (progOn 0 (group2 e.2.1)).cell 0; let G := x.group 2; G.isOpen = true ∧ modeAdmits e.1 G.format = true ∧ x.modulusOk G = true ∧ 0 < G.tiles ∧ 0 < G.outputs ∧
        (G.topk = true → Tab.look 0 G.terms 0 + 4 < 4294967296))) ∧
    (let x := (progOn 0 (group2 3)).cell 0; let G := x.group 2; x.misaligned (addr 4096) 4096 = false ∧ x.misaligned (addr 8192) 64 = false ∧
      x.sealedRange (x.ea (addr 4096)) 4096 none = false ∧ x.sealedRange (x.ea (addr 8192)) 512 none = false ∧ G.windowOpen = true ∧
      run.mapped 1 G.termSource G.termLength = true ∧ run.allPages 1 G.termSource G.termLength (fun p => !p.broken) = true) := by decide +kernel
def wEwadd : InstrWord := cellWord at0 false 0x31 [(16, 5, 2), (21, 5, 0), (26, 4, 0), (30, 5, 1), (35, 1, 1), (40, 26, addrCode (addr 4096))]
def wMask : InstrWord := cellWord at0 false 0x32 [(16, 5, 2), (21, 5, 0), (26, 4, 0), (30, 5, 1), (35, 1, 0), (36, 2, 1)]
/-- A bound stream in place 1. -/
def streamed (f : Cell → Cell) (x : Cell) : Cell := { f x with streams := [(1, some { elements := [1, 2] })] }
theorem witness_ewadd : ready (progOn wEwadd (group2 2)) wEwadd = true ∧
    (let x := (progOn wEwadd (group2 2)).cell 0; let G := x.group 2; x.misaligned (addr 4096) 256 = false ∧ G.isOpen = true ∧ G.format ≠ 3 ∧ x.modulusOk G = true ∧
      0 < G.tiles ∧ 0 + 1 ≤ G.outputs ∧ x.sealedRange (x.ea (addr 4096)) (1 * 1024 * G.elemBytes) none = false) := by decide +kernel
theorem witness_mask : (let s := progOn wMask (streamed (group2 2)); let x := s.cell 0; let G := x.group 2; ready s wMask = true ∧ s.streamSlot 0 1 (32 * G.elemBytes) = true ∧
      x.stream 1 = some { elements := [1, 2] } ∧ s.ownsSlot .maskExpander 0 (s.cellTenant 0) = true ∧ G.isOpen = true ∧ G.format ≠ 3 ∧ x.modulusOk G = true ∧ 0 < G.tiles ∧
      0 + 1 ≤ G.outputs) := by decide +kernel
def wGclose (out fused : Nat) (l : List (Nat × Nat × Nat)) : InstrWord :=
  cellWord at0 false 0x21 ([(16, 5, 2), (21, 2, out), (23, 3, fused), (26, 2, 1), (40, 26, addrCode (addr 4096)), (66, 26, addrCode (addr 256))] ++ l)
/-- What a close of group 2 needs, with this output, fused operation and fused operand. -/
abbrev closes (s : State) (out fused : Nat) : Prop :=
  let x := s.cell 0; let G := x.group 2
  x.misaligned (addr 4096) 256 = false ∧ x.misaligned (addr 256) 16 = false ∧ G.isOpen = true ∧ out ≤ 2 ∧ (out ≠ 0 → G.format = 3) ∧ x.modulusOk G = true ∧
    (G.sealed = true → out = 0) ∧ x.storeForbidden G (x.ea (addr 4096)) (G.closeBytes out) = false ∧ x.storeForbidden G (x.ea (addr 256)) 16 = false ∧
    G.fusedOk fused = true ∧ x.sealedRange (x.ea (addr 16384)) (G.operandSize fused) none = false
theorem witness_gclose : ready (progOn (wGclose 0 0 []) (group2 0)) (cellWord at0 false 0x21 [(16, 5, 2), (21, 2, 0), (23, 3, 0), (26, 2, 0), (40, 26, addrCode (addr 4096)),
      (66, 26, addrCode (addr 256))]) = false ∧
    (let w := cellWord at0 false 0x21 [(16, 5, 2), (21, 2, 0), (23, 3, 0), (26, 2, 0), (40, 26, addrCode (addr 4096)), (66, 26, addrCode (addr 256))]
     ready (progOn w (group2 0)) w = true) ∧
    ready (progOn (wGclose 2 1 [(92, 26, addrCode (addr 16384))]) (group2 3)) (wGclose 2 1 [(92, 26, addrCode (addr 16384))]) = true ∧
    ready (progOn (wGclose 0 3 [(92, 32, 7)]) (group2 2)) (wGclose 0 3 [(92, 32, 7)]) = true ∧ ready (progOn (wGclose 0 5 []) (group2 1)) (wGclose 0 5 []) = true := by
  decide +kernel
theorem witness_gclose_state : (∀ e ∈ [(0, 0, 0), (3, 2, 1), (2, 0, 3), (1, 0, 5)], closes (progOn 0 (streamed (group2 e.1))) e.2.1 e.2.2) ∧
    (let s := progOn 0 (streamed (group2 1)); s.streamSlot 0 1 (32 * ((s.cell 0).group 2).elemBytes) = true ∧ ((s.cell 0).stream 1).isSome = true ∧ s.ownsSlot .maskExpander 0 (s.cellTenant 0) = true) ∧
    closes (progOn 0 sealed2) 0 0 := by
  decide +kernel

/-- The value that an output would take. -/
def past (v : Int) : Cell → Int → FxOut → Int := fun _ _ _ => v
theorem witness_overflow : (∀ e ∈ [(false, true, 0, 0), (false, true, 3, 0), (true, false, 0, 0), (false, false, 0, 503), (false, false, 0, 504)],
      let x : Cell := { groups := [(2, { isOpen := true, format := 3, saturated := e.1, windowOpen := e.2.1, repeats := e.2.2.1, e := e.2.2.2 })] }
      (x.group 2).topk = false ∧ 9223372036854775808 ≤ past 9223372036854775808 x 0 { half := 0, pe := 0, idx := 0 } ∧
      ((x.group 2).saturated = true ∨ (x.group 2).windowOpen = true ∧ (x.group 2).repeats < 3 ∨ (x.group 2).windowOpen = true ∧ 3 ≤ (x.group 2).repeats ∨
        511 < (x.group 2).e + 8 ∨ (x.group 2).windowOpen = false ∧ (x.group 2).e + 8 ≤ 511)) ∧
    -9223372036854775808 ≤ (-9223372036854775808 : Int) ∧ (9223372036854775807 : Int) < 9223372036854775808 := by decide +kernel
theorem witness_modular : (let x := group2 2 {}; 0 < x.groupModulus (x.group 2) ∧ x.groupModulus (x.group 2) ≤ 4294967296) ∧
    (let x := group2 1 {}; x.groupModulus (x.group 2) ≤ 18446744073709551616) ∧ (1023 : Nat) < 1024 ∧ (2 : Nat) / 2 ≠ (group2 2 {} |>.group 2).half 0 0 / 2 ∧
    ((group2 2 {}).group 2).whole = false ∧ (4194303 : Nat) < 4194304 ∧ ([1] : List Byte).length ≤ 4194304 := by decide +kernel
theorem witness_montgomery : (∀ q ∈ [3, 2147483647], q % 2 = 1 ∧ 3 ≤ q ∧ q < 2147483648 ∧ q - 1 < q) ∧
    (let x := group2 2 {}; let e := Tab.look ({} : Modulus) x.modulus (x.group 2).modulus; (x.group 2).format = 2 ∧ e.q = 2147483647 ∧ e.qinv = qinvOf 2147483647 ∧
      x.accGet false ((x.group 2).half 0 0) 1023 < 2147483647) := by decide +kernel
def wSend : InstrWord := cellWord at0 false 0x51 [(16, 8, 0), (24, 1, 1), (25, 6, 63), (40, 26, addrCode (addr 64)), (66, 26, addrCode (addr 4194240)), (92, 16, 1)]
theorem witness_send : (let s := progOn wSend id; let x := s.cell 0; let r : JigRoute := { src := 0, dst := 1, hops := 1, path := 1 }
    ready s wSend = true ∧ s.meshRoute 0 = some r ∧ r.src = 0 ∧ s.ownsSlot .meshRoute 0 (s.cellTenant 0) = true ∧ s.mayIssue (s.cellTenant 0) .meshRoute 0 = true ∧
    x.misaligned (addr 64) 64 = false ∧ x.misaligned (addr 4194240) 64 = false ∧ x.sealedRange (x.ea (addr 64)) 64 none = false ∧
    (s.cell r.dst).sealedRange (x.ea (addr 4194240)) 64 none = false ∧ min 1 (250 - 2 * r.hops) + 6 + 2 * r.hops ≤ s.runCycles .meshRoute 0 (s.cellTenant 0) ∧
    0 < r.hops) := by decide +kernel
def wFeed : InstrWord := cellWord at0 true 0x52 [(16, 5, 0), (40, 26, addrCode (addr 64))]
/-- A descriptor block with V set at byte 64 of the cell's SRAM. -/
def withDesc (x : Cell) : Cell := x.write 64 (leBytes 4 256 ++ zeros 60)
theorem witness_feed : (let s := progOn wFeed withDesc; let x := s.cell 0; ready s wFeed = true ∧ x.misaligned (addr 64) 64 = false ∧ s.dmaFeeds 0 = s.cellGroup 0 ∧
      s.ownsSlot .dma 0 (s.cellTenant 0) = true ∧ x.sealedRange (x.ea (addr 64)) 64 none = false ∧ (parseDesc ((x.seen {}).read (x.ea (addr 64)) 64)).v = true ∧ x.feedsOn 0 < 16) ∧
    16 ≤ ((progOn wFeed fun x => { x with feeds := List.replicate 16 (0, parseDesc [], none) }).cell 0).feedsOn 0 := by decide +kernel
theorem witness_clear_modulus : (let x := ((prog 0).updCell 0 fun x => { x with clearing := true, running := false }).cell 0
      x.clearing = true ∧ ∀ g, g < 32 → (x.group g).windowOpen = false) ∧
    run.sec.lifecycle ≠ .tampered ∧ (run.cell 0).running = false ∧ run.ringGroup (run.cellGroup 0) = false ∧ ((prog 0).cell 0).running = true ∧
    (Tab.look ({} : Modulus) ({ modulus := [(1, { q := 5, busy := true })] } : Cell).modulus 1).busy = true ∧ (Tab.look ({} : Modulus) (run.cell 0).modulus 1).busy = false := by
  decide +kernel

/-! ### Etkai -/

/-- Two members with a route each way; of the port, tenant 1 has TRANSPORT and SCHEDULED slots. -/
def netCfg : JigConfig :=
  { cfg with
    assembly := { members := [{ fingerprint := 0, index := 0, domain := 0 }, { fingerprint := 1, index := 1, domain := 1 }], coordinator := 0 }
    slots := [[(0, List.replicate 64 1), (slotKey .port 0, List.replicate 32 1 ++ List.replicate 32 17)]]
    ports := [[{ role := 1, peerMember := 1 }], [{ role := 1, peerMember := 0 }]]
    linkBudget := [(16, 8400)]
    routeSets := [(0, { routes := [{ src := 0, dst := 1, ports := [0] }, { src := 1, dst := 0, ports := [0] }] })] }
/-- An endpoint of tenant 1, its queues in the tenant's page 0, with one request and one receive entry waiting. -/
def endpoint : Endpoint :=
  { state := 1, tenant := 1, sqBase := 0, rqBase := 4096, cqBase := 65536, sqSize := 16, rqSize := 16, cqSize := 32, sqTail := 1, rqTail := 1 }
/-- A region of a page of tenant 1 with these rights: FORMAT, OPS and NOTIFY_EP. -/
def region (rights fmt ops notify : Nat) : Region := ⟨1, 65536, 65536, rights, 3, fmt, 0, 0, ops, notify, 0, []⟩
/-- Member 0 of those two with endpoint 0, its port in service, budget, and three regions. -/
def net : State :=
  { run with
    jig := { loaded := true, cfg := netCfg, shadow := netCfg }
    spn := { run.spn with budgetLink := [(16, { remaining := 1048576 })] }
    fab := { ports := [(0, fabricPort)], eps := [(0, endpoint)], regions := [(5, region 1 0 0 0), (6, region 2 0 1 0), (7, region 5 0 0 0)]
             regionGen := [(5, 1), (6, 1), (7, 4096)] } }
/-- `net` with another endpoint 0. -/
def netEp (f : Endpoint → Endpoint) : State := net.setEp 0 (f endpoint)
/-- A REGION_REGISTER block: length, index, rights, format and operations. -/
def regionBlock (len i rights fmt ops : Nat) : List Byte :=
  leBytes 8 65536 ++ leBytes 8 len ++ leBytes 4 i ++ [BitVec.ofNat 8 rights, 1, BitVec.ofNat 8 fmt, 0] ++ zeros 4 ++ leBytes 4 ops ++ zeros 32
def regionCmd (len i rights fmt ops : Nat) : Cmd := { cmd 1 0 with len := 64, host := regionBlock len i rights fmt ops }
/-- The block of the command and its index, as `net` reads them. -/
def regionRead (c : Cmd) : Region × Nat := parseRegion 1 (net.readVA 1 c.addr 64 c.host)
theorem witness_region_register : net.accepts 0x20 (cmd 1 0) = true ∧ (cmd 1 0).len ≠ 64 ∧
    (∀ e ∈ [(1048575, 1, 0, 0), (8, 2, 1, 1)], let c := regionCmd 65536 e.1 e.2.1 e.2.2.1 e.2.2.2; let r := (regionRead c).1
      net.accepts 0x20 c = true ∧ cmdActs c = 1 ∧ net.blockFail 1 c.addr 64 (fun p => p.r) = none ∧
      net.regionFieldsOk r (regionRead c).2 (net.readVA 1 c.addr 64 c.host) = true ∧ net.mapped 1 r.va r.length = true ∧
      net.allPages 1 r.va r.length (fun p => p.w && !p.sealed_ && (!bitAt r.rights 1 || p.acc)) = true ∧
      net.opmapUsed + r.ops * 32 ≤ 1073741824) ∧
    net.region 0 = none ∧ net.generations 0 < 4096 ∧ net.fab.regions.length < 65536 ∧ net.region 8 = none ∧ (net.region 5).isSome = true ∧
    ({ net with fab := { regionGen := [(7, 4096)] } } : State).region 7 = none ∧ 4096 ≤ net.generations 7 := by decide +kernel
theorem witness_region_register_refused :
    (let c := regionCmd 65504 1048575 1 0 0; net.regionFieldsOk (regionRead c).1 (regionRead c).2 (net.readVA 1 c.addr 64 c.host) = false) ∧
    (let c := regionCmd 131072 1048575 1 0 0; net.mapped 1 (regionRead c).1.va (regionRead c).1.length = false) ∧
    ({ net with mem := { net.mem with pages := [(8589934593, { full 1 70001 with w := false })] } } : State).allPages 1 65536 65536 (fun p => p.w) = false := by
  decide +kernel
theorem witness_region_keys : (let c := cmd 1 (5 * 4096); net.accepts 0x21 c = true ∧ net.accepts 0x22 c = true ∧ net.region (c.a0 / 4096) = some (region 1 0 0 0) ∧
      (region 1 0 0 0).tenant = cmdActs c ∧ c.a0 % 4096 + 1 = net.generations (c.a0 / 4096) ∧ net.generations (c.a0 / 4096) < 4096) ∧
    (let c := cmd 1 (7 * 4096 + 4095); net.region (c.a0 / 4096) = some (region 5 0 0 0) ∧ c.a0 % 4096 + 1 = net.generations (c.a0 / 4096) ∧ 4096 ≤ net.generations (c.a0 / 4096)) ∧
    net.region (cmd 1 0).a0 = none ∧ (region 1 0 0 0).tenant ≠ cmdActs (cmd 0 (5 * 4096)) ∧ net.accepts 0x21 (cmd 0 (5 * 4096)) = true ∧
    (cmd 1 (5 * 4096 + 1)).a0 % 4096 + 1 ≠ net.generations 5 := by decide +kernel
/-- An ENDPOINT_CREATE block with these queue sizes. -/
def epBlock (sq rq cq : Nat) : List Byte := zeros 8 ++ leBytes 8 4096 ++ leBytes 8 65536 ++ leBytes 2 sq ++ leBytes 2 rq ++ leBytes 2 cq ++ zeros 34
def epCmd (sq rq cq : Nat) : Cmd := { cmd 1 0 with len := 64, host := epBlock sq rq cq }
/-- The sizes that ENDPOINT_CREATE takes. -/
def epRead (c : Cmd) : Endpoint := parseEndpoint 1 (net.readVA 1 c.addr 64 c.host)
theorem witness_endpoint_create : (let c := epCmd 16 4096 8192; net.accepts 0x28 c = true ∧ net.blockFail (cmdActs c) c.addr 64 (fun p => p.r) = none ∧
      (epRead c).sqBase % 64 = 0 ∧ (epRead c).cqBase < 281474976710656 ∧ (epRead c).sqSize = 2 ^ 4 ∧ (epRead c).rqSize = 2 ^ 12 ∧ (epRead c).cqSize = 2 ^ 13 ∧
      16 + 4096 ≤ (epRead c).cqSize ∧ zeroAt (net.readVA 1 c.addr 64 c.host) 30 34 = true) ∧
    (epRead (epCmd 16 16 16)).cqSize < (epRead (epCmd 16 16 16)).sqSize + (epRead (epCmd 16 16 16)).rqSize ∧ (net.ep 1).state = 0 ∧ (∀ j, j < 1 → (net.ep j).state ≠ 0) ∧
    net.residents < 1024 := by decide +kernel
theorem witness_endpoints_full : 1024 ≤ ({ fab := { eps := (List.range 1024).map (fun i => (i, endpoint)) } } : State).residents := by decide +kernel
/-- A SEND in progress: its one packet sent at this position, with tries. -/
def sendMsg (tries naks at_ : Nat) (wait : Option Nat) : SendMsg :=
  { msgId := 9, req := parseReq (leBytes 1 1 ++ leBytes 1 1 ++ zeros 4 ++ leBytes 2 1 ++ zeros 8 ++ leBytes 8 65536 ++ leBytes 4 64 ++ zeros 36), data := zeros 64
    left := [⟨0, tries, tries, naks, at_, tries, wait⟩], retransmitted := false }
theorem witness_park : net.accepts 0x29 (cmd 1 0) = true ∧ net.accepts 0x2A (cmd 1 0) = true ∧ (cmd 1 0).a0 ≤ 8191 ∧ (net.ep 0).tenant = cmdActs (cmd 1 0) ∧
    (net.ep 0).state = 1 ∧ (net.ep 0).sends = [] ∧ (net.ep 0).pushes = [] ∧ ((netEp fun x => { x with sends := [sendMsg 1 0 0 none] }).ep 0).sends ≠ [] ∧
    ((netEp fun x => { x with state := 2 }).ep 0).state = 2 ∧ (netEp fun x => { x with state := 2 }).residents < 1024 ∧ 8191 < (cmd 1 8192).a0 ∧ (net.ep 8191).state = 0 ∧
    net.sec.lifecycle ≠ .tampered := by decide +kernel
/-- A request's 64 bytes: KIND, FLAGS, FORMAT, and LOCAL_VA. -/
def reqBlock (kind flags fmt va : Nat) : List Byte :=
  [BitVec.ofNat 8 kind, BitVec.ofNat 8 flags, BitVec.ofNat 8 fmt, 1] ++ zeros 2 ++ leBytes 2 1 ++ zeros 8 ++ leBytes 8 va ++ leBytes 4 64 ++ zeros 36
/-- The request that endpoint 0 takes from that block. -/
def reqRead (kind flags fmt va : Nat) : WorkReq := parseReq (net.readVA 1 0 64 (reqBlock kind flags fmt va))
theorem witness_requests : (net.ep 0).state = 1 ∧ (net.ep 0).sqHead ≠ (net.ep 0).sqTail ∧ net.issuing 1 = true ∧
    (∀ e ∈ [(1, 1, 0), (2, 1, 0), (3, 1, 0), (4, 1, 2), (0x10, 0, 0xFF), (0x11, 0, 0)], let w := reqRead e.1 e.2.1 e.2.2 65536
      w.kind = e.1 ∧ w.fieldsOk = true ∧ (e.1 ≤ 4 ↔ w.flags % 2 = 1) ∧ net.mapped 1 w.localVa w.length = true ∧
      net.allPages 1 w.localVa w.length (fun p => p.r && !p.sealed_) = true ∧ net.allPages 1 w.localVa w.length (fun p => p.tier != 3) = true ∧
      net.allPages 1 w.localVa w.length (fun p => !p.broken) = true ∧ net.destinations w = [1]) ∧
    (net.egress 1 (reqRead 1 1 0 65536)).isSome = true ∧ net.routeTo 1 = some { src := 0, dst := 1, ports := [0] } ∧ net.ownsRoute true 1 net.jig.me [0] = true ∧
    (net.port 0).state = 1 ∧ net.linkBudgetFull 1 0 ≠ 0 := by decide +kernel
theorem witness_requests_refused : (reqRead 4 1 3 65536).fieldsOk = false ∧ (reqRead 1 0 0 65536).flags % 2 = 0 ∧ (reqRead 0x10 1 0 65536).flags % 2 = 1 ∧
    net.mapped 1 131072 64 = false ∧ net.allPages 1 0 64 (fun p => p.tier != 3) = false ∧
    (let m : State := { net with mem := { net.mem with pages := [(8589934593, { full 1 70001 with broken := true, r := false })] } }
     m.allPages 1 65536 64 (fun p => p.r && !p.sealed_) = false ∧ m.allPages 1 65536 64 (fun p => !p.broken) = false) ∧
    run.egress 1 (reqRead 1 1 0 65536) = none ∧
    (let b : State := { net with jig := { net.jig with cfg := { netCfg with linkBudget := [] } } }
     b.egress 1 (reqRead 1 1 0 65536) = some 0 ∧ b.linkBudgetFull 1 0 = 0) ∧ ((netEp fun x => { x with sqTail := 0 }).ep 0).sqHead = 0 := by decide +kernel
theorem witness_send_packet : (let m := sendMsg 0 0 0 none; let net : State := { net with spn := { net.spn with pos := 1005000 } }; net.egress (net.ep 0).tenant m.req = some 0 ∧ net.issuing 1 = true ∧ net.granted 1 .port = true ∧
    (net.port 0).state = 1 ∧ net.portSlot false 0 1 = true ∧ (net.port 0).replay.length < 256 ∧ (net.port 0).txSeq + 1 < 2147483648 ∧ etkaiCharge m.req.eth (m.bytes 0).length ≤ (net.linkBudget 1 0).remaining ∧ (net.port 0).role = 1 ∧
    ({ net with spn := run.spn } : State).linkBudget 1 0 = {} ∧ 0 < etkaiCharge m.req.eth (m.bytes 0).length) := by decide +kernel
/-- `net` with that message in progress, its flow in the table. -/
def sending (tries naks at_ : Nat) (wait : Option Nat) : State :=
  let s := netEp fun x => { x with sends := [sendMsg tries naks at_ wait] }
  { s with fab := { s.fab with flows := [newFlow (flowKey 0 (sendMsg tries naks at_ wait).req) s.turn] } }
theorem witness_answers : net.sendingOf 0 9 0 = none ∧ ((sending 1 0 999000 none).sendingOf 0 9 0).isSome = true ∧ ((sending 1 62 999000 none).sendingOf 0 9 0).isSome = true ∧
    ((sendMsg 1 0 0 none).left.filter (fun y => y.idx != 0)) = [] ∧
    (Status.rights ≠ .endpointParked ∧ Status.rights ≠ .budget) ∧ (62 : Nat) < 63 ∧ (63 : Nat) ≤ 63 ∧
    (∀ n ∈ [(1, 996800), (17, 200000)], let s := sending n.1 0 n.2 none; let f := s.flow (flowKey 0 (sendMsg n.1 0 n.2 none).req)
      0 < n.1 ∧ s.frozen = false ∧ n.2 + min (f.rto false * 2 ^ (n.1 - 1)) 800000 ≤ s.pos) ∧
    (let s := sending 1 1 999000 (some 999999); s.due 999999 = true ∧
      s.inFlight 0 (flowKey 0 (sendMsg 1 1 999000 (some 999999)).req) < (s.flow (flowKey 0 (sendMsg 1 1 999000 (some 999999)).req)).window) := by decide +kernel
theorem witness_flow : (newFlow 0 0).window ≤ 256 ∧ (newFlow 0 0).acks + 1 < (newFlow 0 0).window ∧ (newFlow 0 0).halved < 1 ∧ 0 ≤ (newFlow 0 0).halved ∧
    (newFlow 0 0).rtt = none ∧ ((newFlow 0 0).measure 700).rtt = some (5600, 1400) := by decide +kernel
/-- A packet from endpoint 3 of member 1 for this member: OP, region key and endpoint. -/
def packet (op key dst : Nat) : Packet :=
  { op := op, tenant := 1, srcEp := 3, dstEp := dst, regionKey := key, msgId := 4, srcMember := 1, dstMember := 0, payload := zeros 64,
    rqHost := leBytes 8 65536 ++ leBytes 4 128 ++ zeros 4 }
/-- That packet as it arrives: the 48 bytes of its header, and its payload. -/
def arriving (p : Packet) : PacketIn := { head := packetHeader p 1 p.code, payload := p.payload, rqHost := p.rqHost }
/-- The operation, tenant, destination endpoint and message of a header lie at the offsets of the spec's table, low byte first. -/
theorem test_packet_header : (let l := packetHeader (packet 1 20480 7) 1 0
    l.take 10 = [0x58, 0x45, 0x54, 0x4B, 1, 1, 1, 0, 1, 0] ∧ l.getD 12 0 = 7 ∧ l.getD 21 0 = 0x50 ∧ l.getD 24 0 = 4 ∧ l.length = 48) := by decide +kernel
theorem witness_packets_read : net.frozen = false ∧
    ∀ e ∈ [(0, 0, 0), (1, 20480, 0), (2, 32767, 0), (3, 24576, 0)], packetOf e.1 (arriving (packet e.1 e.2.1 e.2.2)) = packet e.1 e.2.1 e.2.2 ∧
      packetOk (packet e.1 e.2.1 e.2.2) = true := by decide +kernel
theorem witness_packets : (net.port 0).state = 1 ∧ (packet 1 0 0).dstMember = net.jig.me ∧ packetOk (packet 1 0 0) = true ∧ packetOk { packet 1 0 0 with pktCount := 0 } = false ∧
    net.fencedAt 1 0 = false ∧ (net.tenant 1).state ≠ .absent ∧ ({ net with fab := { net.fab with tenants := [(1, { fenceRound := 17 })] } } : State).fencedAt 1 0 = true ∧
    (net.tenant 2).state = .absent ∧ net.fencedAt 2 0 = false ∧ { packet 1 0 0 with dstMember := 1 }.dstMember ≠ net.jig.me ∧
    net.routeTo 1 = some { src := 0, dst := 1, ports := [0] } := by decide +kernel
theorem witness_packet_keys : net.region (0 / 4096) = none ∧ net.region (20480 / 4096) = some (region 1 0 0 0) ∧ (region 1 0 0 0).tenant = 1 ∧
    20480 % 4096 + 1 = net.generations 5 ∧ 20481 % 4096 + 1 ≠ net.generations 5 ∧ bitAt (region 1 0 0 0).scope 0 = true ∧
    bitAt { region 1 0 0 0 with scope := 2 }.scope 0 = false ∧ 65472 + 64 ≤ (region 1 0 0 0).length ∧ ¬ (65473 + 64 ≤ (region 1 0 0 0).length) ∧
    bitAt (region 1 0 0 0).rights 0 = true ∧ bitAt (region 2 0 1 0).rights 0 = false ∧ net.landFail 1 65536 64 false = none ∧
    net.landFail 1 131072 64 false = some .xlateFault := by decide +kernel
theorem witness_packet_acc_add : (let p := packet 3 24576 0; let r := region 2 0 1 0; net.region (p.regionKey / 4096) = some r ∧ p.code = r.format ∧ p.opId < r.ops ∧
      p.payload.length % 4 = 0 ∧ bitAt r.rights 1 = true ∧ net.landFail r.tenant (r.va + p.offset) p.payload.length true = none ∧
      256 * p.opId + p.pktIndex ∉ r.applied ∧ 0 ∈ { r with applied := [0] }.applied ∧ r.ops ≤ 1) := by decide +kernel
theorem witness_packet_write_notify : (let p := packet 2 32767 0; let r := region 5 0 0 0; net.region (p.regionKey / 4096) = some r ∧
      p.regionKey % 4096 + 1 = net.generations (p.regionKey / 4096) ∧ bitAt r.rights 2 = true ∧ p.dstEp = r.notifyEp ∧ (packet 2 32767 1).dstEp ≠ r.notifyEp ∧
      net.epTakes 0 = true ∧ (netEp fun x => { x with state := 2 }).epTakes 0 = false ∧ (net.ep 0).reasm.find? (fun x => x.takes p) = none ∧
      (net.ep 0).reasm.length < 64 ∧ (net.takeEntry 0 p.rqHost).isSome = true ∧ net.landFail r.tenant (r.va + p.offset) p.payload.length false = none ∧ p.pktCount = 1) := by
  decide +kernel
/-- A reassembly of that packet's message with its first packet still to come. -/
def half : Reasm := ⟨3, 1, 0, 4, 2, [1], 64, false, ⟨65536, 4160, 0⟩, none, 999000⟩
theorem witness_packet_send : (let p := packet 0 0 0; p.dstEp ≤ 8191 ∧ (net.ep 0).state ≠ 0 ∧ (net.ep 0).tenant = p.tenant ∧ p.op = 0 ∧ net.epTakes 0 = true ∧
      (net.ep 0).reasm.find? (fun x => x.takes p) = none ∧ (net.ep 0).reasm.length < 64 ∧
      (match net.takeEntry 0 p.rqHost with | some (e, _) => e == ⟨65536, 128, 0⟩ && (net.landFail 1 (e.addr + p.offset) p.payload.length false).isNone | none => false) = true ∧
      (netEp fun x => { x with rqTail := 0 }).takeEntry 0 p.rqHost = none ∧ (128 : Nat) < 65 + p.payload.length) ∧
    (packet 0 0 0xFFFF).dstEp = 0xFFFF ∧ 8191 < (packet 0 0 8192).dstEp := by decide +kernel
theorem witness_packet_last : (let s := netEp fun x => { x with reasm := [half] }; let p := { packet 0 0 0 with pktCount := 2, payload := zeros 4096 }
    packetOk p = true ∧ s.epTakes 0 = true ∧ (s.ep 0).reasm.find? (fun x => x.takes p) = some half ∧ p.pktIndex ∉ half.got ∧ half.got.length + 1 = half.count ∧ half.region = none ∧
    p.offset + p.payload.length ≤ half.entry.length ∧ s.landFail 1 (half.entry.addr + p.offset) p.payload.length false = none) := by decide +kernel

/-! ### Registers, Calipers and JTAG -/

/-- An access. -/
def access (fn : FnId) (offset size : Nat) (write : Bool) : RegAccess := { fn := fn, offset := offset, size := size, value := 0, write := write }
theorem witness_accesses : (access 0 0x100000 8 false).offset % 8 = 0 ∧ decodeReg 0x100000 = some (.spnPosition, 0, 0) ∧ net.vfReg 1 0x10100 = some (.spnBudgetDma, 1, 0) ∧
    decodeReg 0x3FFFFF8 = none ∧ net.vfReg 1 0xF0000 = none ∧ (access 0 0 4 true).size ≠ 8 ∧ (access 1 0x1004 8 false).offset % 8 ≠ 0 ∧
    (net.vfReg 7 0x10100).isSome = true := by decide +kernel
theorem witness_register_kinds : net.sec.lifecycle ≠ .tampered ∧ (withSec fun x => { x with lifecycle := .tampered }).sec.lifecycle = .tampered ∧ (net.round 63).tenant ≠ 1 := by
  decide +kernel
/-- A running engine in a life-cycle state. -/
def inState (l : Lifecycle) : State := withSec fun x => { x with lifecycle := l }
theorem witness_calipers : (inState .provisioned).calServed = true ∧ (inState .provisioned).dbg.calClosed = false ∧ (inState .open_).calServed = true ∧
    run.calServed = true ∧ run.sec.lifecycle = .owned ∧ State.reset.calServed = false ∧ (8 : Nat) % 8 = 0 ∧ decodeReg 0x20 = none ∧ (0x100000 : Nat) < 67108864 ∧
    (4 : Nat) % 8 ≠ 0 ∧ (67108864 : Nat) ≤ 67108864 ∧ 9600 ∉ [115200, 230400, 460800, 921600, 1000000, 2000000, 3000000] ∧
    [115200, 230400, 460800, 921600, 1000000, 2000000, 3000000][6]? = some 3000000 := by decide +kernel
theorem witness_jtag : run.sec.lifecycle ≠ .blank ∧ run.sec.lifecycle ≠ .open_ ∧ (inState .blank).sec.lifecycle = .blank ∧ (inState .open_).sec.lifecycle = .open_ := by
  decide +kernel

/-! ### Steps of a cell program, each expected value worked out from the rule named -/

/-- R218: NOP of COUNT 5 holds issue for 6 work cycles and goes on. -/
theorem test_nop : (let x := (after (.nop at0 5) (progOn wNop id)).cell 0; (x.pc, x.work)) = (2, 6) := by decide +kernel
/-- R222: a LOOP whose count is 0 goes past its last instruction, here past the program's end, INSTR_ILLEGAL with detail 0x0A. -/
theorem test_loop_skipped_past_end : (let w := cellWord at0 false 0x03 [(16, 12, 2), (28, 4, 5), (32, 32, 0)]
    let x := (after (.loop at0 2 5 0) (progOn w id)).cell 0; (x.running, x.fault.status, x.fault.detail)) = (false, .instrIllegal, 10) := by decide +kernel
/-- R219: 0 - 1 wraps to 2^64 - 1. -/
theorem test_salu_sub_wraps : (let w := wSalu 1 1; (after (.salu at0 2 1 3 1 true 1) (progOn w id)).cell 0 |>.sreg 2) = 18446744073709551615 := by decide +kernel
/-- R202: s0 keeps its 0. -/
theorem test_smovi_s0 : (let w := cellWord at0 false 0x10 [(16, 4, 0), (64, 64, 9)]; (after (.smovi at0 0 9) (progOn w id)).cell 0 |>.sreg 0) = 0 := by decide +kernel
/-- R213: WAIT subtracts its count. -/
theorem test_wait : (let x := (after (.wait at0 false 3 2) (progOn (wWait 3 2) (tokens 5))).cell 0; (Tab.look 0 x.tokens 3, x.pc)) = (3, 2) := by decide +kernel
/-- R213: a token past 65,535 ends the program with INSTR_ILLEGAL, detail 9, and its group's other cell with it (R204). -/
theorem test_token_overflow : (let w := cellWord at0 false 0x06 [(16, 6, 3), (32, 16, 65535)]
    let s := after (.signal at0 3 65535) ((progOn w (tokens 1)).updCell 1 fun x => { x with running := true })
    ((s.cell 0).fault.detail, (s.cell 1).running, (s.cell 1).fault.status)) = (9, false, .instrIllegal) := by decide +kernel
/-- R217: an operand that is not a multiple of 256 ends the program with detail 4. -/
theorem test_vld_misaligned : (let x := (after (.vld at0 31 (addr 8)) (progOn (wVld 8) id)).cell 0; (x.running, x.fault.detail)) = (false, 4) := by decide +kernel
/-- R147: rotate left by 8 of a half lane; R146: the two halves of a paired lane do not meet. -/
theorem test_rotate_paired : (laneVop 8 true {} 0 0x80000001_12345678 0x00000008_00000008 0).v = 0x00000180_34567812 := by decide
/-- R147: minimum compares signed. -/
theorem test_min_signed : integerOp 13 64 1 0xFFFFFFFFFFFFFFFF 0 = 0xFFFFFFFFFFFFFFFF := by decide
/-- R181: 1.0 in FP32 from 256 at E = -8. -/
theorem test_fp32_code : fp32.code (256, -8) = (0x3F800000, false) := by decide
/-- R133: BF16 rounds half to even: 257 and 259 lie halfway between 256, 258 and 260. -/
theorem test_bf16_half_even : (bf16.code (257, 0)).1 = 0x4380 ∧ (bf16.code (259, 0)).1 = 0x4382 := by decide
/-- R173: rounding half to even of a sum shifted by 8. -/
theorem test_round_half_even : roundHalfEven 128 8 = 0 ∧ roundHalfEven 384 8 = 2 ∧ roundHalfEven (-128) 8 = 0 := by decide
/-- R134: QINV and RSQ of 3: 3 (2^32 - 1)/3 = 2^32 - 1, and 2^64 = 1 modulo 3. -/
theorem test_modulus_constants : qinvOf 3 = 1431655765 ∧ rsqOf 3 = 1 := by decide
/-- R131: E4M3 0x7E is 448, 0x7F a NaN; E5M2 0x7B is 57,344. -/
theorem test_fp8_values : (e4m3.value 0x7E).map (fun x => (x.1 : Int) * 2 ^ (x.2 + 20).toNat) = some (448 * 2 ^ 20) ∧ e4m3.value 0x7F = none ∧
    (e5m2.value 0x7B).map (fun x => (x.1 : Int) * 2 ^ (x.2 + 20).toNat) = some (57344 * 2 ^ 20) := by decide

end Sys2Proof.Tests
end

section
/-! SUPPORT. Proofs/Keeps.lean: what almost every operation of the model keeps of a state before it: the queue of commands, the life-cycle
state, the OTP anti-rollback counter and the canonical form of device memory. The rules of this file follow the shapes of which the model's
definitions are made. -/

namespace Sys2Proof.Machine

open Sys2Proof

/-- What state `s`, reached from `s₀`, has kept of it. -/
structure Keeps (s₀ s : State) : Prop where
  /-- The commands that wait are the same. -/
  queue : s.pending = s₀.pending
  /-- The life-cycle state is the same. -/
  lifecycle : s.sec.lifecycle = s₀.sec.lifecycle
  /-- The OTP anti-rollback counter is the same. -/
  otpSvn : s.sec.otpSvn = s₀.sec.otpSvn
  /-- Device memory has kept its canonical form. -/
  memory : Memory.wf s₀.ram = true → Memory.wf s.ram = true

/-- An outcome is a next state that has kept what `s₀` had. -/
inductive NextKeeps (s₀ : State) : Host.Outcome State Fault Refusal → Prop
  | next {s : State} (h : Keeps s₀ s) : NextKeeps s₀ (.next s)

/-- The effect of a cell instruction, or the state at which it fails, has kept what `s₀` had. -/
inductive EffectKeeps (s₀ : State) : Except Failed State → Prop
  | ok {s : State} (h : Keeps s₀ s) : EffectKeeps s₀ (.ok s)
  | error {why : Failure} {s : State} {cycles : Nat} (h : Keeps s₀ s) : EffectKeeps s₀ (.error { why := why, at_ := s, cycles := cycles })

/-- A result, where it is a state, has kept what `s₀` had. -/
inductive OkKeeps {ε : Type} (s₀ : State) : Except ε State → Prop
  | ok {s : State} (h : Keeps s₀ s) : OkKeeps s₀ (.ok s)
  | error {e : ε} : OkKeeps s₀ (.error e)

variable {s₀ s t : State}

theorem Keeps.refl (s : State) : Keeps s s := ⟨rfl, rfl, rfl, id⟩

theorem Keeps.trans (h : Keeps s₀ s) (k : Keeps s t) : Keeps s₀ t :=
  ⟨k.queue.trans h.queue, k.lifecycle.trans h.lifecycle, k.otpSvn.trans h.otpSvn, fun m => k.memory (h.memory m)⟩

/-! ### Updates of the record -/

/-- The queue, SEC and device memory are left alone by an update of anything else. -/
theorem Keeps.upd (h : Keeps s₀ s) {waiting slot0 hif spn jig cells progs loads agg ring mem fab pwr dbg perst coldDue warmAt out freeCtr} :
    Keeps s₀ { s with
      waiting := waiting, slot0 := slot0, hif := hif, spn := spn, jig := jig, cells := cells, progs := progs, loads := loads, agg := agg,
      ring := ring, mem := mem, fab := fab, pwr := pwr, dbg := dbg, perst := perst, coldDue := coldDue, warmAt := warmAt, out := out,
      freeCtr := freeCtr } :=
  ⟨h.queue, h.lifecycle, h.otpSvn, h.memory⟩

/-- SEC is written, but not its life-cycle state, nor its anti-rollback counter. -/
theorem Keeps.updSecOf (h : Keeps s₀ s) {x : Sec} {waiting slot0 hif spn jig cells progs loads agg ring mem fab pwr dbg perst coldDue warmAt out
    freeCtr}
    (hl : x.lifecycle = s.sec.lifecycle := by rfl) (ho : x.otpSvn = s.sec.otpSvn := by rfl) :
    Keeps s₀ { s with
      waiting := waiting, slot0 := slot0, hif := hif, spn := spn, jig := jig, cells := cells, progs := progs, loads := loads, agg := agg,
      ring := ring, mem := mem, fab := fab, sec := x, pwr := pwr, dbg := dbg, perst := perst, coldDue := coldDue, warmAt := warmAt, out := out,
      freeCtr := freeCtr } :=
  ⟨h.queue, hl.trans h.lifecycle, ho.trans h.otpSvn, h.memory⟩

/-- Device memory is written in its canonical form. -/
theorem Keeps.updRam (h : Keeps s₀ s) {m : List Host.Cell} (hm : Memory.wf s.ram = true → Memory.wf m = true)
    {waiting slot0 hif spn jig cells progs loads agg ring mem fab pwr dbg perst coldDue warmAt out freeCtr} :
    Keeps s₀ { s with
      waiting := waiting, slot0 := slot0, hif := hif, spn := spn, jig := jig, cells := cells, progs := progs, loads := loads, agg := agg,
      ring := ring, mem := mem, ram := m, fab := fab, pwr := pwr, dbg := dbg, perst := perst, coldDue := coldDue, warmAt := warmAt, out := out,
      freeCtr := freeCtr } :=
  ⟨h.queue, h.lifecycle, h.otpSvn, fun k => hm (h.memory k)⟩

/-! ### Branches and folds -/

theorem Keeps.ite {c : Prop} {_ : Decidable c} (h : Keeps s₀ s) (k : Keeps s₀ t) : Keeps s₀ (if c then s else t) := by
  split
  · exact h
  · exact k

theorem NextKeeps.ite {c : Prop} {_ : Decidable c} {x y : Host.Outcome State Fault Refusal} (hx : NextKeeps s₀ x) (hy : NextKeeps s₀ y) :
    NextKeeps s₀ (if c then x else y) := by
  split
  · exact hx
  · exact hy

theorem EffectKeeps.ite {c : Prop} {_ : Decidable c} {x y : Except Failed State} (hx : EffectKeeps s₀ x) (hy : EffectKeeps s₀ y) :
    EffectKeeps s₀ (if c then x else y) := by
  split
  · exact hx
  · exact hy

theorem OkKeeps.ite {ε : Type} {c : Prop} {_ : Decidable c} {x y : Except ε State} (hx : OkKeeps s₀ x) (hy : OkKeeps s₀ y) :
    OkKeeps s₀ (if c then x else y) := by
  split
  · exact hx
  · exact hy

theorem OkKeeps.state {ε : Type} {x : Except ε State} (hx : OkKeeps s₀ x) (e : x = .ok t) : Keeps s₀ t := by
  cases hx with
  | ok h => cases e; exact h
  | error => cases e

/-- A fold keeps what each of its steps keeps. -/
theorem Keeps.each (h : Keeps s₀ s) {α : Type} {l : List α} {f : State → α → State} (hf : ∀ u a, Keeps s₀ u → Keeps s₀ (f u a)) :
    Keeps s₀ (s.each l f) :=
  State.each_induct s (Keeps s₀) f l (fun u a _ => hf u a) h

/-- The state of a result that comes with something else. -/
theorem Keeps.ofFst {α : Type} {x : State × α} (hk : Keeps s₀ x.1) {a : α} (e : x = (t, a)) : Keeps s₀ t := by
  cases e
  exact hk

/-! ### The shared operations -/

theorem Keeps.setCell (hk : Keeps s₀ s) {c : Nat} {v : Cell} : Keeps s₀ (s.setCell c v) := hk.upd
theorem Keeps.updCell (hk : Keeps s₀ s) {c : Nat} {f : Cell → Cell} : Keeps s₀ (s.updCell c f) := hk.setCell
theorem Keeps.setRound (hk : Keeps s₀ s) {h : Nat} {r : Round} : Keeps s₀ (s.setRound h r) := hk.upd
theorem Keeps.updRound (hk : Keeps s₀ s) {h : Nat} {f : Round → Round} : Keeps s₀ (s.updRound h f) := hk.setRound
theorem Keeps.setBind (hk : Keeps s₀ s) {e : Nat} {b : Bind} : Keeps s₀ (s.setBind e b) := hk.upd
theorem Keeps.setTenant (hk : Keeps s₀ s) {t : Nat} {v : Tenant} : Keeps s₀ (s.setTenant t v) := hk.updSecOf
theorem Keeps.updTenant (hk : Keeps s₀ s) {t : Nat} {f : Tenant → Tenant} : Keeps s₀ (s.updTenant t f) := hk.setTenant
theorem Keeps.setKey (hk : Keeps s₀ s) {i : Nat} {k : Key} : Keeps s₀ (s.setKey i k) := hk.updSecOf
theorem Keeps.setQueue (hk : Keeps s₀ s) {f q : Nat} {v : QPair} : Keeps s₀ (s.setQueue f q v) := hk.upd
theorem Keeps.setShv (hk : Keeps s₀ s) {q : Nat} {v : ShvQueue} : Keeps s₀ (s.setShv q v) := hk.upd
theorem Keeps.setPort (hk : Keeps s₀ s) {p : Nat} {v : Port} : Keeps s₀ (s.setPort p v) := hk.upd
theorem Keeps.setEp (hk : Keeps s₀ s) {e : Nat} {v : Endpoint} : Keeps s₀ (s.setEp e v) := hk.upd
theorem Keeps.setFabTenant (hk : Keeps s₀ s) {t : Nat} {v : FabTenant} : Keeps s₀ (s.setFabTenant t v) := hk.upd
theorem Keeps.setMapRegs (hk : Keeps s₀ s) {t : Nat} {m : MapRegs} : Keeps s₀ (s.setMapRegs t m) := hk.upd
theorem Keeps.setTierKey (hk : Keeps s₀ s) {t i : Nat} {k : TierKey} : Keeps s₀ (s.setTierKey t i k) := hk.upd
theorem Keeps.setWork (hk : Keeps s₀ s) {t d : Nat} {w : List DmaWork} : Keeps s₀ (s.setWork t d w) := hk.upd
theorem Keeps.setParked (hk : Keeps s₀ s) {t d : Nat} {p : Parked} : Keeps s₀ (s.setParked t d p) := hk.upd
theorem Keeps.setEngine (hk : Keeps s₀ s) {d : Nat} {e : DmaEng} : Keeps s₀ (s.setEngine d e) := hk.upd
theorem Keeps.setGrant (hk : Keeps s₀ s) {t c : Nat} {g : Grant} : Keeps s₀ (s.setGrant t c g) := hk.upd
theorem Keeps.emit (hk : Keeps s₀ s) {o : Out} : Keeps s₀ (s.emit o) := hk.upd
theorem Keeps.draw (hk : Keeps s₀ s) : Keeps s₀ s.draw.2 := hk.upd
theorem Keeps.sendSlot0 (hk : Keeps s₀ s) {o : Out} : Keeps s₀ (s.sendSlot0 o) := hk.emit.ite hk.upd
theorem Keeps.sendDevice (hk : Keeps s₀ s) {m : DeviceMsg} : Keeps s₀ (s.sendDevice m) := hk.sendSlot0
theorem Keeps.updJig (hk : Keeps s₀ s) {f : Jig → Jig} : Keeps s₀ (s.updJig f) := hk.upd
theorem Keeps.updJigAlign (hk : Keeps s₀ s) {alignDue : Bool} {lastStatus : Status} : Keeps s₀ (s.updJigAlign alignDue lastStatus) := hk.updJig
theorem Keeps.interrupt (hk : Keeps s₀ s) {f v : Nat} : Keeps s₀ (s.interrupt f v) := hk.upd.ite (hk.upd.ite hk.upd)

theorem Keeps.event (hk : Keeps s₀ s) {q cls status source detail : Nat} : Keeps s₀ (s.event q cls status source detail) :=
  (hk.setShv.interrupt.ite hk.setShv).ite hk

theorem Keeps.discarded (hk : Keeps s₀ s) {fn offset value : Nat} : Keeps s₀ (s.discarded fn offset value) := hk.event
theorem Keeps.tenantEvent (hk : Keeps s₀ s) {t : Nat} : Keeps s₀ (s.tenantEvent t) := hk.event
theorem Keeps.setTenantState (hk : Keeps s₀ s) {t : Nat} {st : TenantState} : Keeps s₀ (s.setTenantState t st) := hk.updTenant.tenantEvent
theorem Keeps.hostEvent (hk : Keeps s₀ s) {what : Nat} : Keeps s₀ (s.hostEvent what) := hk.event
theorem Keeps.post (hk : Keeps s₀ s) {k : Completion} : Keeps s₀ (s.post k) := hk.setQueue.upd.interrupt.ite hk.setQueue.upd

theorem Keeps.complete (hk : Keeps s₀ s) {c : Cmd} {st : Status} {r0 r1 flags : Nat} : Keeps s₀ (s.complete c st r0 r1 flags) :=
  hk.upd.upd.ite (hk.upd.upd.ite hk.upd.post)

theorem Keeps.fail (hk : Keeps s₀ s) {c : Cmd} {st : Status} : Keeps s₀ (s.fail c st) := hk.complete
theorem Keeps.ok (hk : Keeps s₀ s) {c : Cmd} : Keeps s₀ (s.ok c) := hk.complete

theorem Keeps.command (hk : Keeps s₀ s) {op : Nat} {c : Cmd} {body : State → State} (hbody : ∀ u, Keeps s₀ u → Keeps s₀ (body u)) :
    Keeps s₀ (s.command op c body) := by
  unfold State.command
  refine .ite hk ?_
  split
  · exact hk.fail
  · exact hk.fail.ite (hbody _ hk)

theorem Keeps.newKeys {owner lo hi : Nat} {l : List (Nat × Nat)} (hk : Keeps s₀ s) : Keeps s₀ (s.newKeys owner lo hi l).2 := by
  induction l generalizing s with
  | nil => exact hk
  | cons x r ih =>
    unfold State.newKeys
    dsimp only
    split
    · exact hk
    · exact ih hk.draw.setKey

theorem Keeps.storeKeys {owner lo hi : Nat} {l : List ((Nat × Nat) × Nat)} (hk : Keeps s₀ s) :
    Keeps s₀ (s.storeKeys owner lo hi l).2 := by
  induction l generalizing s with
  | nil => exact hk
  | cons x r ih =>
    unfold State.storeKeys
    dsimp only
    split
    · exact hk
    · exact ih hk.setKey

theorem Keeps.countKey (hk : Keeps s₀ s) {i : Nat} : Keeps s₀ (s.countKey i) := hk.setKey
theorem Keeps.zeroKey (hk : Keeps s₀ s) {i : Nat} : Keeps s₀ (s.zeroKey i) := hk.setKey
theorem Keeps.zeroKeys (hk : Keeps s₀ s) {p : Nat → Key → Bool} : Keeps s₀ (s.zeroKeys p) := hk.updSecOf

theorem Keeps.makeMemoryKeys (hk : Keeps s₀ s) {t : Nat} : Keeps s₀ (s.makeMemoryKeys t) := by
  unfold State.makeMemoryKeys
  dsimp only
  exact hk.newKeys.newKeys.setTierKey.setTierKey

theorem Keeps.drbg (hk : Keeps s₀ s) {t : Nat} : Keeps s₀ (s.drbg t).2 := by
  unfold State.drbg
  dsimp only
  split
  · dsimp only; exact hk.draw.updTenant
  · exact hk.draw.updTenant.updSecOf

theorem Keeps.updPage (hk : Keeps s₀ s) {key : Nat} {f : Page → Page} : Keeps s₀ (s.updPage key f) := hk.upd

theorem Keeps.writeSpan (hk : Keeps s₀ s) {t va : Nat} {bs : List Byte} : Keeps s₀ (s.writeSpan t va bs) :=
  hk.emit.ite (hk.ite (hk.updRam (ramWrite_wf _ _ _)))

theorem Keeps.writeVA (hk : Keeps s₀ s) {t va n : Nat} {bs : List Byte} : Keeps s₀ (s.writeVA t va bs n) := by
  induction n generalizing s va bs with
  | zero => exact hk
  | succ n ih =>
    cases bs with
    | nil => exact hk
    | cons b r => exact ih hk.writeSpan

theorem Keeps.lockPages (hk : Keeps s₀ s) {t va n : Nat} {lock : Bool} : Keeps s₀ (s.lockPages t va n lock) := hk.each fun _ _ hk1 => hk1.updPage
theorem Keeps.setUsed (hk : Keeps s₀ s) {t i n : Nat} : Keeps s₀ (s.setUsed t i n) := hk.upd
theorem Keeps.setLimit (hk : Keeps s₀ s) {t i n : Nat} : Keeps s₀ (s.setLimit t i n) := hk.upd

theorem Keeps.takeFrames {t tier units n start : Nat} {l : List Nat} {u : State} (hk : Keeps s₀ s)
    (e : s.takeFrames t tier units n start = some (l, u)) : Keeps s₀ u := by
  induction n generalizing s start l with
  | zero => cases e; exact hk
  | succ n ih =>
    unfold State.takeFrames at e
    split at e
    · cases e
    · dsimp only at e
      split at e
      · cases e
      next e1 => cases e; exact ih hk.upd e1

theorem Keeps.returnFrames (hk : Keeps s₀ s) {t tier f units : Nat} {held : Bool} {round : Option Nat} :
    Keeps s₀ (s.returnFrames t tier f units held round) := hk.upd.ite hk.upd

theorem Keeps.memUe (hk : Keeps s₀ s) {tier phys tenant : Nat} {device : Bool} {retire : Nat} :
    Keeps s₀ (s.memUe tier phys tenant device retire) := hk.upd.event.ite hk.upd.event.event

theorem Keeps.ifWritable (hk : Keeps s₀ s) {f : State → State} (hf : ∀ u, Keeps s₀ u → Keeps s₀ (f u)) : Keeps s₀ (s.ifWritable f) :=
  hk.ite (hf _ hk)

theorem Keeps.windowMiss (hk : Keeps s₀ s) {fn offset : Nat} {write : Bool} : Keeps s₀ (s.windowMiss fn offset write) := hk.setShv.event

/-! ### Rounds and their commands -/

theorem Keeps.reportGate (hk : Keeps s₀ s) {h : Nat} : Keeps s₀ (s.reportGate h) := hk.sendDevice.updRound.ite hk.sendDevice
theorem Keeps.endBindings (hk : Keeps s₀ s) {h : Nat} : Keeps s₀ (s.endBindings h) := hk.each fun _ _ hk1 => hk1.setBind
theorem Keeps.endRoundCmds (hk : Keeps s₀ s) {h : Nat} {st : Status} : Keeps s₀ (s.endRoundCmds h st) := hk.setRound.each fun _ _ hk1 => hk1.fail
theorem Keeps.unmapRound (hk : Keeps s₀ s) {t h : Nat} : Keeps s₀ (s.unmapRound t h) := hk.each fun _ _ hk1 => hk1.upd.returnFrames

theorem Keeps.closeRound (hk : Keeps s₀ s) {h : Nat} {st : RoundState} : Keeps s₀ (s.closeRound h st) := by
  unfold State.closeRound
  dsimp only
  exact hk.endBindings.unmapRound.updRound

theorem Keeps.abortRound (hk : Keeps s₀ s) {h : Nat} {st : Status} {report : Bool} : Keeps s₀ (s.abortRound h st report) :=
  hk.endRoundCmds.closeRound.event.ite hk.endRoundCmds.closeRound

theorem Keeps.cancelOpen (hk : Keeps s₀ s) {h : Nat} {st : Status} : Keeps s₀ (s.cancelOpen h st) :=
  (hk.unmapRound.each fun _ _ hk1 => hk1.zeroKey).setRound.each fun _ _ hk1 => hk1.fail

theorem Keeps.takeOpenVerdict (hk : Keeps s₀ s) {h m : Nat} {st : Status} : Keeps s₀ (s.takeOpenVerdict h m st) := by
  unfold State.takeOpenVerdict
  dsimp only
  split
  · exact hk.setRound.ite hk
  · exact hk

theorem Keeps.openBoundary (hk : Keeps s₀ s) {b : Nat} : Keeps s₀ (s.openBoundary b) := by
  unfold State.openBoundary
  dsimp only
  refine hk.each fun _ _ hk1 => ?_
  split
  · exact hk1
  · refine .ite ?_ ?_
    · refine .ite ?_ ?_
      · exact ((hk1.setRound.takeOpenVerdict.ite hk1.setRound.sendDevice).ite hk1).updRound.sendDevice
      · exact ((hk1.setRound.takeOpenVerdict.ite hk1.setRound.sendDevice).ite hk1).updRound
    · exact (hk1.setRound.takeOpenVerdict.ite hk1.setRound.sendDevice).ite hk1

theorem Keeps.shardFail (hk : Keeps s₀ s) {h : Nat} {st : Status} : Keeps s₀ (s.shardFail h st) := hk.updRound
theorem Keeps.endChange (hk : Keeps s₀ s) {h : Nat} : Keeps s₀ (s.endChange h) := hk.updRound.each fun _ _ hk1 => hk1.complete
theorem Keeps.writeResidents (hk : Keeps s₀ s) {h : Nat} : Keeps s₀ (s.writeResidents h) := hk.each fun _ _ hk1 => hk1.writeVA.setBind

theorem Keeps.writeSigned (hk : Keeps s₀ s) {t va : Nat} {body : List Byte} : Keeps s₀ (s.writeSigned t va body) :=
  hk.countKey.countKey.draw.writeVA

theorem Keeps.discardHomeless (hk : Keeps s₀ s) {h : Nat} : Keeps s₀ (s.discardHomeless h) := hk.updRound

theorem Keeps.endRelease (hk : Keeps s₀ s) {h : Nat} {st : Status} : Keeps s₀ (s.endRelease h st) := by
  unfold State.endRelease
  dsimp only
  refine .ite ?_ ?_
  · exact (hk.setRound.ite (hk.setRound.each fun _ _ hk1 => hk1.complete)).sendDevice
  · exact hk.setRound.ite (hk.setRound.each fun _ _ hk1 => hk1.complete)

theorem Keeps.checkRelease (hk : Keeps s₀ s) {h : Nat} : Keeps s₀ (s.checkRelease h) := by
  unfold State.checkRelease
  dsimp only
  refine .ite hk ?_
  refine .ite ?_ ?_
  · refine .ite hk ?_
    split
    · exact hk.endRelease
    · exact hk.setRound.sendDevice.ite hk.setRound
  · exact hk.endRelease.ite hk

theorem Keeps.noteAgree (hk : Keeps s₀ s) {h m : Nat} {st : Status} : Keeps s₀ (s.noteAgree h m st) := hk.updRound.checkRelease
theorem Keeps.noteWrite (hk : Keeps s₀ s) {h m : Nat} {st : Status} : Keeps s₀ (s.noteWrite h m st) := hk.updRound.checkRelease

theorem Keeps.reportAgree (hk : Keeps s₀ s) {h : Nat} {st : Status} : Keeps s₀ (s.reportAgree h st) :=
  hk.updRound.noteAgree.ite hk.updRound.sendDevice

theorem Keeps.reportWrite (hk : Keeps s₀ s) {h : Nat} {st : Status} : Keeps s₀ (s.reportWrite h st) :=
  hk.updRound.noteWrite.ite hk.updRound.sendDevice

theorem Keeps.acceptCommit (hk : Keeps s₀ s) {h : Nat} {c : Option Cmd} : Keeps s₀ (s.acceptCommit h c) :=
  hk.writeSigned.updRound.sendDevice.ite hk.writeSigned.updRound

theorem Keeps.applyChange (hk : Keeps s₀ s) {h : Nat} : Keeps s₀ (s.applyChange h) := by
  unfold State.applyChange
  dsimp only
  split
  · exact hk
  · exact hk.abortRound.endChange
  · exact (hk.each fun _ _ hk1 => hk1.closeRound).closeRound.endChange
  · refine .ite ?_ ?_
    · refine .ite ?_ ?_
      · exact (hk.updRound.endChange.writeResidents.each fun _ _ hk1 => hk1.ok).acceptCommit.event
      · exact hk.updRound.endChange.writeResidents.each fun _ _ hk1 => hk1.ok
    · exact hk.updRound.endChange

/-! ### Cells -/

theorem Keeps.finishBatch (hk : Keeps s₀ s) {e : Nat} : Keeps s₀ (s.finishBatch e) := hk.setBind

theorem Keeps.endRun (hk : Keeps s₀ s) {g : Nat} : Keeps s₀ (s.endRun g) := by
  unfold State.endRun
  dsimp only
  split
  · exact hk
  · refine .ite hk ?_
    split <;> exact hk.upd.complete

theorem Keeps.haltCell (hk : Keeps s₀ s) {c : Nat} {st : Status} : Keeps s₀ (s.haltCell c st) :=
  hk.updCell.each fun _ _ hk1 => hk1.finishBatch.ite hk1.finishBatch.shardFail

theorem Keeps.failCell (hk : Keeps s₀ s) {c idx : Nat} {st : Status} {unit detail : Nat} : Keeps s₀ (s.failCell c idx st unit detail) :=
  (hk.updCell.haltCell.each fun _ _ hk1 => hk1.updCell.haltCell).endRun

theorem Keeps.haltGroup (hk : Keeps s₀ s) {g : Nat} {st : Status} : Keeps s₀ (s.haltGroup g st) :=
  (hk.each fun _ _ hk1 => hk1.updCell.haltCell).endRun

theorem Keeps.goTo (hk : Keeps s₀ s) {c p : Nat} : Keeps s₀ (s.goTo c p) := by
  unfold State.goTo
  dsimp only
  exact hk.updCell.ite hk.updCell.failCell

theorem Keeps.waitBegins (hk : Keeps s₀ s) {c t : Nat} : Keeps s₀ (s.waitBegins c t) := hk.each fun _ _ hk1 => hk1.finishBatch
theorem Keeps.takeToken (hk : Keeps s₀ s) {c t n : Nat} : Keeps s₀ (s.takeToken c t n) := (hk.each fun _ _ hk1 => hk1.setBind).updCell.goTo

theorem Keeps.signalToken (hk : Keeps s₀ s) {c t n : Nat} : Keeps s₀ (s.signalToken c t n) := by
  unfold State.signalToken
  dsimp only
  refine .ite ?_ ?_
  · split
    · exact hk.updCell.takeToken.ite hk.updCell
    · exact hk.updCell
  · exact hk.updCell.failCell.ite hk.updCell

theorem Keeps.releaseGsync (hk : Keeps s₀ s) {g : Nat} : Keeps s₀ (s.releaseGsync g) := hk.each fun _ _ hk1 => hk1.updCell.goTo.ite hk1

theorem Keeps.postFeed (hk : Keeps s₀ s) {c e : Nat} {d : Desc} {token : Option Nat} : Keeps s₀ (s.postFeed c e d token) := by
  unfold State.postFeed
  dsimp only
  refine .setWork (.updCell ?_)
  split
  · exact hk.setBind
  · exact hk

theorem Keeps.releaseFeed (hk : Keeps s₀ s) {c : Nat} : Keeps s₀ (s.releaseFeed c) := by
  unfold State.releaseFeed
  dsimp only
  split
  · exact hk.postFeed.updCell.goTo.ite hk
  · exact hk

theorem Keeps.tryHalt (hk : Keeps s₀ s) {c : Nat} : Keeps s₀ (s.tryHalt c) := hk.haltCell.endRun.ite hk
theorem Keeps.startClear (hk : Keeps s₀ s) {c : Nat} : Keeps s₀ (s.startClear c) := hk.updCell

/-! ### Operand ports -/

theorem Keeps.beginRun (hk : Keeps s₀ s) {r : ProgRun} : Keeps s₀ (s.beginRun r) := hk.upd.each fun _ _ hk1 => hk1.updCell

theorem Keeps.beginDue (hk : Keeps s₀ s) {g : Nat} : Keeps s₀ (s.beginDue g) := by
  unfold State.beginDue
  split
  · exact hk.beginRun.ite hk
  · exact hk

theorem Keeps.beginPrograms (hk : Keeps s₀ s) : Keeps s₀ (s.beginPrograms) := hk.each fun _ _ hk1 => hk1.beginDue

theorem Keeps.issue (hk : Keeps s₀ s) {a : CellAt} {w : InstrWord} {unit cost lat : Nat} {body : State → Except Failed State}
    (hbody : ∀ u, Keeps s₀ u → EffectKeeps s₀ (body u)) : Keeps s₀ (s.issue a w unit cost lat body) := by
  unfold State.issue
  dsimp only
  refine .ite ?_ hk
  have hb := hbody _ (hk.beginDue (g := s.cellGroup a.cell.val)
    |>.updCell (c := a.cell.val) (f := fun x => x.addWork unit cost lat))
  split
  next e => rw [e] at hb; cases hb with | ok h => exact h
  next e => rw [e] at hb; cases hb with | error h => exact h.updCell.failCell

theorem Keeps.completeInstr (hk : Keeps s₀ s) {a : CellAt} : Keeps s₀ (s.completeInstr a) := by
  unfold State.completeInstr
  dsimp only
  refine .ite ?_ ?_
  · refine .goTo ?_
    split
    · exact hk.signalToken
    · exact hk
  · split
    · exact hk.signalToken
    · exact hk

theorem Keeps.passInstr (hk : Keeps s₀ s) {a : CellAt} : Keeps s₀ (s.passInstr a) := hk.goTo.ite hk

theorem Keeps.settle (hk : Keeps s₀ s) {before : State} {c : Nat} {o : UnitOp} {m : Met} : Keeps s₀ (s.settle before c o m) :=
  hk.updCell.ite hk.updCell.updCell

/-- The effect of an instruction that goes on after it has kept what the effect has. -/
theorem EffectKeeps.map {x : Except Failed State} (hx : EffectKeeps s₀ x) {f : State → State} (hf : ∀ u, Keeps s₀ u → Keeps s₀ (f u)) :
    EffectKeeps s₀ (x.map f) := by
  cases hx with
  | ok h => exact .ok (hf _ h)
  | error h => exact .error h

theorem Keeps.unitInstr (hk : Keeps s₀ s) {a : CellAt} {w : InstrWord} {op : UnitOp} {checks : State → List (Bool × Failure)}
    {effect : Nat → State → Except Failed State} (heffect : ∀ n u, Keeps s₀ u → EffectKeeps s₀ (effect n u)) :
    Keeps s₀ (s.unitInstr a w op checks effect) := by
  unfold State.unitInstr
  refine hk.issue fun u hu => ?_
  split
  · exact .error hu
  · split
    next n _ _ =>
      have hcut : EffectKeeps s₀ (if n = 0 then .ok u else effect n u) := .ite (.ok hu) (heffect n u hu)
      split
      next e => rw [e] at hcut; cases hcut with | error h => exact .error h
      next e => rw [e] at hcut; cases hcut with | ok h => exact .error h.settle.updCell
    · exact (heffect _ u hu).map fun _ h => h.settle.passInstr.ite h.settle.completeInstr

theorem Keeps.ctlInstr (hk : Keeps s₀ s) {a : CellAt} {w : InstrWord} {cost : Nat} {f : State → State} (hf : ∀ u, Keeps s₀ u → Keeps s₀ (f u)) :
    Keeps s₀ (s.ctlInstr a w cost f) := hk.issue fun _ hk2 => .ok ((hf _ hk2).goTo.ite (hf _ hk2))

/-! ### Accumulators -/

theorem Keeps.openGroup (hk : Keeps s₀ s) {c : Nat} {d : GroupDesc} : EffectKeeps s₀ (s.openGroup c d) := by
  unfold State.openGroup
  dsimp only
  split
  · exact .error hk
  · exact .ok ((hk.ite hk.lockPages).updCell)

theorem Keeps.execGopen (hk : Keeps s₀ s) {a : CellAt} {desc : AddrOp} : NextKeeps s₀ (execGopen a desc s) :=
  .next (hk.unitInstr fun _ _ hk1 => hk1.openGroup)

theorem Keeps.unlockIfShut (hk : Keeps s₀ s) {c : Nat} {before : AccGroup} {g : Nat} : Keeps s₀ (s.unlockIfShut c before g) :=
  hk.lockPages.ite hk

theorem Keeps.execMma (hk : Keeps s₀ s) {at_ : CellAt} {group tile : Fin 32} {slot mode : Fin 16} {aCt : Bool} {a b : AddrOp} {k : Nat} :
    NextKeeps s₀ (execMma at_ group tile slot mode aCt a b k s) := by
  unfold Machine.execMma
  dsimp only
  refine .next (hk.unitInstr fun _ _ hk1 => .ite ?_ ?_)
  · split
    · exact .error hk1.updCell
    · exact .ok hk1.updCell.unlockIfShut
  · exact .ok hk1.updCell

theorem Keeps.execEwadd (hk : Keeps s₀ s) {a : CellAt} {group tile : Fin 32} {firstSlot : Fin 16} {passes : Nat} {sub : Bool} {src : AddrOp} :
    NextKeeps s₀ (execEwadd a group tile firstSlot passes sub src s) := .next (hk.unitInstr fun _ _ hk1 => .ok hk1.updCell)

theorem Keeps.execMask (hk : Keeps s₀ s) {a : CellAt} {group tile : Fin 32} {firstSlot : Fin 16} {passes : Nat} {sub : Bool} {stream : Fin 4} :
    NextKeeps s₀ (execMask a group tile firstSlot passes sub stream s) := .ite (.next (hk.unitInstr fun _ _ hk1 => .ok hk1.updCell)) (.next hk)

theorem Keeps.execAccld (hk : Keeps s₀ s) {a : CellAt} {group tile : Fin 32} {firstSlot : Fin 16} {slots : Nat} {src : AddrOp} :
    NextKeeps s₀ (execAccld a group tile firstSlot slots src s) := .next (hk.unitInstr fun _ _ hk1 => .ok hk1.updCell.unlockIfShut)

theorem Keeps.execAccst (hk : Keeps s₀ s) {a : CellAt} {group tile : Fin 32} {firstSlot : Fin 16} {slots : Nat} {dst : AddrOp} :
    NextKeeps s₀ (execAccst a group tile firstSlot slots dst s) := .next (hk.unitInstr fun _ _ hk1 => .ok hk1.updCell)

theorem Keeps.execGclose (hk : Keeps s₀ s) {a : CellAt} {group : Fin 32} {out : Fin 4} {fused : Fin 8} {stream : Fin 4}
    {dst record operand : AddrOp} {scalar : Word32} :
    NextKeeps s₀ (execGclose a group out fused stream dst record operand scalar s) := by
  unfold Machine.execGclose
  dsimp only
  refine .ite ?_ ?_
  · refine .next (hk.unitInstr fun _ _ hk1 => .ite (.ok hk1.updCell) ?_)
    split
    · exact .error hk1
    · exact .ok hk1.updCell.unlockIfShut
  · exact .next hk

/-! ### DMA -/

theorem Keeps.beatDest (hk : Keeps s₀ s) {t d off : Nat} {w : DmaWork} {x : Desc} {bs : List Byte} {hostErr : Option Nat} :
    OkKeeps s₀ (s.beatDest t d w x off bs hostErr) := by
  unfold State.beatDest
  dsimp only
  refine .ite ?_ ?_
  · split
    · exact .error
    · exact .ite .error (.ok hk.updCell)
  · split
    · exact .error
    · exact .ite .error (.ite .error (.ite (.ok hk.writeSpan) (.ok hk.writeSpan)))

theorem Keeps.setDmaBudget (hk : Keeps s₀ s) {t : Nat} {b : Budget} : Keeps s₀ (s.setDmaBudget t b) := hk.upd

theorem Keeps.dmaBeats {t d : Nat} {w : DmaWork} {x : Desc} {host : List Byte} {hostErr : Option Nat} {m : Met} {fuel off cycles : Nat}
    {fresh : Bool} (hk : Keeps s₀ s) : Keeps s₀ (State.dmaBeats t d w x host hostErr m fuel s off fresh cycles).1 := by
  induction fuel generalizing s off cycles fresh with
  | zero => exact hk
  | succ n ih =>
    unfold State.dmaBeats
    split
    · exact hk
    · extract_lets charge cost b s1
      have h1 : Keeps s₀ s1 := hk.setDmaBudget
      split
      · exact hk
      · split
        · exact hk.setDmaBudget
        · split
          · exact h1
          · split
            · exact h1
            next e => exact ih (h1.beatDest.state e)

theorem Keeps.chargeDma (hk : Keeps s₀ s) {t n : Nat} : Keeps s₀ (s.chargeDma t n) := hk.setDmaBudget

theorem Keeps.endFeed (hk : Keeps s₀ s) {w : DmaWork} {d c idx : Nat} {token : Option Nat} {st : Status} :
    Keeps s₀ (s.endFeed w d c idx token st) := by
  unfold State.endFeed
  dsimp only
  refine .tryHalt (.releaseFeed (.ite ?_ ?_))
  · split
    · exact hk.updCell.signalToken
    · exact hk.updCell
  · exact hk.updCell.failCell.ite hk.updCell

theorem Keeps.endDesc (hk : Keeps s₀ s) {t d : Nat} {w : DmaWork} {rest : List DmaWork} {off : Nat} {st : Status} :
    Keeps s₀ (s.endDesc t d w rest off st) := by
  unfold State.endDesc
  dsimp only
  refine .ite hk.setEngine.setParked.setWork ?_
  split
  · exact hk.setEngine.setParked.setWork.complete
  · exact hk.setEngine.setParked.setWork.endFeed
  · exact hk.setEngine.setParked.setWork

theorem Keeps.settleFeed (hk : Keeps s₀ s) {before : State} {cells : Option Nat × Option Nat} {m : Met} :
    Keeps s₀ (s.settleFeed before cells m) := by
  unfold State.settleFeed
  dsimp only
  split
  · refine .ite ?_ ?_
    · split
      · exact hk.updCell
      · exact hk
    · refine .updCell ?_
      split
      · exact hk.updCell
      · exact hk
  · split
    · exact hk.updCell
    · exact hk

theorem Keeps.dmaStep (hk : Keeps s₀ s) {t d op : Nat} {host : List Byte} {hostErr : Option Nat} {m : Met} :
    Keeps s₀ (s.dmaStep t d op host hostErr m) := by
  unfold State.dmaStep
  split
  · exact hk
  next w rest _ =>
    extract_lets x pk vary w' s1 src s2 cells bad before run
    have h2 : Keeps s₀ s2 := hk.setParked.setEngine
    have hrun (y : Desc) : Keeps s₀ (run y).1 := h2.dmaBeats
    clear_value run bad s2
    refine .ite hk ?_
    split
    · exact hk.endDesc
    · split
      next u off stop e =>
        have hu : Keeps s₀ u := by
          refine Keeps.ofFst ?_ e
          split
          · dsimp only
            split
            · dsimp only; exact (hrun _).updCell
            · exact hrun _
          · exact hrun _
        have hs := hu.settleFeed (before := s2) (cells := cells) (m := m)
        split
        · exact hs.endDesc
        · exact hs.endDesc
        · exact hs.setEngine.setWork
        · exact hs.setEngine.setWork
        · exact hs.setParked.setEngine.setWork.event

theorem Keeps.execDmaCopy (hk : Keeps s₀ s) {t : TenantId} {d : EngineId} {host : List Byte} {hostErr : Option Nat} {met : Met} :
    NextKeeps s₀ (execDmaCopy t d host hostErr s met) := .next hk.dmaStep

theorem Keeps.execDmaAccAdd (hk : Keeps s₀ s) {t : TenantId} {d : EngineId} {host : List Byte} {hostErr : Option Nat} {met : Met} :
    NextKeeps s₀ (execDmaAccAdd t d host hostErr s met) := .next hk.dmaStep

theorem Keeps.execDmaZero (hk : Keeps s₀ s) {t : TenantId} {d : EngineId} {hostErr : Option Nat} {met : Met} :
    NextKeeps s₀ (execDmaZero t d hostErr s met) := .next hk.dmaStep

theorem Keeps.execDmaSubmit (hk : Keeps s₀ s) {c : Cmd} : NextKeeps s₀ (execDmaSubmit c s) := by
  unfold Machine.execDmaSubmit
  dsimp only
  refine .next (hk.command fun _ hk1 => ?_)
  split
  · exact hk1.fail
  · exact hk1.fail
  · exact hk1.setWork

theorem Keeps.execResume (hk : Keeps s₀ s) {fn : FnId} {t : TenantId} {d : EngineId} : NextKeeps s₀ (execResume fn t d s) :=
  .next (hk.ifWritable fun _ hk1 => hk1.windowMiss.ite (hk1.setParked.ite hk1))

theorem Keeps.abandonParked (hk : Keeps s₀ s) {t d : Nat} : Keeps s₀ (s.abandonParked t d) := by
  unfold State.abandonParked
  split
  · exact hk
  · exact hk.endDesc.ite hk

theorem Keeps.execAbandon (hk : Keeps s₀ s) {fn : FnId} {t : TenantId} {d : EngineId} : NextKeeps s₀ (execAbandon fn t d s) :=
  .next (hk.ifWritable fun _ hk1 => hk1.windowMiss.ite hk1.abandonParked)

theorem Keeps.execFaultLimitExpire (hk : Keeps s₀ s) {t : TenantId} {d : EngineId} : NextKeeps s₀ (execFaultLimitExpire t d s) :=
  .ite (.next hk.abandonParked) (.next hk)

/-! ### Encrypted arithmetic -/

theorem Keeps.updPort (hk : Keeps s₀ s) {p : Nat} {f : Port → Port} : Keeps s₀ (s.updPort p f) := hk.setPort
theorem Keeps.updEp (hk : Keeps s₀ s) {e : Nat} {f : Endpoint → Endpoint} : Keeps s₀ (s.updEp e f) := hk.setEp
theorem Keeps.updFab (hk : Keeps s₀ s) {f : Fab → Fab} : Keeps s₀ (s.updFab f) := hk.upd
theorem Keeps.countTx (hk : Keeps s₀ s) {p n : Nat} : Keeps s₀ (s.countTx p n) := hk.updPort
theorem Keeps.rxFrame (hk : Keeps s₀ s) {p n : Nat} : Keeps s₀ (s.rxFrame p n) := hk.updPort
theorem Keeps.chargeLink (hk : Keeps s₀ s) {t p n : Nat} : Keeps s₀ (s.chargeLink t p n) := hk.upd
theorem Keeps.waitLink (hk : Keeps s₀ s) {t p : Nat} : Keeps s₀ (s.waitLink t p) := hk.upd
theorem Keeps.setFlow (hk : Keeps s₀ s) {f : Flow} : Keeps s₀ (s.setFlow f) := hk.updFab.ite hk.updFab
theorem Keeps.updPkt (hk : Keeps s₀ s) {e msgId idx : Nat} {f : SendPkt → SendPkt} : Keeps s₀ (s.updPkt e msgId idx f) := hk.updEp

theorem Keeps.numberFrame (hk : Keeps s₀ s) {p kind owner route dst len : Nat} : Keeps s₀ (s.numberFrame p kind owner route dst len) :=
  hk.setPort.emit.ite hk

theorem Keeps.launch (hk : Keeps s₀ s) {f : PortFrame} : Keeps s₀ (s.launch f) := (hk.chargeLink.ite hk).countTx.numberFrame.emit
theorem Keeps.sendFrame (hk : Keeps s₀ s) {f : PortFrame} : Keeps s₀ (s.sendFrame f) := hk.ite (hk.upd.ite (hk.launch.ite hk.waitLink.upd))
theorem Keeps.drainFrames (hk : Keeps s₀ s) : Keeps s₀ (s.drainFrames) := hk.upd.each fun _ _ hk1 => hk1.sendFrame

theorem Keeps.sendTo (hk : Keeps s₀ s) {owner member n : Nat} {o : Nat → Out} : Keeps s₀ (s.sendTo owner member n o) := by
  unfold State.sendTo
  split
  · exact hk.sendFrame
  · exact hk

theorem Keeps.sendData (hk : Keeps s₀ s) {owner member : Nat} {bs : List Byte} {o : Nat → List Byte → Bool → Out} :
    Keeps s₀ (s.sendData owner member bs o) := hk.each fun _ _ hk1 => hk1.sendTo

theorem Keeps.reroute (hk : Keeps s₀ s) : Keeps s₀ (s.reroute) := hk.upd

theorem Keeps.sendPkt (hk : Keeps s₀ s) {e : Nat} {m : SendMsg} {k : SendPkt} : Keeps s₀ (s.sendPkt e m k) := by
  unfold State.sendPkt
  dsimp only
  split
  · exact hk
  · refine .ite hk ?_
    refine .ite hk.waitLink ?_
    refine .ite ?_ ?_
    · exact (hk.setFlow.updPkt.updEp.ite hk.setFlow.updPkt).chargeLink.countTx.numberFrame.emit
    · exact hk.setFlow.updPkt.updEp.ite hk.setFlow.updPkt

theorem Keeps.pump (hk : Keeps s₀ s) {e : Nat} : Keeps s₀ (s.pump e) := hk.each fun _ _ hk1 => hk1.sendPkt.ite hk1

theorem Keeps.pumpOne (hk : Keeps s₀ s) {e : Nat} : Keeps s₀ (s.pumpOne e) := by
  unfold State.pumpOne
  dsimp only
  refine hk.each fun _ _ hk1 => ?_
  split
  · exact hk1
  · split
    · exact hk1.sendPkt.ite hk1
    · exact hk1

theorem Keeps.pumpAll (hk : Keeps s₀ s) : Keeps s₀ (s.pumpAll) := hk.each fun _ _ hk1 => hk1.each fun _ _ hk2 => hk2.pumpOne

theorem Keeps.epPost (hk : Keeps s₀ s) {e : Nat} {st : Status} {flags tag kind srcEp length regionKey msgId srcMember : Nat} :
    Keeps s₀ (s.epPost e st flags tag kind srcEp length regionKey msgId srcMember) := hk.writeVA.updEp.emit

theorem Keeps.tryPark (hk : Keeps s₀ s) {e : Nat} : Keeps s₀ (s.tryPark e) := by
  unfold State.tryPark
  dsimp only
  split
  · exact hk.setEp.ok.ite hk
  · exact hk

theorem Keeps.reqDone (hk : Keeps s₀ s) {e : Nat} {w : WorkReq} {st : Status} {flags msgId : Nat} : Keeps s₀ (s.reqDone e w st flags msgId) :=
  hk.epPost

theorem Keeps.endMsg (hk : Keeps s₀ s) {e : Nat} {m : SendMsg} {st : Status} : Keeps s₀ (s.endMsg e m st) := by
  unfold State.endMsg
  dsimp only
  exact hk.updEp.reqDone.tryPark

/-! ### Firmware -/

theorem Keeps.updFw (hk : Keeps s₀ s) {f : Fw → Fw} : Keeps s₀ (s.updFw f) := hk.upd
theorem Keeps.updHost (hk : Keeps s₀ s) {f : HostSup → HostSup} : Keeps s₀ (s.updHost f) := hk.upd
theorem Keeps.fwEvent (hk : Keeps s₀ s) : Keeps s₀ (s.fwEvent) := hk.event

theorem Keeps.execFwLoad (hk : Keeps s₀ s) {c : Cmd} {hostError : Bool} {sig : SigPair} : NextKeeps s₀ (execFwLoad c hostError sig s) := by
  unfold Machine.execFwLoad
  dsimp only
  refine .next (hk.command fun _ hk1 => .ite hk1.updFw.fail ?_)
  refine .ite hk1.updFw.fail ?_
  split
  · exact hk1.updFw.updFw.fail
  · exact hk1.updFw.updFw

theorem Keeps.execFwBootTimeout (hk : Keeps s₀ s) : NextKeeps s₀ (execFwBootTimeout s) := by
  unfold Machine.execFwBootTimeout
  dsimp only
  split
  · exact .next hk
  · exact .ite (.next (hk.updFw.fwEvent.each fun _ _ hk1 => hk1.fail)) (.next hk)

theorem Keeps.execFirmwareStop (hk : Keeps s₀ s) {fault : Bool} : NextKeeps s₀ (execFirmwareStop fault s) :=
  .ite (.next (hk.updFw.upd.fwEvent.each fun _ _ hk1 => hk1.fail)) (.next hk)

theorem Keeps.execAttach (hk : Keeps s₀ s) {c : Cmd} : NextKeeps s₀ (execAttach c s) := by
  unfold Machine.execAttach
  dsimp only
  refine .next (hk.command fun _ hk1 => ?_)
  split
  · exact hk1.fail
  · split
    · exact hk1.fail
    · exact hk1.fail.ite hk1.writeVA.updHost.hostEvent.ok

theorem Keeps.endHostLost (hk : Keeps s₀ s) : Keeps s₀ (s.endHostLost) :=
  (hk.updHost.upd.each fun _ _ hk1 => hk1.post).each fun _ _ hk1 => hk1.interrupt

theorem Keeps.execHostLostEntry (hk : Keeps s₀ s) : NextKeeps s₀ (execHostLostEntry s) := by
  unfold Machine.execHostLostEntry
  dsimp only
  split
  · exact .next hk
  · exact .ite (.next hk.updHost.hostEvent) (.next hk)

theorem Keeps.execShavingsConfig (hk : Keeps s₀ s) {c : Cmd} : NextKeeps s₀ (execShavingsConfig c s) := by
  unfold Machine.execShavingsConfig
  dsimp only
  refine .next (hk.command fun _ hk1 => ?_)
  split
  · exact hk1.fail
  · exact hk1.setShv.ok

theorem Keeps.execDbgShvPop (hk : Keeps s₀ s) {fn : FnId} {q : Fin 9} {pop : Bool} : NextKeeps s₀ (execDbgShvPop fn q pop s) :=
  .next (hk.ifWritable fun _ hk1 => hk1.windowMiss.ite (hk1.setShv.ite hk1))

/-! ### Power and sensors -/

theorem Keeps.updPwr (hk : Keeps s₀ s) {f : Pwr → Pwr} : Keeps s₀ (s.updPwr f) := hk.upd
theorem Keeps.powerEvent (hk : Keeps s₀ s) {cause word : Nat} : Keeps s₀ (s.powerEvent cause word) := hk.event

theorem Keeps.execPowerLoop (hk : Keeps s₀ s) {deciWatts : Nat} {issued : List (Nat × Nat)} : NextKeeps s₀ (execPowerLoop deciWatts issued s) := by
  unfold Machine.execPowerLoop
  dsimp only
  refine .ite ?_ ?_
  · exact .next ((hk.updPwr.powerEvent.ite hk.updPwr).each fun _ _ hk1 => hk1.ok)
  · exact .next hk

theorem Keeps.execVddCoreCheck (hk : Keeps s₀ s) {millivolts : Nat} : NextKeeps s₀ (execVddCoreCheck millivolts s) := by
  unfold Machine.execVddCoreCheck
  dsimp only
  refine .ite ?_ ?_
  · split
    · exact .ite (.next hk.updPwr.updPwr.powerEvent) (.next hk.updPwr.updPwr)
    · exact .next hk.updPwr
  · exact .next hk

theorem Keeps.thermalEvent (hk : Keeps s₀ s) {t : ℤ} : Keeps s₀ (s.thermalEvent t) := hk.event

theorem Keeps.execThermalLoop (hk : Keeps s₀ s) {temps : List ℤ} : NextKeeps s₀ (execThermalLoop temps s) :=
  .ite (.next (hk.updPwr.thermalEvent.ite hk.updPwr)) (.next hk)

theorem Keeps.execHotTrip (hk : Keeps s₀ s) {sensor : Fin 16} {temp : ℤ} : NextKeeps s₀ (execHotTrip sensor temp s) :=
  .ite (.next hk.updPwr.thermalEvent) (.next hk)

theorem Keeps.execHotRelease (hk : Keeps s₀ s) {temps : List ℤ} : NextKeeps s₀ (execHotRelease temps s) :=
  .ite (.next hk.updPwr.updPwr) (.next hk)

theorem Keeps.trip (hk : Keeps s₀ s) : Keeps s₀ (s.trip) := hk.upd
theorem Keeps.execFastCurrentTrip (hk : Keeps s₀ s) : NextKeeps s₀ (execFastCurrentTrip s) := .ite (.next hk.updPwr.trip.powerEvent) (.next hk)

theorem Keeps.execVrAlert (hk : Keeps s₀ s) {statusWord : Nat} {rails : List (Fin 8)} : NextKeeps s₀ (execVrAlert statusWord rails s) :=
  .ite (.next hk.updPwr.trip.powerEvent) (.next hk)

theorem Keeps.execPowerLimitSet (hk : Keeps s₀ s) {c : Cmd} : NextKeeps s₀ (execPowerLimitSet c s) := by
  unfold Machine.execPowerLimitSet
  refine .next (hk.command fun _ hk1 => ?_)
  split
  · exact hk1.fail
  · exact hk1.updPwr

theorem Keeps.execMfrPowerCap (hk : Keeps s₀ s) {watts : Nat} : NextKeeps s₀ (execMfrPowerCap watts s) := .next hk.updPwr
theorem Keeps.execMfrPowerCapRead (hk : Keeps s₀ s) : NextKeeps s₀ (execMfrPowerCapRead s) := .next hk.emit
theorem Keeps.execReadTemperature1 (hk : Keeps s₀ s) : NextKeeps s₀ (execReadTemperature1 s) := .next hk.emit
theorem Keeps.execReadPin (hk : Keeps s₀ s) : NextKeeps s₀ (execReadPin s) := .next hk.emit

/-! ### Rings -/

theorem Keeps.updRing (hk : Keeps s₀ s) {f : Ring → Ring} : Keeps s₀ (s.updRing f) := hk.upd
theorem Keeps.setParams (hk : Keeps s₀ s) {p : Nat} {v : ParamSet} : Keeps s₀ (s.setParams p v) := hk.updRing
theorem Keeps.setDesc (hk : Keeps s₀ s) {d : Nat} {v : RingDesc} : Keeps s₀ (s.setDesc d v) := hk.updRing
theorem Keeps.setEvk (hk : Keeps s₀ s) {k : Nat} {v : Evk} : Keeps s₀ (s.setEvk k v) := hk.updRing
theorem Keeps.setPlan (hk : Keeps s₀ s) {p : Nat} {v : Plan} : Keeps s₀ (s.setPlan p v) := hk.updRing
theorem Keeps.setMacros (hk : Keeps s₀ s) {t : Nat} {l : List RingMacro} : Keeps s₀ (s.setMacros t l) := hk.updRing

theorem Keeps.lockDesc (hk : Keeps s₀ s) {t : Nat} {d : RingDesc} {lock : Bool} : Keeps s₀ (s.lockDesc t d lock) :=
  hk.each fun _ _ hk1 => hk1.lockPages

theorem Keeps.lockEntry (hk : Keeps s₀ s) {t : Nat} {e : RingEntry} {lock : Bool} : Keeps s₀ (s.lockEntry t e lock) :=
  hk.each fun _ _ hk1 => hk1.lockDesc

theorem Keeps.endWait (hk : Keeps s₀ s) {t : Nat} : Keeps s₀ (s.endWait t) := by
  unfold State.endWait
  dsimp only
  split
  · split
    · exact hk.lockEntry.setMacros.ite hk
    · exact hk
  · refine .lockDesc (.lockDesc (.updRing ?_))
    split
    · exact hk.lockEntry.setMacros.ite hk
    · exact hk

theorem Keeps.noteEntry (hk : Keeps s₀ s) {t idx op chunks : Nat} {st : Status} : Keeps s₀ (s.noteEntry t idx op chunks st) := hk.updRing
theorem Keeps.endMacro (hk : Keeps s₀ s) {t : Nat} {m : RingMacro} {st : Status} : Keeps s₀ (s.endMacro t m st) := hk.updRing.complete

theorem Keeps.advanceMacros {t : Nat} {l : List RingMacro} (hk : Keeps s₀ s) : Keeps s₀ (s.advanceMacros t l) := by
  induction l generalizing s with
  | nil => exact hk.setMacros
  | cons m r ih => exact hk.setMacros.ite (ih hk.noteEntry.endMacro)

theorem Keeps.endEntry (hk : Keeps s₀ s) {t : Nat} {st : Status} {flags chunks : Nat} : Keeps s₀ (s.endEntry t st flags chunks) := by
  unfold State.endEntry
  dsimp only
  split
  · exact hk
  · exact hk.noteEntry.advanceMacros.ite hk.noteEntry.endMacro.advanceMacros

/-! ### Keys and security -/

theorem Keeps.updSec (hk : Keeps s₀ s) {f : Sec → Sec} (hl : (f s.sec).lifecycle = s.sec.lifecycle := by rfl)
    (ho : (f s.sec).otpSvn = s.sec.otpSvn := by rfl) : Keeps s₀ (s.updSec f) :=
  hk.updSecOf hl ho

theorem Keeps.execKeyGenerate (hk : Keeps s₀ s) {c : Cmd} : NextKeeps s₀ (execKeyGenerate c s) := by
  unfold Machine.execKeyGenerate
  dsimp only
  refine .next (hk.command fun _ hk1 => ?_)
  split
  · exact hk1.fail
  · exact hk1.fail
  · exact hk1.fail.ite hk1.drbg.setKey.complete

theorem Keeps.execKeyImport (hk : Keeps s₀ s) {c : Cmd} : NextKeeps s₀ (execKeyImport c s) := by
  unfold Machine.execKeyImport
  dsimp only
  refine .next (hk.command fun _ hk1 => ?_)
  split
  · exact hk1.fail
  · exact hk1.fail
  · split
    · exact hk1.fail
    · exact hk1.fail
    · exact hk1.fail.ite hk1.setKey.complete

theorem Keeps.execKeyDestroy (hk : Keeps s₀ s) {c : Cmd} : NextKeeps s₀ (execKeyDestroy c s) := by
  unfold Machine.execKeyDestroy
  dsimp only
  refine .next (hk.command fun _ hk1 => ?_)
  split
  · exact hk1.fail
  · exact hk1.zeroKey.ok

theorem Keeps.answer (hk : Keeps s₀ s) {c : Cmd} {t : Nat} {body rest : List Byte} : Keeps s₀ (s.answer c t body rest) := by
  unfold State.answer
  dsimp only
  split
  · exact hk.fail
  · split
    · exact hk.fail
    · exact hk.fail
    · exact hk.fail
    · exact hk.countKey.countKey.draw.writeVA.complete

theorem Keeps.execKeyAttest (hk : Keeps s₀ s) {c : Cmd} : NextKeeps s₀ (execKeyAttest c s) := by
  unfold Machine.execKeyAttest
  dsimp only
  refine .next (hk.command fun _ hk1 => ?_)
  split
  · exact hk1.fail
  · exact hk1.answer

theorem Keeps.execAttestDevice (hk : Keeps s₀ s) {c : Cmd} : NextKeeps s₀ (execAttestDevice c s) := by
  unfold Machine.execAttestDevice
  dsimp only
  refine .next (hk.command fun _ hk1 => ?_)
  split
  · exact hk1.fail
  · exact hk1.answer

theorem Keeps.signAssembly (hk : Keeps s₀ s) : Keeps s₀ (s.signAssembly) :=
  hk.updSec.countKey.countKey.emit.sendDevice.ite hk.updSec.countKey.countKey.emit

theorem Keeps.execAttestAssembly (hk : Keeps s₀ s) {c : Cmd} : NextKeeps s₀ (execAttestAssembly c s) := by
  unfold Machine.execAttestAssembly
  dsimp only
  refine .next (hk.command fun _ hk1 => ?_)
  split
  · exact hk1.fail
  · exact hk1.draw.answer

theorem Keeps.execSecChallengeNew (hk : Keeps s₀ s) : NextKeeps s₀ (execSecChallengeNew s) :=
  .next (hk.ifWritable fun _ hk1 => hk1.ite hk1.draw.updSec)

theorem Keeps.execSecApprovedEnforce (hk : Keeps s₀ s) : NextKeeps s₀ (execSecApprovedEnforce s) := .next (hk.ifWritable fun _ hk1 => hk1.updSec)

theorem Keeps.execSecKeyQuotaWrite (hk : Keeps s₀ s) {t : TenantId} {value : Word64} : NextKeeps s₀ (execSecKeyQuotaWrite t value s) :=
  .next (hk.ifWritable fun _ hk1 => hk1.discarded.ite hk1.updSec)

theorem Keeps.execTrngHealthFail (hk : Keeps s₀ s) {adaptive : Bool} : NextKeeps s₀ (execTrngHealthFail adaptive s) := .next hk.updSec

theorem Keeps.execIdentityDerivation (hk : Keeps s₀ s) : NextKeeps s₀ (execIdentityDerivation s) :=
  .ite (.next hk.setKey.setKey.updSec) (.next hk)

theorem Keeps.execCalUserLoad (hk : Keeps s₀ s) {c : Cmd} {sig : SigPair} : NextKeeps s₀ (execCalUserLoad c sig s) := by
  unfold Machine.execCalUserLoad
  dsimp only
  refine .next (hk.command fun _ hk1 => ?_)
  split
  · exact hk1.fail
  · split
    · exact hk1.fail
    · exact hk1.updSec.ok

theorem Keeps.takeCal (hk : Keeps s₀ s) : Keeps s₀ (s.takeCal) := hk.updSec.ite hk

/-! ### Maps and pages -/

theorem Keeps.endSweep (hk : Keeps s₀ s) {t i : Nat} : Keeps s₀ (s.endSweep t i) := (hk.each fun _ _ hk1 => hk1.zeroKey).setTierKey.event.ite hk
theorem Keeps.mapEntries (hk : Keeps s₀ s) {t : Nat} {m : MapJob} {frames : List Nat} : Keeps s₀ (s.mapEntries t m frames) := hk.upd

theorem Keeps.unmapPage (hk : Keeps s₀ s) {t key : Nat} : Keeps s₀ (s.unmapPage t key) := by
  unfold State.unmapPage
  dsimp only
  refine .ite hk.upd ?_
  exact hk.upd.setUsed.ite (hk.upd.returnFrames.setTierKey.endSweep.ite hk.upd.returnFrames)

theorem Keeps.mapEffect (hk : Keeps s₀ s) {t op : Nat} {m : MapRegs} : Keeps s₀ (s.mapEffect t op m) := by
  unfold State.mapEffect
  dsimp only
  refine .ite ?_ ?_
  · refine .ite hk.setUsed.mapEntries.setMapRegs ?_
    split
    · exact hk.setMapRegs
    next _ u1 e1 =>
      exact (hk.takeFrames e1).setUsed.setMapRegs
  · refine .ite ((hk.each fun _ _ hk1 => hk1.unmapPage).setMapRegs) ?_
    exact (hk.each fun _ _ hk1 => hk1.updPage).setMapRegs

theorem Keeps.mapGo (hk : Keeps s₀ s) {fn t value op : Nat} : Keeps s₀ (s.mapGo fn t value op) := by
  unfold State.mapGo
  dsimp only
  refine .ite hk.windowMiss ?_
  refine .ite hk ?_
  split
  · exact hk.setMapRegs
  · exact hk.mapEffect

theorem Keeps.execMemMap (hk : Keeps s₀ s) {fn : FnId} {t : TenantId} {value : Word64} : NextKeeps s₀ (execMemMap fn t value s) :=
  .next (hk.ifWritable fun _ hk1 => hk1.mapGo)

theorem Keeps.execMemUnmap (hk : Keeps s₀ s) {fn : FnId} {t : TenantId} {value : Word64} : NextKeeps s₀ (execMemUnmap fn t value s) :=
  .next (hk.ifWritable fun _ hk1 => hk1.mapGo)

theorem Keeps.execMemProtect (hk : Keeps s₀ s) {fn : FnId} {t : TenantId} {value : Word64} : NextKeeps s₀ (execMemProtect fn t value s) :=
  .next (hk.ifWritable fun _ hk1 => hk1.mapGo)

theorem Keeps.zeroHeld (hk : Keeps s₀ s) {t : Nat} {round : Bool} : Keeps s₀ (s.zeroHeld t round) :=
  (hk.each fun _ _ hk1 => hk1.setUsed.updRam (ramZero_wf _ _ _ _)).upd

/-- Zeroing runs of frames keeps the canonical form. -/
theorem ramZeros_wf (l : List Nat) (tier n : Nat) (m : List Host.Cell) (h : Memory.wf m = true) :
    Memory.wf (l.foldl (fun r f => ramZero r tier f n) m) = true := by
  induction l generalizing m with
  | nil => exact h
  | cons f r ih => exact ih _ (ramZero_wf m tier f n h)

theorem Keeps.execZeroFill (hk : Keeps s₀ s) {t : TenantId} : NextKeeps s₀ (execZeroFill t s) := by
  unfold Machine.execZeroFill
  dsimp only
  refine .ite (.next hk) (.ite (.next ?_) (.next (.zeroHeld ?_)))
  · exact (hk.updRam (ramZeros_wf _ _ _ _)).mapEntries.setMapRegs.ite hk
  · exact (hk.updRam (ramZeros_wf _ _ _ _)).mapEntries.setMapRegs.ite hk

theorem Keeps.execQuotaSet (hk : Keeps s₀ s) {c : Cmd} : NextKeeps s₀ (execQuotaSet c s) := by
  unfold Machine.execQuotaSet
  refine .next (hk.command fun _ hk1 => ?_)
  split
  · exact hk1.fail
  · exact hk1.setLimit.ok

theorem Keeps.execMemWalkLookup (hk : Keeps s₀ s) {fn : FnId} {t : TenantId} {va : Word64} : NextKeeps s₀ (execMemWalkLookup fn t va s) :=
  .next (hk.ifWritable fun _ hk1 => hk1.windowMiss.ite hk1.upd)

theorem Keeps.execMemExchWrite (hk : Keeps s₀ s) {value : Word64} : NextKeeps s₀ (execMemExchWrite value s) :=
  .next (hk.ifWritable fun _ hk1 => hk1.discarded.ite hk1.upd)

theorem Keeps.retire (hk : Keeps s₀ s) {tier f units : Nat} : Keeps s₀ (s.retire tier f units) := hk.upd

theorem Keeps.takeSpare (hk : Keeps s₀ s) {t tier units : Nat} {l : List Nat} {u : State} (e : s.takeSpare t tier units = some (l, u)) :
    Keeps s₀ u := by
  unfold State.takeSpare at e
  split at e
  next e1 => cases e; exact hk.takeFrames e1
  · exact hk.takeFrames e

theorem Keeps.execMemRetire (hk : Keeps s₀ s) {value : Word64} {ue : Bool} : NextKeeps s₀ (execMemRetire value ue s) := by
  unfold Machine.execMemRetire
  dsimp only
  refine .next (hk.ifWritable fun _ hk1 => ?_)
  split
  · exact hk1.upd
  · split
    · exact hk1.upd
    · split
      · exact hk1.retire.upd
      · split
        · exact hk1.memUe.updPage.retire.upd
        · split
          next e => exact ((hk1.takeSpare e).updRam fun h => ramZero_wf _ _ _ _ (ramCopy_wf _ _ _ _ _ h)).updPage.upd.retire.upd
          · exact hk1.upd

theorem Keeps.execKeyRotateMem (hk : Keeps s₀ s) {c : Cmd} : NextKeeps s₀ (execKeyRotateMem c s) := by
  unfold Machine.execKeyRotateMem
  dsimp only
  refine .next (hk.command fun _ hk1 => ?_)
  split
  · exact hk1.fail
  · exact hk1.newKeys.setTierKey

theorem Keeps.execKeyRotationSwitch (hk : Keeps s₀ s) {t : TenantId} {ddr : Bool} : NextKeeps s₀ (execKeyRotationSwitch t ddr s) := by
  unfold Machine.execKeyRotationSwitch
  dsimp only
  split
  · exact .next hk
  · exact .ite (.next hk.setTierKey.endSweep.complete) (.next hk)

theorem Keeps.execKeySweepUnit (hk : Keeps s₀ s) {t : TenantId} {ddr written ue : Bool} : NextKeeps s₀ (execKeySweepUnit t ddr written ue s) := by
  unfold Machine.execKeySweepUnit
  dsimp only
  split
  · exact .next hk
  · split
    · exact .next hk.endSweep
    · split
      · exact .next hk.setTierKey
      · split
        · exact .next hk.memUe.updPage.setTierKey.endSweep
        · split
          next e => exact .next ((hk.takeSpare e).updRam (ramCopy_wf _ _ _ _ _)).updPage.setUsed.returnFrames.setTierKey.endSweep
          · exact .next hk

/-! ### Tenants -/

theorem Keeps.execTenantCreate (hk : Keeps s₀ s) {c : Cmd} {busyElsewhere : Bool} : NextKeeps s₀ (execTenantCreate c busyElsewhere s) := by
  unfold Machine.execTenantCreate
  dsimp only
  refine .next (hk.command fun _ hk1 => ?_)
  split
  · exact hk1.fail
  · exact hk1.updTenant.ite hk1.updTenant.sendDevice

theorem Keeps.updCreating (hk : Keeps s₀ s) {t : Nat} {f : Creating → Creating} : Keeps s₀ (s.updCreating t f) := hk.updTenant
theorem Keeps.takeTenantNotice (hk : Keeps s₀ s) {t b : Nat} : Keeps s₀ (s.takeTenantNotice t b) := hk.updTenant.ite hk

theorem Keeps.takeTenantVerdict (hk : Keeps s₀ s) {t m : Nat} {st : Status} : Keeps s₀ (s.takeTenantVerdict t m st) := by
  unfold State.takeTenantVerdict
  split
  · exact hk.updCreating.ite hk
  · exact hk

theorem Keeps.createTurn (hk : Keeps s₀ s) {b : Nat} : Keeps s₀ (s.createTurn b) := by
  unfold State.createTurn
  dsimp only
  refine hk.each fun _ _ hk1 => ?_
  split
  · exact hk1
  · split
    · exact (hk1.updCreating.takeTenantVerdict.ite hk1.updCreating.sendDevice).ite hk1
    · refine .ite ?_ ?_
      · refine .ite ?_ ?_
        · exact ((hk1.updCreating.takeTenantVerdict.ite hk1.updCreating.sendDevice).ite hk1).updCreating.sendDevice
        · exact ((hk1.updCreating.takeTenantVerdict.ite hk1.updCreating.sendDevice).ite hk1).updCreating
      · exact (hk1.updCreating.takeTenantVerdict.ite hk1.updCreating.sendDevice).ite hk1

theorem Keeps.createTenant (hk : Keeps s₀ s) {t : Nat} {c : Option Cmd} : Keeps s₀ (s.createTenant t c) := by
  unfold State.createTenant
  dsimp only
  exact hk.makeMemoryKeys.setLimit.setLimit.setLimit.updTenant.upd.setTenantState.each fun _ _ hk1 => hk1.complete

theorem Keeps.execTenantCreateBoundary (hk : Keeps s₀ s) : NextKeeps s₀ (execTenantCreateBoundary s) := by
  unfold Machine.execTenantCreateBoundary
  refine .next (hk.each fun _ _ hk1 => ?_)
  split
  · exact hk1.ite (hk1.createTenant.ite (hk1.updTenant.each fun _ _ hk2 => hk2.fail))
  · exact hk1

theorem Keeps.startRemovalAt (hk : Keeps s₀ s) {t : Nat} {reset : Bool} {c : Option Cmd} {b : Nat} : Keeps s₀ (s.startRemovalAt t reset c b) :=
  hk.updTenant.setTenantState

theorem Keeps.startRemoval (hk : Keeps s₀ s) {t : Nat} {reset : Bool} {c : Option Cmd} : Keeps s₀ (s.startRemoval t reset c) :=
  hk.startRemovalAt.sendDevice.ite hk.startRemovalAt

theorem Keeps.takeTenantRemove (hk : Keeps s₀ s) {t b : Nat} {reset : Bool} : Keeps s₀ (s.takeTenantRemove t b reset) := hk.ite hk.startRemovalAt
theorem Keeps.flrTenant (hk : Keeps s₀ s) {t : Nat} : Keeps s₀ (s.flrTenant t) := hk.ite (hk.updTenant.sendDevice.ite hk.startRemoval)

theorem Keeps.execTenantRemove (hk : Keeps s₀ s) {c : Cmd} : NextKeeps s₀ (execTenantRemove c s) := by
  unfold Machine.execTenantRemove
  dsimp only
  refine .next (hk.command fun _ hk1 => ?_)
  split
  · exact hk1.fail
  · exact hk1.startRemoval

theorem Keeps.endDma (hk : Keeps s₀ s) {t : Nat} {st : Status} : Keeps s₀ (s.endDma t st).1 := by
  unfold State.endDma
  dsimp only
  refine hk.each fun _ _ hk1 => hk1.setWork.setParked.each fun _ _ hk2 => ?_
  split
  · exact hk2.complete
  · exact hk2.endFeed
  · exact hk2

theorem Keeps.endPrograms (hk : Keeps s₀ s) {t : Nat} {st : Status} : Keeps s₀ (s.endPrograms t st) :=
  ((hk.each fun _ _ hk1 => hk1.haltGroup).each fun _ _ hk1 => hk1.upd.lockPages.fail).upd.each fun _ _ hk1 => hk1.fail

theorem Keeps.endRing (hk : Keeps s₀ s) {t : Nat} {st : Status} : Keeps s₀ (s.endRing t st) :=
  (hk.endWait.each fun _ _ hk1 => hk1.zeroKey.updRing.fail).upd.each fun _ _ hk1 => hk1.complete

theorem Keeps.endMap (hk : Keeps s₀ s) {t : Nat} : Keeps s₀ (s.endMap t) := (hk.each fun _ _ hk1 => hk1.returnFrames).setMapRegs.ite hk
theorem Keeps.parkAll (hk : Keeps s₀ s) {t : Nat} : Keeps s₀ (s.parkAll t) := hk.each fun _ _ hk1 => hk1.setEp.each fun _ _ hk2 => hk2.fail

theorem Keeps.removalBegins (hk : Keeps s₀ s) {t : Nat} {r : Removal} : Keeps s₀ (s.removalBegins t r) := by
  unfold State.removalBegins
  dsimp only
  refine Keeps.updTenant (.endMap (.endDma (.parkAll ?_)))
  exact (hk.endPrograms.endRing.each fun _ _ hk1 => hk1.cancelOpen).each fun _ _ hk1 => hk1.abortRound

theorem Keeps.execTenantRemoveBoundary (hk : Keeps s₀ s) : NextKeeps s₀ (execTenantRemoveBoundary s) := by
  unfold Machine.execTenantRemoveBoundary
  refine .next (hk.each fun _ _ hk1 => ?_)
  split
  · exact hk1.removalBegins.ite hk1
  · exact hk1

theorem Keeps.releaseObjects (hk : Keeps s₀ s) {t : Nat} : Keeps s₀ (s.releaseObjects t) := hk.upd

theorem Keeps.fenceEnd (hk : Keeps s₀ s) {t : Nat} {r : Removal} : Keeps s₀ (s.fenceEnd t r) := by
  unfold State.fenceEnd
  dsimp only
  exact ((hk.zeroKeys.each fun _ _ hk1 => hk1.fail).setTierKey.setTierKey.each fun _ _ hk1 => hk1.startClear).releaseObjects.setFabTenant.updTenant

theorem Keeps.execFenceRound (hk : Keeps s₀ s) {t : TenantId} {returned : List PortId} : NextKeeps s₀ (execFenceRound t returned s) := by
  unfold Machine.execFenceRound
  dsimp only
  split
  · exact .next hk
  · refine .ite ?_ ?_
    · refine .next (.ite ?_ ?_)
      · exact (hk.each fun _ _ hk1 => hk1.emit).updTenant.setFabTenant.fenceEnd
      · exact (hk.each fun _ _ hk1 => hk1.emit).updTenant.setFabTenant
    · exact .next hk

theorem Keeps.unmapAll (hk : Keeps s₀ s) {t : Nat} : Keeps s₀ (s.unmapAll t) := hk.each fun _ _ hk1 => hk1.unmapPage

theorem Keeps.stuckFrames (hk : Keeps s₀ s) {t : Nat} {frames : List Nat} : Keeps s₀ (s.stuckFrames t frames) :=
  hk.each fun _ _ hk1 => hk1.memUe.setUsed.upd.ite hk1.memUe.setUsed.upd.retire

theorem Keeps.giveReceipt (hk : Keeps s₀ s) {x : Receipt} : Keeps s₀ (s.giveReceipt x) := hk.upd.emit.event

theorem Keeps.tryRemoved (hk : Keeps s₀ s) {t : Nat} : Keeps s₀ (s.tryRemoved t) := by
  unfold State.tryRemoved
  dsimp only
  split
  · exact hk
  · exact hk.updTenant.complete.ite hk

theorem Keeps.noteRemoved (hk : Keeps s₀ s) {t m : Nat} {st : Status} {descs gone : Nat} : Keeps s₀ (s.noteRemoved t m st descs gone) :=
  hk.updTenant.tryRemoved

theorem Keeps.removalEnds (hk : Keeps s₀ s) {t : Nat} {r : Removal} {st : Status} : Keeps s₀ (s.removalEnds t r st) := by
  unfold State.removalEnds
  dsimp only
  split
  · refine .tryRemoved (.updTenant (.ite hk.updTenant.makeMemoryKeys.setTenantState ?_))
    exact hk.updTenant.setLimit.setLimit.setLimit.updTenant.setTenantState
  · refine .ite ?_ ?_
    · refine .sendDevice (.ite hk.updTenant.makeMemoryKeys.setTenantState ?_)
      exact hk.updTenant.setLimit.setLimit.setLimit.updTenant.setTenantState
    · refine .ite hk.updTenant.makeMemoryKeys.setTenantState ?_
      exact hk.updTenant.setLimit.setLimit.setLimit.updTenant.setTenantState

theorem Keeps.execScrub (hk : Keeps s₀ s) {t : TenantId} {hostRefused : Nat} {ueFrames : List Nat} :
    NextKeeps s₀ (execScrub t hostRefused ueFrames s) := by
  unfold Machine.execScrub
  dsimp only
  split
  · exact .next hk
  · refine .ite (.next hk) ?_
    refine .ite (.next hk.unmapAll.updTenant.upd.removalEnds) ?_
    refine .ite (.next hk.unmapAll.updTenant) ?_
    refine .next (.removalEnds (.ite ?_ ?_))
    · exact hk.unmapAll.updTenant.stuckFrames.zeroHeld.zeroHeld.giveReceipt
    · exact hk.unmapAll.updTenant.stuckFrames.zeroHeld.zeroHeld

theorem Keeps.suspend (hk : Keeps s₀ s) {t cause : Nat} : Keeps s₀ (s.suspend t cause) :=
  (((hk.each fun _ _ hk1 => hk1.setWork).each fun _ _ hk1 => hk1.cancelOpen).each fun _ _ hk1 => hk1.abortRound).updTenant.setTenantState

theorem Keeps.execVfEnableChange (hk : Keeps s₀ s) {t : TenantId} {mse bme : Bool} : NextKeeps s₀ (execVfEnableChange t mse bme s) :=
  .ite (.next hk.upd.updTenant) (.next hk.upd)

theorem Keeps.execHostLostLimit (hk : Keeps s₀ s) : NextKeeps s₀ (execHostLostLimit s) :=
  .ite (.next ((hk.updHost.each fun _ _ hk1 => hk1.suspend).hostEvent)) (.next hk)

/-! ### Resets and the life cycle -/

theorem Keeps.coldStart (hk : Keeps s₀ s) : Keeps s₀ s.coldStart :=
  ⟨hk.queue, hk.lifecycle, hk.otpSvn, fun _ => rfl⟩

theorem Keeps.dropUnsigned (hk : Keeps s₀ s) : Keeps s₀ (s.dropUnsigned) := hk.upd.ite hk
theorem Keeps.execBrownOut (hk : Keeps s₀ s) : NextKeeps s₀ (execBrownOut s) := .next hk.upd.coldStart

theorem Keeps.execPerstAssert (hk : Keeps s₀ s) {microseconds : Nat} : NextKeeps s₀ (execPerstAssert microseconds s) :=
  .ite (.next hk.upd.coldStart) (.next hk)

theorem Keeps.execPerstDeassert (hk : Keeps s₀ s) : NextKeeps s₀ (execPerstDeassert s) := .ite (.next hk.upd) (.next hk)
theorem Keeps.execColdReset (hk : Keeps s₀ s) : NextKeeps s₀ (execColdReset s) := .ite (.next hk.coldStart) (.next hk)

theorem Keeps.loseTenant (hk : Keeps s₀ s) {t : Nat} : Keeps s₀ (s.loseTenant t) := by
  unfold State.loseTenant
  dsimp only
  refine .ite ?_ (.setTenantState ?_)
  all_goals
    refine .each (.upd (.setFabTenant (.releaseObjects ?_))) fun _ _ hk1 => hk1.updCell.startClear
    exact hk.updTenant.zeroKeys.setTierKey.setTierKey.setLimit.setLimit.setLimit.setUsed.setUsed.setUsed.setMapRegs.upd

theorem Keeps.dropCommands (hk : Keeps s₀ s) : Keeps s₀ (s.dropCommands) := hk.upd

theorem Keeps.dropWork (hk : Keeps s₀ s) : Keeps s₀ (s.dropWork) :=
  (((hk.each fun _ _ hk1 => hk1.endWait).each fun _ _ hk1 => hk1.zeroKey).each fun _ _ hk1 => hk1.lockPages).upd

theorem Keeps.execWarmReset (hk : Keeps s₀ s) : NextKeeps s₀ (execWarmReset s) := by
  unfold Machine.execWarmReset
  split
  · exact .next hk
  · refine .ite ?_ (.next hk)
    extract_lets s1 s2 s3 s4 s5 s6
    have h3 : Keeps s₀ s3 := hk.upd.dropCommands.dropWork.each fun _ _ hk1 => hk1.cancelOpen
    have h4 : Keeps s₀ s4 := h3.each fun _ _ hk1 => hk1.abortRound.ite hk1.endBindings.shardFail
    have h6 : Keeps s₀ s6 := h4.zeroKeys.each fun _ _ hk1 => hk1.loseTenant
    clear_value s6
    exact .next h6.updSecOf

theorem Keeps.clearQueues (hk : Keeps s₀ s) {f : Nat} : Keeps s₀ (s.clearQueues f) := hk.upd

theorem Keeps.execVfFlr (hk : Keeps s₀ s) {t : TenantId} : NextKeeps s₀ (execVfFlr t s) :=
  .ite (.next hk) (.ite (.next hk) (.next hk.clearQueues.upd.flrTenant))

theorem Keeps.execPf0Flr (hk : Keeps s₀ s) : NextKeeps s₀ (execPf0Flr s) := .next hk.clearQueues.upd

/-! ### The Spindle -/

theorem Keeps.updSpn (hk : Keeps s₀ s) {f : Spn → Spn} : Keeps s₀ (s.updSpn f) := hk.upd

theorem Keeps.execSpinClkQualified (hk : Keeps s₀ s) : NextKeeps s₀ (execSpinClkQualified s) := by
  unfold Machine.execSpinClkQualified
  split
  · exact .ite (.next hk) (.next hk.updSpn)
  · exact .next hk

theorem Keeps.execPllLockTimeout (hk : Keeps s₀ s) : NextKeeps s₀ (execPllLockTimeout s) := by
  unfold Machine.execPllLockTimeout
  split
  · exact .ite (.next hk.updSpn) (.next hk)
  · exact .next hk

theorem Keeps.execAlignRelease (hk : Keeps s₀ s) : NextKeeps s₀ (execAlignRelease s) := by
  unfold Machine.execAlignRelease
  split
  · exact .ite (.next hk.updSpn) (.next hk)
  · exact .next hk

theorem Keeps.execFifoCheck (hk : Keeps s₀ s) {matching : Bool} : NextKeeps s₀ (execFifoCheck matching s) := by
  unfold Machine.execFifoCheck
  split
  · exact .ite (.next hk) (.ite (.next hk.updSpn) (.ite (.next hk.updSpn) (.next hk.updSpn)))
  · exact .next hk

theorem Keeps.execCxlTrainingStart (hk : Keeps s₀ s) : NextKeeps s₀ (execCxlTrainingStart s) := by
  unfold Machine.execCxlTrainingStart
  split
  · exact .ite (.next hk) (.next hk.updSpn)
  · exact .next hk

theorem Keeps.adopt (hk : Keeps s₀ s) {p : Nat} : Keeps s₀ (s.adopt p) := by
  unfold State.adopt
  dsimp only
  exact hk.updSecOf.updSpn

theorem Keeps.execSpnEpochWrite (hk : Keeps s₀ s) {fn : FnId} {value : Word64} : NextKeeps s₀ (execSpnEpochWrite fn value s) :=
  .next (hk.ifWritable fun _ hk1 => hk1.windowMiss.ite (hk1.updSpn.ite hk1.updSpn))

theorem Keeps.execSpinSyncEdge (hk : Keeps s₀ s) : NextKeeps s₀ (execSpinSyncEdge s) := .ite (.next hk.adopt.updSpn) (.next hk)

theorem Keeps.execPtpMessage (hk : Keeps s₀ s) {p : PortId} {domain timeNs : Nat} : NextKeeps s₀ (execPtpMessage p domain timeNs s) :=
  .ite (.next hk.updSpn.emit) (.next hk)

theorem Keeps.execPtpAdopt (hk : Keeps s₀ s) : NextKeeps s₀ (execPtpAdopt s) := by
  unfold Machine.execPtpAdopt
  split
  · exact .ite (.next hk.adopt) (.next hk)
  · exact .next hk

theorem Keeps.execPtpOffsetUpdate (hk : Keeps s₀ s) : NextKeeps s₀ (execPtpOffsetUpdate s) := by
  unfold Machine.execPtpOffsetUpdate
  split
  · exact .ite (.next hk.updSpn) (.next hk)
  · exact .next hk

theorem Keeps.setDelays (hk : Keeps s₀ s) {l : List (PortId × Nat)} : Keeps s₀ (s.setDelays l) := hk.updSpn

theorem Keeps.execAssemblyAlignment (hk : Keeps s₀ s) {pos fwClass : Nat} {composition measurement : Digest} {roundTrips : List (PortId × Nat)} :
    NextKeeps s₀ (execAssemblyAlignment pos fwClass composition measurement roundTrips s) := by
  unfold Machine.execAssemblyAlignment
  dsimp only
  refine .ite (.next hk) ?_
  refine .ite ?_ ?_
  · refine .ite (.next hk.updJigAlign.emit) ?_
    exact .ite (.next hk.setDelays.adopt.updSpn.updJigAlign.sendDevice) (.next hk)
  · refine .ite ?_ ?_
    · split
      · refine .ite (.next hk.setDelays.updJigAlign.signAssembly) ?_
        exact .next hk.setDelays.updJigAlign.adopt.signAssembly
      · exact .next hk
      · exact .ite (.next hk.setDelays.updJigAlign.signAssembly) (.next hk)
    · exact .next hk

theorem Keeps.execTimingFrame (hk : Keeps s₀ s) {p : PortId} {roundTripPs pos : Nat} : NextKeeps s₀ (execTimingFrame p roundTripPs pos s) := by
  unfold Machine.execTimingFrame
  dsimp only
  refine .ite (.next hk) ?_
  exact .ite (.next hk.rxFrame.updSpn) (.ite (.next hk.rxFrame) (.next hk.rxFrame.sendSlot0))

theorem Keeps.loseUpstream (hk : Keeps s₀ s) : Keeps s₀ (s.loseUpstream) := hk.updSpn.ite hk
theorem Keeps.execUpstreamLoss (hk : Keeps s₀ s) : NextKeeps s₀ (execUpstreamLoss s) := .next hk.loseUpstream
theorem Keeps.execHoldoverLimit (hk : Keeps s₀ s) : NextKeeps s₀ (execHoldoverLimit s) := .ite (.next hk.updSpn) (.next hk)

theorem Keeps.execSpinClkLoss (hk : Keeps s₀ s) : NextKeeps s₀ (execSpinClkLoss s) :=
  .ite (.next hk.updSpn.updSpn) (.ite (.next hk.updSpn.updSpn) (.next hk.updSpn))

theorem Keeps.execRatioSwitch (hk : Keeps s₀ s) : NextKeeps s₀ (execRatioSwitch s) := by
  unfold Machine.execRatioSwitch
  split
  · exact .ite (.next hk.updSpn) (.next hk)
  · exact .next hk

theorem Keeps.execFreezeBegin (hk : Keeps s₀ s) : NextKeeps s₀ (execFreezeBegin s) := by
  unfold Machine.execFreezeBegin
  dsimp only
  split
  · exact .ite (.next hk) (.next (hk.updSpn.updPwr.ite hk.updSpn))
  · exact .next hk

theorem Keeps.holdTimers (hk : Keeps s₀ s) {n : Nat} : Keeps s₀ (s.holdTimers n) := hk.upd

theorem Keeps.execThaw (hk : Keeps s₀ s) {clearedAt : Nat} : NextKeeps s₀ (execThaw s clearedAt) := by
  unfold Machine.execThaw
  dsimp only
  split
  · exact .ite (.next hk.holdTimers.updSpn.updPwr) (.next hk)
  · exact .next hk

theorem Keeps.execRefreshWindow (hk : Keeps s₀ s) {ddr : Bool} {unit : Fin 16} : NextKeeps s₀ (execRefreshWindow ddr unit s) := by
  unfold Machine.execRefreshWindow
  dsimp only
  refine .ite (.next hk) ?_
  split
  · exact .next hk.updSpn
  · exact .next hk

theorem Keeps.applyLoss (hk : Keeps s₀ s) {m : Nat} : Keeps s₀ (s.applyLoss m) := by
  unfold State.applyLoss
  dsimp only
  refine .ite hk ?_
  refine .ite (.signAssembly ?_) ?_
  all_goals
    refine .each (.event ?_) fun _ _ hk1 => hk1.tryRemoved
    refine .each ?_ fun _ _ hk1 => hk1.discardHomeless.checkRelease
    refine .each ?_ fun _ _ hk1 => hk1.updRound.reportGate.ite hk1.updRound
    exact hk.updSpn.each fun _ _ hk1 => hk1.updRound

theorem Keeps.takeOver (hk : Keeps s₀ s) : Keeps s₀ (s.takeOver) := by
  unfold State.takeOver
  dsimp only
  refine .applyLoss (.ite ?_ ?_)
  · exact ((hk.each fun _ _ hk1 => hk1.abortRound).each fun _ _ hk1 => hk1.cancelOpen).updSpn.updSpn
  · refine .ite ?_ ?_
    · exact ((hk.each fun _ _ hk1 => hk1.abortRound).each fun _ _ hk1 => hk1.cancelOpen).updSpn.updSpn
    · exact ((hk.each fun _ _ hk1 => hk1.abortRound).each fun _ _ hk1 => hk1.cancelOpen).updSpn.updSpn

theorem Keeps.declareLost (hk : Keeps s₀ s) {m : Nat} : Keeps s₀ (s.declareLost m) := hk.updSpn.sendDevice.ite hk
theorem Keeps.execMemberLoss (hk : Keeps s₀ s) {m turnsOut : Nat} : NextKeeps s₀ (execMemberLoss m s turnsOut) := .next (hk.declareLost.ite hk)
theorem Keeps.execCoordinatorLoss (hk : Keeps s₀ s) : NextKeeps s₀ (execCoordinatorLoss s) := .ite (.next hk.updSpn.sendDevice) (.next hk)
theorem Keeps.execIsolatedCoordinatorStop (hk : Keeps s₀ s) : NextKeeps s₀ (execIsolatedCoordinatorStop s) := .ite (.next hk.updSpn) (.next hk)
theorem Keeps.execNoStandbyStop (hk : Keeps s₀ s) : NextKeeps s₀ (execNoStandbyStop s) := .ite (.next hk.updSpn.sendDevice) (.next hk)
theorem Keeps.flushSlot0 (hk : Keeps s₀ s) : Keeps s₀ (s.flushSlot0) := hk.upd

theorem Keeps.execSlot0DeviceFrames (hk : Keeps s₀ s) : NextKeeps s₀ (execSlot0DeviceFrames s) := by
  unfold Machine.execSlot0DeviceFrames
  dsimp only
  refine .ite ?_ ?_
  · refine .ite ?_ ?_
    · exact .ite (.next hk.updSpn.flushSlot0) (.next hk.updSpn.flushSlot0.emit)
    · exact .next (hk.updSpn.flushSlot0.emit.emit.ite hk.updSpn.flushSlot0.emit)
  · exact .next hk

theorem Keeps.sourceBoundary (hk : Keeps s₀ s) : Keeps s₀ (s.sourceBoundary) :=
  (hk.updSpn.ite (hk.updSpn.ite (hk.updSpn.ite hk.updSpn))).ite (hk.updSpn.ite hk)

theorem Keeps.refill (hk : Keeps s₀ s) {turn : Bool} : Keeps s₀ (s.refill turn) := by
  unfold State.refill
  dsimp only
  exact hk.updSpn

theorem Keeps.preemptDma (hk : Keeps s₀ s) {tn : Nat} : Keeps s₀ (s.preemptDma tn) := by
  unfold State.preemptDma
  refine hk.each fun _ _ hk1 => hk1.each fun _ _ hk2 => ?_
  split
  · exact hk2.setWork.ite hk2
  · exact hk2

theorem Keeps.applyRung (hk : Keeps s₀ s) {rung b : Nat} : Keeps s₀ (s.applyRung rung b) := hk.updPwr.updSpn.ite hk.updPwr.updSpn
theorem Keeps.lowerVdd (hk : Keeps s₀ s) : Keeps s₀ (s.lowerVdd) := hk.updPwr.ite hk

theorem Keeps.steady (hk : Keeps s₀ s) {b : Nat} : Keeps s₀ (s.steady b) := by
  unfold State.steady
  dsimp only
  refine .each (.updPwr (.ite ((hk.lowerVdd.updPwr.ite hk.lowerVdd).updPwr.applyRung) ?_)) fun _ _ hk1 => hk1.each
      fun _ _ hk2 => (hk2.ite hk2.setGrant).ite hk2.setGrant
  refine .ite ((hk.lowerVdd.updPwr.ite hk.lowerVdd).applyRung) ?_
  exact hk.lowerVdd.updPwr.ite hk.lowerVdd

theorem Keeps.tenantBoundary (hk : Keeps s₀ s) : Keeps s₀ (s.tenantBoundary) :=
  (hk.each fun _ _ hk1 => hk1.suspend.ite hk1).each fun _ _ hk1 => hk1.updTenant.setTenantState.ite hk1

theorem Keeps.countTurn (hk : Keeps s₀ s) : Keeps s₀ (s.countTurn) := hk.upd
theorem Keeps.roundBoundary (hk : Keeps s₀ s) {b : Nat} : Keeps s₀ (s.roundBoundary b) := hk.each fun _ _ hk1 => hk1.applyChange
theorem Keeps.linkBoundary (hk : Keeps s₀ s) : Keeps s₀ (s.linkBoundary) := hk.each fun _ _ hk1 => (hk1.each fun _ _ hk2 => hk2.zeroKey).setPort

theorem Keeps.boundary (hk : Keeps s₀ s) {b : Nat} : Keeps s₀ (s.boundary b) := by
  unfold State.boundary
  dsimp only
  refine .pumpAll (.linkBoundary (.preemptDma (.countTurn (.takeCal (.refill (.steady (.tenantBoundary (.ite ?_ ?_))))))))
  · refine .endHostLost (.createTurn (.openBoundary (.roundBoundary (.sourceBoundary ?_))))
    split
    · refine .ite ?_ ?_
      · exact ((hk.updSpn.ite hk).updSpn.updSpn.each fun _ _ hk1 => hk1.applyLoss).takeOver
      · exact (hk.updSpn.ite hk).updSpn.updSpn.each fun _ _ hk1 => hk1.applyLoss
    · exact (hk.updSpn.ite hk).updSpn.updSpn.each fun _ _ hk1 => hk1.applyLoss
  · refine .createTurn (.openBoundary (.roundBoundary (.sourceBoundary ?_)))
    split
    · refine .ite ?_ ?_
      · exact ((hk.updSpn.ite hk).updSpn.updSpn.each fun _ _ hk1 => hk1.applyLoss).takeOver
      · exact (hk.updSpn.ite hk).updSpn.updSpn.each fun _ _ hk1 => hk1.applyLoss
    · exact (hk.updSpn.ite hk).updSpn.updSpn.each fun _ _ hk1 => hk1.applyLoss

theorem Keeps.execTurnBoundary (hk : Keeps s₀ s) : NextKeeps s₀ (execTurnBoundary s) := .ite (.next hk.boundary) (.next hk)

/-! ### Data of ring entries -/

theorem Keeps.writePoly (hk : Keeps s₀ s) {t : Nat} {d : RingDesc} {x : Poly} : Keeps s₀ (s.writePoly t d x) :=
  hk.each fun _ _ hk1 => hk1.each fun _ _ hk2 => hk2.writeVA

theorem Keeps.writeLwe (hk : Keeps s₀ s) {t : Nat} {d : RingDesc} {l : List (List Nat)} : Keeps s₀ (s.writeLwe t d l) :=
  hk.each fun _ _ hk1 => hk1.writeVA

theorem Keeps.ringLeaves (hk : Keeps s₀ s) {t : Nat} {p : ParamSet} {scratch len : Nat} : Keeps s₀ (s.ringLeaves t p scratch len) :=
  (hk.draw.each fun _ _ hk2 => hk2.updCell).each fun _ _ hk2 => hk2.writeSpan

/-! ### Ring objects -/

theorem Keeps.ctBlock (hk : Keeps s₀ s) {c : Cmd} {kind len : Nat} {body : State → Nat → List Byte → State}
    (hbody : ∀ u x0 x1, Keeps s₀ u → Keeps s₀ (body u x0 x1)) :
    Keeps s₀ (s.ctBlock c kind len body) := by
  unfold State.ctBlock
  dsimp only
  refine hk.command fun _ hk2 => ?_
  split
  · exact hk2.fail
  · exact hk2.fail
  · exact hbody _ _ _ hk2

theorem Keeps.execCtRegisterParams (hk : Keeps s₀ s) {c : Cmd} : NextKeeps s₀ (execCtRegisterParams c s) := by
  unfold Machine.execCtRegisterParams
  dsimp only
  refine .next (hk.ctBlock fun _ _ _ hk1 => ?_)
  split
  · exact hk1.fail
  · exact hk1.fail
  · exact hk1.setParams.complete

theorem Keeps.ctRelease (hk : Keeps s₀ s) {c : Cmd} {kind : Nat} {owns : State → Nat → Bool} {body : State → Nat → State}
    (hbody : ∀ u x0, Keeps s₀ u → Keeps s₀ (body u x0)) :
    Keeps s₀ (s.ctRelease c kind owns body) := by
  unfold State.ctRelease
  refine hk.command fun _ hk2 => ?_
  split
  · exact hk2.fail
  · exact hbody _ _ hk2

theorem Keeps.execReleaseParams (hk : Keeps s₀ s) {c : Cmd} : NextKeeps s₀ (execReleaseParams c s) :=
  .next (hk.ctRelease fun _ _ hk1 => hk1.fail.ite hk1.setParams.ok)

theorem Keeps.execCtRegisterDescriptor (hk : Keeps s₀ s) {c : Cmd} : NextKeeps s₀ (execCtRegisterDescriptor c s) := by
  unfold Machine.execCtRegisterDescriptor
  dsimp only
  refine .next (hk.ctBlock fun _ _ _ hk1 => ?_)
  split
  · exact hk1.fail
  · exact hk1.setDesc.complete

theorem Keeps.execReleaseDescriptor (hk : Keeps s₀ s) {c : Cmd} : NextKeeps s₀ (execReleaseDescriptor c s) :=
  .next (hk.ctRelease fun _ _ hk1 => hk1.fail.ite hk1.setDesc.ok)

theorem Keeps.dropEvkJob (hk : Keeps s₀ s) {j : EvkJob} : Keeps s₀ (s.dropEvkJob j) := hk.zeroKey.updRing

theorem Keeps.pumpEvk (hk : Keeps s₀ s) {j : EvkJob} : Keeps s₀ (s.pumpEvk j) := by
  unfold State.pumpEvk
  dsimp only
  refine .ite hk ?_
  refine .ite hk.chargeDma.updRing ?_
  exact hk.chargeDma.dropEvkJob.fail.ite hk.chargeDma.writeVA.updRing.setEvk.complete

theorem Keeps.pumpEvks (hk : Keeps s₀ s) : Keeps s₀ (s.pumpEvks) := hk.each fun _ _ hk1 => hk1.pumpEvk

theorem Keeps.execEvkRegister (hk : Keeps s₀ s) {c : Cmd} {ue : Bool} : NextKeeps s₀ (execEvkRegister c ue s) := by
  unfold Machine.execEvkRegister
  dsimp only
  refine .next (hk.command fun _ hk1 => ?_)
  split
  · exact hk1.fail
  · exact hk1.fail
  · split
    · exact hk1.fail
    · exact hk1.newKeys.updRing.pumpEvk

theorem Keeps.execReleaseEvk (hk : Keeps s₀ s) {c : Cmd} : NextKeeps s₀ (execReleaseEvk c s) :=
  .next (hk.ctRelease fun _ _ hk1 => hk1.fail.ite hk1.zeroKey.setEvk.ok)

theorem Keeps.execCtRegisterPlan (hk : Keeps s₀ s) {c : Cmd} : NextKeeps s₀ (execCtRegisterPlan c s) := by
  unfold Machine.execCtRegisterPlan
  dsimp only
  refine .next (hk.command fun _ hk1 => ?_)
  split
  · exact hk1.fail
  · exact hk1.fail
  · split
    · exact hk1.fail
    · split
      · exact hk1.complete
      · split
        · exact hk1.complete
        · refine .ite hk1.complete ?_
          refine .ite hk1.fail ?_
          split
          · exact hk1.fail
          · exact hk1.setPlan.complete

theorem Keeps.execReleasePlan (hk : Keeps s₀ s) {c : Cmd} : NextKeeps s₀ (execReleasePlan c s) :=
  .next (hk.ctRelease fun _ _ hk1 => hk1.fail.ite hk1.setPlan.ok)

theorem Keeps.execCtRegisterExit (hk : Keeps s₀ s) {c : Cmd} : NextKeeps s₀ (execCtRegisterExit c s) := by
  unfold Machine.execCtRegisterExit
  dsimp only
  refine .next (hk.ctBlock fun _ _ _ hk1 => ?_)
  split
  · exact hk1.fail
  · exact hk1.updRing.complete

/-! ### Programs -/

theorem Keeps.countLinks (hk : Keeps s₀ s) {i n : Nat} {l : List (Nat × Nat)} : Keeps s₀ (s.countLinks i n l) := by
  unfold State.countLinks
  dsimp only
  exact hk.each fun _ _ hk1 => hk1.updCell

theorem Keeps.linkErrors (hk : Keeps s₀ s) {r : JigRoute} {hops : List Nat} : Keeps s₀ (s.linkErrors r hops) :=
  hk.each fun _ _ hk1 => hk1.updCell

theorem Keeps.execSend (hk : Keeps s₀ s) {a : CellAt} {route : Fin 256} {dsig : Bool} {dtoken : Fin 64} {src dst : AddrOp} {beats : Nat} :
    NextKeeps s₀ (execSend a route dsig dtoken src dst beats s) := by
  unfold Machine.execSend
  dsimp only
  refine .ite ?_ ?_
  · refine .next (hk.unitInstr fun _ _ hk1 => ?_)
    split
    · refine .ite (.error hk1.updCell.countLinks.linkErrors.updCell) ?_
      exact .ok (hk1.updCell.countLinks.linkErrors.signalToken.ite hk1.updCell.countLinks.linkErrors)
    · exact .ok (hk1.updCell.countLinks.linkErrors.signalToken.ite hk1.updCell.countLinks.linkErrors)
  · exact .next hk

theorem Keeps.execFeed (hk : Keeps s₀ s) {a : CellAt} {v : Bool} {engine : EngineId} {desc : AddrOp} :
    NextKeeps s₀ (execFeed a v engine desc s) := by
  unfold Machine.execFeed
  dsimp only
  refine .next (hk.issue fun _ hk1 => ?_)
  split
  · exact .error hk1
  · split
    · exact .error hk1.settle.updCell
    · split
      · exact .error hk1.settle
      · exact .ok (hk1.settle.postFeed.goTo.ite hk1.settle.updCell)

theorem Keeps.loadFails (hk : Keeps s₀ s) {c : Cmd} {g order : Nat} {st : Status} {idx : Nat} : Keeps s₀ (s.loadFails c g order st idx) := by
  unfold State.loadFails
  dsimp only
  refine .complete ?_
  split
  · exact hk.updCell
  · exact hk

theorem Keeps.loadImage (hk : Keeps s₀ s) {p : ProgImage} {m : Digest} {g : Nat} : Keeps s₀ (s.loadImage p m g) :=
  hk.each fun _ _ hk1 => hk1.updCell

theorem Keeps.pumpLoad (hk : Keeps s₀ s) {l : LoadJob} : Keeps s₀ (s.pumpLoad l) := by
  unfold State.pumpLoad
  dsimp only
  refine .ite hk ?_
  refine .ite hk.upd.lockPages.fail ?_
  exact hk.chargeDma.upd.ite hk.chargeDma.upd.lockPages.loadImage.complete

theorem Keeps.pumpLoads (hk : Keeps s₀ s) : Keeps s₀ (s.pumpLoads) := hk.each fun _ _ hk1 => hk1.pumpLoad

theorem Keeps.execProgLoad (hk : Keeps s₀ s) {c : Cmd} : NextKeeps s₀ (execProgLoad c s) := by
  unfold Machine.execProgLoad
  dsimp only
  refine .next (hk.command fun _ hk1 => ?_)
  split
  · exact hk1.fail
  · refine .ite hk1.loadFails ?_
    refine .ite hk1.loadFails ?_
    refine .ite hk1.fail ?_
    split
    · exact hk1.loadFails
    · exact hk1.lockPages.upd.pumpLoad

theorem Keeps.execProgStart (hk : Keeps s₀ s) {c : Cmd} : NextKeeps s₀ (execProgStart c s) := by
  unfold Machine.execProgStart
  dsimp only
  refine .next (hk.command fun _ hk1 => ?_)
  split
  · exact hk1.fail
  · exact hk1.upd

theorem Keeps.armBarrier (hk : Keeps s₀ s) {b : Barrier} : Keeps s₀ (s.armBarrier b) := hk.upd

theorem Keeps.execBarrierArm (hk : Keeps s₀ s) {c : Cmd} {unloaded : List Nat} : NextKeeps s₀ (execBarrierArm c s unloaded) := by
  unfold Machine.execBarrierArm
  dsimp only
  refine .next (hk.command fun _ hk1 => ?_)
  split
  · exact hk1.fail
  · exact hk1.fail
  · split
    · exact hk1.fail
    · exact hk1.armBarrier.ite hk1.armBarrier.sendDevice

theorem Keeps.startWork (hk : Keeps s₀ s) {b : Barrier} : Keeps s₀ (s.startWork b) := by
  unfold State.startWork
  dsimp only
  refine .ite (hk.fail.ite (hk.fail.ite hk.upd.beginRun)) ?_
  split
  · exact hk.fail
  · exact hk.setWork

theorem Keeps.execBarrierStart (hk : Keeps s₀ s) {missed : List Nat} : NextKeeps s₀ (execBarrierStart missed s) := by
  unfold Machine.execBarrierStart
  dsimp only
  split
  · exact .next hk
  · refine .next ?_
    split
    · exact (hk.upd.upd.sendDevice.ite hk.upd.upd).ite (hk.upd.startWork.ite hk.upd)
    · exact (((hk.upd.upd.sendDevice.ite hk.upd.upd).ite (hk.upd.startWork.ite hk.upd)).each fun _ _ hk1 => hk1.declareLost).fail

theorem Keeps.execCellClear (hk : Keeps s₀ s) {c : CellId} : NextKeeps s₀ (execCellClear c s) :=
  .ite (.next ((hk.each fun _ _ hk1 => hk1.lockPages).setCell)) (.next hk)

theorem Keeps.execCelModulusWrite (hk : Keeps s₀ s) {fn : FnId} {c : CellId} {n : Fin 16} {value : Word64} :
    NextKeeps s₀ (execCelModulusWrite fn c n value s) := .next (hk.ifWritable fun _ hk1 => hk1.windowMiss.ite (hk1.discarded.ite hk1.updCell))

theorem Keeps.execModulusConstantsReady (hk : Keeps s₀ s) {c : CellId} {n : Fin 16} : NextKeeps s₀ (execModulusConstantsReady c n s) :=
  .next (hk.updCell.ite hk)

theorem Keeps.execSealedClear (hk : Keeps s₀ s) {c : CellId} {h : Handle} : NextKeeps s₀ (execSealedClear c h s) :=
  .next (hk.updCell.updRound.ite hk)

/-! ### The clock -/

theorem Keeps.serve (hk : Keeps s₀ s) : Keeps s₀ (s.serve) := hk.drainFrames.pumpAll.pumpLoads.pumpEvks.beginPrograms
theorem Keeps.tick (hk : Keeps s₀ s) : Keeps s₀ (s.tick) := hk.upd.serve.ite hk

/-! ### The instructions of encrypted arithmetic -/

theorem Keeps.updRegion (hk : Keeps s₀ s) {i : Nat} {f : Region → Region} : Keeps s₀ (s.updRegion i f) := hk.updFab

theorem Keeps.execRegionRegister (hk : Keeps s₀ s) {c : Cmd} : NextKeeps s₀ (execRegionRegister c s) := by
  unfold Machine.execRegionRegister
  dsimp only
  refine .next (hk.command fun _ hk1 => ?_)
  split
  · exact hk1.fail
  · exact hk1.fail
  · split
    · exact hk1.fail
    · split
      · exact hk1.fail
      · exact hk1.updFab.complete

theorem Keeps.execRegionDeregister (hk : Keeps s₀ s) {c : Cmd} : NextKeeps s₀ (execRegionDeregister c s) := by
  unfold Machine.execRegionDeregister
  refine .next (hk.command fun _ hk1 => ?_)
  split
  · exact hk1.fail
  · exact hk1.updFab.ok

theorem Keeps.execRegionRekey (hk : Keeps s₀ s) {c : Cmd} : NextKeeps s₀ (execRegionRekey c s) := by
  unfold Machine.execRegionRekey
  dsimp only
  refine .next (hk.command fun _ hk1 => ?_)
  split
  · exact hk1.fail
  · exact hk1.fail.ite hk1.updRegion.updFab.complete

theorem Keeps.execEndpointCreate (hk : Keeps s₀ s) {c : Cmd} : NextKeeps s₀ (execEndpointCreate c s) := by
  unfold Machine.execEndpointCreate
  dsimp only
  refine .next (hk.command fun _ hk1 => ?_)
  split
  · exact hk1.fail
  · exact hk1.fail
  · split
    · exact hk1.fail
    · exact hk1.fail
    · exact hk1.setEp.complete

theorem Keeps.execEndpointPark (hk : Keeps s₀ s) {c : Cmd} : NextKeeps s₀ (execEndpointPark c s) := by
  unfold Machine.execEndpointPark
  dsimp only
  refine .next (hk.command fun _ hk1 => ?_)
  split
  · exact hk1.fail
  · exact hk1.ok.ite (hk1.fail.ite hk1.setEp.tryPark)

theorem Keeps.execEndpointUnpark (hk : Keeps s₀ s) {c : Cmd} : NextKeeps s₀ (execEndpointUnpark c s) := by
  unfold Machine.execEndpointUnpark
  dsimp only
  refine .next (hk.command fun _ hk1 => ?_)
  split
  · exact hk1.fail
  · exact hk1.ok.ite (hk1.fail.ite (hk1.fail.ite hk1.setEp.ok))

theorem Keeps.doorbell (hk : Keeps s₀ s) {fn e : Nat} {f : Endpoint → Endpoint} : Keeps s₀ (s.doorbell fn e f) :=
  hk.ifWritable fun _ hk1 => hk1.windowMiss.ite (hk1.setEp.ite hk1)

theorem Keeps.execEpSqTail (hk : Keeps s₀ s) {fn : FnId} {ep : EpId} {tail : Nat} : NextKeeps s₀ (execEpSqTail fn ep tail s) := .next hk.doorbell
theorem Keeps.execEpRqTail (hk : Keeps s₀ s) {fn : FnId} {ep : EpId} {tail : Nat} : NextKeeps s₀ (execEpRqTail fn ep tail s) := .next hk.doorbell
theorem Keeps.execEpCqHead (hk : Keeps s₀ s) {fn : FnId} {ep : EpId} {head : Nat} : NextKeeps s₀ (execEpCqHead fn ep head s) := .next hk.doorbell

theorem Keeps.pushTo (hk : Keeps s₀ s) {t : Nat} {w : WorkReq} {data : List Byte} {m : Nat} : Keeps s₀ (s.pushTo t w data m) := by
  unfold State.pushTo
  dsimp only
  split
  · exact hk
  · exact hk.each fun _ _ hk1 => hk1.sendFrame

theorem Keeps.takeReq (hk : Keeps s₀ s) {e kind : Nat} {host : List Byte} : Keeps s₀ (s.takeReq e kind host) := by
  unfold State.takeReq
  dsimp only
  refine .ite hk ?_
  refine .ite hk ?_
  split
  · exact hk.setEp.reqDone
  · refine .ite ?_ ?_
    · exact hk.setEp.reqDone.ite (hk.setEp.updEp.each fun _ _ hk1 => hk1.pushTo)
    · exact hk.setEp.updEp.pump

theorem Keeps.execWrSend (hk : Keeps s₀ s) {ep : EpId} {host : List Byte} : NextKeeps s₀ (execWrSend ep host s) := .next hk.takeReq
theorem Keeps.execWrWrite (hk : Keeps s₀ s) {ep : EpId} {host : List Byte} : NextKeeps s₀ (execWrWrite ep host s) := .next hk.takeReq
theorem Keeps.execWrWriteNotify (hk : Keeps s₀ s) {ep : EpId} {host : List Byte} : NextKeeps s₀ (execWrWriteNotify ep host s) := .next hk.takeReq
theorem Keeps.execWrAccAdd (hk : Keeps s₀ s) {ep : EpId} {host : List Byte} : NextKeeps s₀ (execWrAccAdd ep host s) := .next hk.takeReq
theorem Keeps.execPush (hk : Keeps s₀ s) {ep : EpId} {host : List Byte} : NextKeeps s₀ (execPush ep host s) := .next hk.takeReq
theorem Keeps.execBcast (hk : Keeps s₀ s) {ep : EpId} {host : List Byte} : NextKeeps s₀ (execBcast ep host s) := .next hk.takeReq

theorem Keeps.execEtkaiAck (hk : Keeps s₀ s) {ep : EpId} {msgId index : Nat} {ece dup : Bool} :
    NextKeeps s₀ (execEtkaiAck ep msgId index ece dup s) := by
  unfold Machine.execEtkaiAck
  dsimp only
  refine .next (.ite hk ?_)
  split
  · exact hk
  · exact hk.updFab.endMsg.pump.ite hk.updFab.updEp.pump

theorem Keeps.updFlow (hk : Keeps s₀ s) {key : Nat} {f : Flow → Flow} : Keeps s₀ (s.updFlow key f) := hk.updFab

theorem Keeps.peerEnds (hk : Keeps s₀ s) {e : Nat} {m : SendMsg} {st : Status} : Keeps s₀ (s.peerEnds e m st) := by
  unfold State.peerEnds
  dsimp only
  refine .endMsg ?_
  split
  · exact hk.updFab
  · exact hk.updFab
  · exact hk

theorem Keeps.execEtkaiNak (hk : Keeps s₀ s) {ep : EpId} {msgId index : Nat} {st : Status} : NextKeeps s₀ (execEtkaiNak ep msgId index st s) := by
  unfold Machine.execEtkaiNak
  dsimp only
  refine .next (.ite hk ?_)
  split
  · exact hk
  · exact (hk.updFlow.peerEnds.pump.ite hk.updFlow.updPkt).ite hk.endMsg.pump

theorem Keeps.execRtoExpire (hk : Keeps s₀ s) {ep : EpId} {msgId index : Nat} : NextKeeps s₀ (execRtoExpire ep msgId index s) := by
  unfold Machine.execRtoExpire
  dsimp only
  refine .next ?_
  split
  · exact hk
  · exact hk.ite (hk.updFlow.peerEnds.pump.ite hk.updFlow.sendPkt)

theorem Keeps.execNakRetry (hk : Keeps s₀ s) {ep : EpId} {msgId index : Nat} : NextKeeps s₀ (execNakRetry ep msgId index s) := by
  unfold Machine.execNakRetry
  refine .next ?_
  split
  · exact hk
  · split
    · exact hk.sendPkt.ite hk
    · exact hk

theorem Keeps.execFlowIdleDrop (hk : Keeps s₀ s) {flow : Nat} : NextKeeps s₀ (execFlowIdleDrop flow s) := .next (hk.ite hk.updFab)

theorem Keeps.execReassemblyTimeout (hk : Keeps s₀ s) {ep : EpId} {srcEp srcMember msgId : Nat} :
    NextKeeps s₀ (execReassemblyTimeout ep srcEp srcMember msgId s) := .next (hk.ite hk.setEp)

theorem Keeps.dropPacket (hk : Keeps s₀ s) {p : Nat} : Keeps s₀ (s.dropPacket p) := hk.updPort
theorem Keeps.respond (hk : Keeps s₀ s) {p : Packet} {o : Option EthHead → Out} : Keeps s₀ (s.respond p o) := hk.sendFrame
theorem Keeps.ackPacket (hk : Keeps s₀ s) {p : Packet} {dup : Bool} : Keeps s₀ (s.ackPacket p dup) := hk.respond

theorem Keeps.nakPacket (hk : Keeps s₀ s) {p : Packet} {st : Status} : Keeps s₀ (s.nakPacket p st) := by
  unfold State.nakPacket
  dsimp only
  refine .ite ?_ ?_
  · exact hk.respond.setFabTenant.setEp.event.ite hk.respond.setFabTenant.setEp
  · exact hk.respond

theorem Keeps.countGone (hk : Keeps s₀ s) {t : Nat} : Keeps s₀ (s.countGone t) := hk.setFabTenant

theorem Keeps.land (hk : Keeps s₀ s) {r : Region} {off : Nat} {add : Bool} {format : Nat} {bs : List Byte} :
    Keeps s₀ (s.land r off add format bs) := hk.writeVA

theorem Keeps.arrive (hk : Keeps s₀ s) {p : Packet} {rest : State → State} (hrest : ∀ u, Keeps s₀ u → Keeps s₀ (rest u)) :
    Keeps s₀ (s.arrive p rest) := by
  unfold State.arrive
  dsimp only
  refine .ite hk ?_
  refine .ite ?_ ?_
  · split
    · exact hk.rxFrame.sendFrame
    · exact hk.rxFrame.dropPacket
  · refine .ite hk.rxFrame.dropPacket ?_
    exact hk.rxFrame.countGone.nakPacket.ite (hk.rxFrame.dropPacket.ite (hrest _ hk.rxFrame))

theorem Keeps.execEtkaiWritePacket (hk : Keeps s₀ s) {x : PacketIn} : NextKeeps s₀ (execEtkaiWritePacket x s) := by
  unfold Machine.execEtkaiWritePacket
  dsimp only
  refine .next (hk.arrive fun _ hk1 => ?_)
  split
  · split
    · exact hk1.nakPacket
    · exact hk1.land.ackPacket
  · exact hk1.nakPacket
  · exact hk1

theorem Keeps.execEtkaiAccAddPacket (hk : Keeps s₀ s) {x : PacketIn} : NextKeeps s₀ (execEtkaiAccAddPacket x s) := by
  unfold Machine.execEtkaiAccAddPacket
  dsimp only
  refine .next (hk.arrive fun _ hk1 => ?_)
  split
  · split
    · exact hk1.nakPacket
    · exact hk1.ackPacket.ite hk1.land.updRegion.ackPacket
  · exact hk1.nakPacket
  · exact hk1

theorem Keeps.reassemble (hk : Keeps s₀ s) {e : Nat} {p : Packet} {landing : State → RecvEntry → Except Status State}
    (hl : ∀ u r, Keeps s₀ u → OkKeeps s₀ (landing u r)) : Keeps s₀ (s.reassemble e p landing) := by
  unfold State.reassemble
  extract_lets x found start
  have hs (r : Reasm) (u : State) (e1 : start = .ok (r, u)) : Keeps s₀ u := by
    unfold start at e1
    clear_value found x
    split at e1
    · cases e1; exact hk
    · split at e1
      · cases e1
      · split at e1
        · cases e1
        · cases e1; exact hk.setEp
  clear_value start
  split
  · exact hk.nakPacket
  next r u =>
    have hu := hs r u rfl
    split
    · exact Keeps.nakPacket (hu.ite hu.updEp)
    next v e2 =>
      have hv := (hl u r.entry hu).state e2
      exact hv.ackPacket.updEp.epPost.ite hv.ackPacket.updEp

theorem Keeps.execEtkaiSendPacket (hk : Keeps s₀ s) {x : PacketIn} : NextKeeps s₀ (execEtkaiSendPacket x s) := by
  unfold Machine.execEtkaiSendPacket
  dsimp only
  refine .next (hk.arrive fun _ hk1 => hk1.ackPacket.ite (hk1.dropPacket.ite (hk1.nakPacket.ite (hk1.reassemble fun _ _ hk2 => ?_))))
  refine .ite .error ?_
  split
  · exact .error
  · exact .ok hk2.writeVA

theorem Keeps.execEtkaiWriteNotifyPacket (hk : Keeps s₀ s) {x : PacketIn} : NextKeeps s₀ (execEtkaiWriteNotifyPacket x s) := by
  unfold Machine.execEtkaiWriteNotifyPacket
  dsimp only
  refine .next (hk.arrive fun _ hk1 => ?_)
  split
  · split
    · exact hk1.nakPacket
    · refine hk1.reassemble fun _ _ hk2 => ?_
      split
      · exact .error
      · exact .ok hk2.land
  · exact hk1.nakPacket
  · exact hk1

/-! ### JIG -/

theorem Keeps.noteCheck (hk : Keeps s₀ s) {k : Option JigCheck} : Keeps s₀ (s.noteCheck k) := by
  unfold State.noteCheck
  dsimp only
  split
  · split
    · exact hk.updJig
    · exact hk.draw.updJig
  · exact hk.updJig

theorem Keeps.endJigWith (hk : Keeps s₀ s) {c : Cmd} {st : Status} {member flags : Nat} : Keeps s₀ (s.endJigWith c st member flags) :=
  hk.updJig.complete

theorem Keeps.endJig (hk : Keeps s₀ s) {c : Cmd} {st : Status} {member : Nat} : Keeps s₀ (s.endJig c st member) := hk.endJigWith

theorem Keeps.execJigLoad (hk : Keeps s₀ s) {c : Cmd} {img : JigImage} : NextKeeps s₀ (execJigLoad c img s) := by
  unfold Machine.execJigLoad
  dsimp only
  refine .next (hk.command fun _ hk1 => ?_)
  split
  · exact hk1.endJig
  · exact hk1.endJig
  · split
    · exact hk1.noteCheck.endJig
    · split
      · exact hk1.noteCheck.endJig
      · exact hk1.updJig

theorem Keeps.setRoles (hk : Keeps s₀ s) : Keeps s₀ (s.setRoles) := hk.each fun _ _ hk1 => hk1.ite hk1.setPort
theorem Keeps.setQuotas (hk : Keeps s₀ s) : Keeps s₀ (s.setQuotas) := hk.each fun _ _ hk1 => hk1.setLimit.setLimit

theorem Keeps.setSpindle (hk : Keeps s₀ s) : Keeps s₀ (s.setSpindle) := by
  unfold State.setSpindle
  dsimp only
  exact hk.updSpn

theorem Keeps.keysOfZero (hk : Keeps s₀ s) : Keeps s₀ (s.keysOfZero) := by
  unfold State.keysOfZero
  exact hk.makeMemoryKeys.updTenant.ite hk

theorem Keeps.setBands (hk : Keeps s₀ s) : Keeps s₀ (s.setBands) := hk.updPwr

theorem Keeps.takeLive (hk : Keeps s₀ s) {new : JigLive} {host thermal : Bool} {offset value : Nat} :
    Keeps s₀ (s.takeLive new host thermal offset value) := by
  unfold State.takeLive
  dsimp only
  exact hk.updJig.discarded.ite hk.updJig

theorem Keeps.execJigLoadEffect (hk : Keeps s₀ s) : NextKeeps s₀ (execJigLoadEffect s) := by
  unfold Machine.execJigLoadEffect
  dsimp only
  split
  · exact .next hk
  · refine .ite ?_ ?_
    · refine .next (.endJigWith (.ite ?_ ?_))
      · refine .updPwr (.refill (.keysOfZero (.setBands (.setQuotas (.setSpindle (.setRoles ?_))))))
        split
        · exact (hk.each fun _ _ hk1 => hk1.startClear).updJig.updJig.takeLive
        · exact (hk.each fun _ _ hk1 => hk1.startClear).updJig.updJig
      · refine .setTenantState (.updPwr (.refill (.keysOfZero (.setBands (.setQuotas (.setSpindle (.setRoles ?_)))))))
        split
        · exact (hk.each fun _ _ hk1 => hk1.startClear).updJig.updJig.takeLive
        · exact (hk.each fun _ _ hk1 => hk1.startClear).updJig.updJig
    · exact .next hk

theorem Keeps.applyRecord (hk : Keeps s₀ s) {x : EditRecord × EditMeaning} : Keeps s₀ (s.applyRecord x) := by
  unfold State.applyRecord
  dsimp only
  refine .ite (hk.updJig.ite hk.updJig) ?_
  split
  · exact hk.takeLive
  · exact hk.updJig

theorem Keeps.execJigEdit (hk : Keeps s₀ s) {c : Cmd} {means : List EditMeaning} : NextKeeps s₀ (execJigEdit c means s) := by
  unfold Machine.execJigEdit
  dsimp only
  refine .next (hk.command fun _ hk1 => ?_)
  split
  · exact hk1.fail
  · split
    · exact hk1.fail
    · exact (hk1.each fun _ _ hk2 => hk2.applyRecord).updJig.ok

theorem Keeps.startCommit (hk : Keeps s₀ s) {k : Commit} : Keeps s₀ (s.startCommit k) := by
  unfold State.startCommit
  dsimp only
  exact hk.noteCheck.updJig

theorem Keeps.execJigCommit (hk : Keeps s₀ s) {c : Cmd} {sig : SigPair} {signed : Digest × Nat × Nat} :
    NextKeeps s₀ (execJigCommit c sig s signed) := by
  unfold Machine.execJigCommit
  dsimp only
  refine .next (hk.command fun _ hk1 => ?_)
  split
  · exact hk1.endJig
  · exact hk1.endJig
  · exact hk1.startCommit.sendDevice.ite hk1.startCommit

theorem Keeps.takeNotice (hk : Keeps s₀ s) {turn serial : Nat} {digest : Digest} {active : Nat} :
    Keeps s₀ (s.takeNotice turn serial digest active) := hk.updJig.startCommit.ite hk

theorem Keeps.takeVerdict (hk : Keeps s₀ s) {m : Nat} {st : Status} {check : Nat} : Keeps s₀ (s.takeVerdict m st check) := by
  unfold State.takeVerdict
  split
  · exact hk.updJig.ite hk
  · exact hk

theorem Keeps.takeDecision (hk : Keeps s₀ s) {swap : Bool} {readmit : List Nat} : Keeps s₀ (s.takeDecision swap readmit) := by
  unfold State.takeDecision
  split
  · exact hk.ite hk.updJig
  · exact hk

theorem Keeps.execCommitVerdict (hk : Keeps s₀ s) {rx : Option (Nat × Status × Nat)} : NextKeeps s₀ (execCommitVerdict rx s) := by
  unfold Machine.execCommitVerdict
  dsimp only
  split
  · exact .next hk
  · split
    · exact .next hk.takeVerdict
    · exact .ite (.ite (.next hk.updJig) (.next hk.updJig.sendDevice)) (.next hk)

theorem Keeps.execCommitDecision (hk : Keeps s₀ s) {rx : Option (Bool × List Nat)} : NextKeeps s₀ (execCommitDecision rx s) := by
  unfold Machine.execCommitDecision
  dsimp only
  split
  · exact .next hk
  · refine .ite (.next hk) ?_
    split
    · exact .next hk.takeDecision
    · refine .ite ?_ ?_
      · split
        · exact .next (hk.updJig.sendDevice.ite hk.updJig)
        · refine .next (.ite ((hk.updJig.ite hk.updJig.noteCheck).sendDevice) ?_)
          exact hk.updJig.ite hk.updJig.noteCheck
      · exact .next hk

theorem Keeps.detach (hk : Keeps s₀ s) {new : JigPartition} : Keeps s₀ (s.detach new) := by
  unfold State.detach
  dsimp only
  refine hk.upd.each fun _ _ hk1 => ?_
  split
  · exact hk1.endWait.endEntry.ite hk1
  · exact hk1

theorem Keeps.swapCells (hk : Keeps s₀ s) {new : JigPartition} : Keeps s₀ (s.swapCells new) :=
  ((hk.each fun _ _ hk1 => hk1.haltGroup).each fun _ _ hk1 => hk1.setBind.shardFail.ite hk1.setBind).each fun _ _ hk1 => hk1.startClear

theorem Keeps.swap (hk : Keeps s₀ s) {k : Commit} : Keeps s₀ (s.swap k) := by
  unfold State.swap
  dsimp only
  refine .ite ?_ ?_
  · exact (hk.swapCells.detach.updJig.updJig.setRoles.setQuotas.setBands.refill.preemptDma.reroute.updSpn.each fun _ _ hk1 => hk1.event).signAssembly
  · exact hk.swapCells.detach.updJig.updJig.setRoles.setQuotas.setBands.refill.preemptDma.reroute.updSpn.each fun _ _ hk1 => hk1.event

theorem Keeps.execJigSwap (hk : Keeps s₀ s) : NextKeeps s₀ (execJigSwap s) := by
  unfold Machine.execJigSwap
  dsimp only
  split
  · exact .next hk
  · refine .ite ?_ ?_
    · split
      · refine .next ?_
        split
        · exact hk.updJig.swap.updJig.endJig
        · exact hk.updJig.swap.updJig
      · refine .next ?_
        split
        · exact hk.updJig.endJig
        · exact hk.updJig
      · refine .next ?_
        split
        · exact hk.updJig.endJig
        · exact hk.updJig
    · exact .next hk

theorem Keeps.execLiveFieldWrite (hk : Keeps s₀ s) {which : Fin 3} {value : Word64} : NextKeeps s₀ (execLiveFieldWrite which value s) :=
  .next (hk.ifWritable fun _ hk1 => hk1.takeLive)

/-! ### Rounds at their boundaries -/

theorem Keeps.mapRound (hk : Keeps s₀ s) {t h units : Nat} {u : State} (e : s.mapRound t h units = some u) : Keeps s₀ u := by
  unfold State.mapRound at e
  split at e
  · cases e
  next e1 => cases e; exact (hk.takeFrames e1).setUsed.each fun _ _ hk1 => hk1.updPage

theorem Keeps.zeroVA (hk : Keeps s₀ s) {t va n : Nat} : Keeps s₀ (s.zeroVA t va n) :=
  hk.each fun _ _ hk1 => hk1.updRam (ramZero_wf _ _ _ _)

theorem Keeps.startRound (hk : Keeps s₀ s) {h seed : Nat} {r : Round} {keys : Option (List Nat)} {u : State}
    (e : s.startRound h r seed keys = some u) : Keeps s₀ u := by
  unfold State.startRound at e
  extract_lets p need at e
  clear_value need
  split at e
  · cases e
  · split at e
    · cases e
    next e1 =>
      have hm := hk.mapRound e1
      split at e
      · cases e; exact hm.setRound
      · split at e
        next ks v e2 =>
          have hv : Keeps s₀ (ks, v).2 := by
            rw [← e2]
            split
            · exact hm.newKeys
            · exact hm.storeKeys
          cases e
          exact hv.setRound.upd

theorem Keeps.pendOpen (hk : Keeps s₀ s) {h seed : Nat} {r : Round} {keys : Option (List Nat)} {own : Status} :
    Keeps s₀ (s.pendOpen h r seed keys own) := by
  unfold State.pendOpen
  split
  next e =>
    split at e
    · exact hk.startRound e
    · cases e
  · exact hk.setRound

theorem Keeps.execRoundOpen (hk : Keeps s₀ s) {c : Cmd} {busyElsewhere : List Nat} : NextKeeps s₀ (execRoundOpen c busyElsewhere s) := by
  unfold Machine.execRoundOpen
  refine .next (hk.command fun u hk1 => ?_)
  extract_lets t plain b n tn tb r r' own
  split
  · exact hk1.fail
  · exact hk1.fail
  · split
    · exact hk1.fail
    · split
      · exact hk1.fail
      · refine .ite hk1.fail ?_
        have hd := hk1.draw
        clear_value r' own
        split
        next e => 
          rw [e] at hd
          exact hd.pendOpen.sendDevice.ite hd.pendOpen.setRound

theorem Keeps.takeRoundNotice (hk : Keeps s₀ s) {c : Cmd} {block table : List Byte} {h : Handle} {seed bOpen : Nat} {repaired keys : List Nat} :
    Keeps s₀ (s.takeRoundNotice c block table h seed bOpen repaired keys) := hk.pendOpen.ite hk.sendDevice

theorem Keeps.writeStatement (hk : Keeps s₀ s) {h : Nat} : Keeps s₀ (s.writeStatement h) := hk.writeSigned.ite hk

theorem Keeps.execRoundOpenBoundary (hk : Keeps s₀ s) {h : Handle} : NextKeeps s₀ (execRoundOpenBoundary h s) := by
  unfold Machine.execRoundOpenBoundary
  dsimp only
  split
  · exact .next hk
  · refine .ite (.next hk) ?_
    refine .ite (.next hk.cancelOpen) ?_
    exact .next (hk.zeroVA.updRound.writeStatement.each fun _ _ hk1 => hk1.complete)

theorem Keeps.execRoundSetDeadline (hk : Keeps s₀ s) {c : Cmd} : NextKeeps s₀ (execRoundSetDeadline c s) := by
  unfold Machine.execRoundSetDeadline
  dsimp only
  refine .next (hk.command fun _ hk1 => ?_)
  split
  · exact hk1.fail
  · exact hk1.fail
  · exact hk1.updRound.sendDevice.ite hk1.updRound

theorem Keeps.execDeadlineChange (hk : Keeps s₀ s) {h : Handle} : NextKeeps s₀ (execDeadlineChange h s) := by
  unfold Machine.execDeadlineChange
  dsimp only
  split
  · exact .next hk
  · refine .ite ?_ ?_
    · refine .ite ?_ ?_
      · exact .next (hk.updRound.updRound.writeStatement.each fun _ _ hk1 => hk1.ok)
      · exact .next (hk.updRound.each fun _ _ hk1 => hk1.fail)
    · exact .next hk

theorem Keeps.writeDirectories (hk : Keeps s₀ s) {h : Nat} : Keeps s₀ (s.writeDirectories h) := hk.ite (hk.each fun _ _ hk1 => hk1.writeVA)

theorem Keeps.execCollectStart (hk : Keeps s₀ s) {h : Handle} {peersCover : Bool} : NextKeeps s₀ (execCollectStart h peersCover s) :=
  .ite (.ite (.next hk.writeDirectories.updRound) (.next hk.abortRound)) (.next hk)

theorem Keeps.execDeadline (hk : Keeps s₀ s) {h : Handle} : NextKeeps s₀ (execDeadline h s) := .ite (.next hk.updRound) (.next hk)

theorem Keeps.sendFreeze (hk : Keeps s₀ s) {h : Nat} : Keeps s₀ (s.sendFreeze h) := by
  unfold State.sendFreeze
  dsimp only
  refine hk.each fun _ _ hk1 => ?_
  split
  · exact hk1
  · exact (hk1.each fun _ _ hk2 => hk2.sendData).ite hk1.sendData

theorem Keeps.execFreezeExchange (hk : Keeps s₀ s) {h : Handle} {incompleteElsewhere someElsewhere : List Nat} {twinDrained : Bool}
    {homes : List HomeSets} :
    NextKeeps s₀ (execFreezeExchange h incompleteElsewhere someElsewhere s twinDrained homes) := .ite (.next hk.updRound.sendFreeze) (.next hk)

theorem Keeps.runDesc (hk : Keeps s₀ s) {t d h : Nat} {x : Desc} : Keeps s₀ (s.runDesc t d h x).1 := by
  unfold State.runDesc
  dsimp only
  exact hk.dmaBeats

theorem Keeps.writeTile (hk : Keeps s₀ s) {b : Nat} : Keeps s₀ (s.writeTile b).1 := by
  unfold State.writeTile
  dsimp only
  split
  · exact hk
  · exact hk.runDesc.setBind.ite hk.runDesc

theorem Keeps.placeTile (hk : Keeps s₀ s) {b i : Nat} : Keeps s₀ (s.placeTile b i).1 := by
  unfold State.placeTile
  dsimp only
  split
  · exact hk
  · split
    next e => exact hk.writeTile.ofFst e
    next e =>
      have hw := hk.writeTile.ofFst e
      exact hw.runDesc.setBind.ite hw.runDesc

theorem Keeps.execAggBindEnable (hk : Keeps s₀ s) {fn : FnId} {e : Fin 256} {value : Word64} :
    NextKeeps s₀ (execAggBindEnable fn e value s) := by
  unfold Machine.execAggBindEnable
  dsimp only
  refine .next (hk.ifWritable fun _ hk1 => ?_)
  split
  · exact hk1.windowMiss
  · split
    · exact hk1.discarded
    · split
      · exact hk1.setBind
      · exact hk1.setBind.placeTile.ite hk1.setBind

theorem Keeps.execAggBindDisable (hk : Keeps s₀ s) {fn : FnId} {e : Fin 256} : NextKeeps s₀ (execAggBindDisable fn e s) :=
  .next (hk.ifWritable fun _ hk1 => hk1.windowMiss.ite (hk1.ite (hk1.setBind.ite hk1.discarded)))

theorem Keeps.execBatchDispatch (hk : Keeps s₀ s) {e : Fin 256} : NextKeeps s₀ (execBatchDispatch e s) := by
  unfold Machine.execBatchDispatch
  dsimp only
  split
  · exact .next hk
  · refine .ite ?_ ?_
    · split
      next u1 _ e1 =>
        exact .next (hk.ite ((hk.placeTile.ofFst e1).shardFail))
      next u1 e1 =>
        exact .next ((hk.placeTile.ofFst e1).setBind.updRound.updCell.signalToken)
    · exact .next hk

/-! ### Ingest -/

theorem Keeps.updIngest (hk : Keeps s₀ s) {e : Nat} {f : Ingest → Ingest} : Keeps s₀ (s.updIngest e f) := hk.upd
theorem Keeps.dropMessage (hk : Keeps s₀ s) {e : Nat} : Keeps s₀ (s.dropMessage e) := hk.updIngest
theorem Keeps.receipt (hk : Keeps s₀ s) {m : MsgHeader} {st : Status} {mirrored : Bool} : Keeps s₀ (s.receipt m st mirrored) := hk.emit

theorem Keeps.forward (hk : Keeps s₀ s) {x : ClientMsg} {owner member : Nat} : Keeps s₀ (s.forward x owner member) := by
  unfold State.forward
  dsimp only
  split
  · exact hk
  · exact hk.each fun _ _ hk1 => hk1.sendFrame

theorem Keeps.countRefuse (hk : Keeps s₀ s) {h : Nat} {st : Status} : Keeps s₀ (s.countRefuse h st) := hk.updRound
theorem Keeps.refuse (hk : Keeps s₀ s) {h : Nat} {m : MsgHeader} {st : Status} : Keeps s₀ (s.refuse h m st) := hk.countRefuse.receipt

theorem Keeps.ingest (hk : Keeps s₀ s) {p : PortId} {x : ClientMsg} {ty : Nat} {rest : State → Nat → State}
    (hrest : ∀ u x0, Keeps s₀ u → Keeps s₀ (rest u x0)) :
    Keeps s₀ (s.ingest p x ty rest) := by
  unfold State.ingest
  dsimp only
  refine .ite hk ?_
  split
  · exact hk.dropMessage
  · refine .ite hk ?_
    refine .ite hk.updIngest.dropMessage ?_
    split
    · exact hk.updIngest.dropMessage
    · split
      · exact hk.updIngest.refuse
      · exact (hrest _ _ hk.updIngest).ite hk.updIngest.forward
      · exact hrest _ _ hk.updIngest

theorem Keeps.acceptKeyex (hk : Keeps s₀ s) {h : Nat} {x : ClientMsg} : Keeps s₀ (s.acceptKeyex h x) :=
  ((hk.each fun _ _ hk1 => hk1.countKey).updRound.each fun _ _ hk1 => hk1.sendTo).receipt

theorem Keeps.execKeyex (hk : Keeps s₀ s) {p : PortId} {head payload : List Byte} {seen : MsgSeen} {maskKeyValid : Bool} :
    NextKeeps s₀ (execKeyex p head payload seen maskKeyValid s) := by
  unfold Machine.execKeyex
  dsimp only
  refine .next (hk.ingest fun _ _ hk1 => ?_)
  split
  · exact hk1.refuse
  · exact hk1.acceptKeyex

theorem Keeps.execWrappedSessionKey (hk : Keeps s₀ s) {h : Handle} {client wrapped : Nat} :
    NextKeeps s₀ (execWrappedSessionKey h client wrapped s) := .ite (.next hk.updRound) (.next hk)

theorem Keeps.takeBin (hk : Keeps s₀ s) {h c j : Nat} {b : Bin} {u : State} (e : s.takeBin h c j = some (b, u)) : Keeps s₀ u := by
  unfold State.takeBin at e
  dsimp only at e
  split at e
  · cases e; exact hk
  · split at e
    · cases e
    · cases e; exact hk.zeroVA.updRound

theorem Keeps.fillBin (hk : Keeps s₀ s) {h : Nat} {b : Bin} {elements : List Nat} : Keeps s₀ (s.fillBin h b elements) := by
  unfold State.fillBin
  dsimp only
  exact hk.writeVA.updRound

theorem Keeps.takeChunk (hk : Keeps s₀ s) {h : Nat} {m : MsgHeader} {elements : List Nat} {u : State}
    (e : s.takeChunk h m elements = some u) : Keeps s₀ u := by
  unfold State.takeChunk at e
  dsimp only at e
  split at e
  · cases e; exact hk.updRound
  · obtain ⟨⟨b, v⟩, e1, rfl⟩ := Option.map_eq_some_iff.1 e
    exact (hk.takeBin e1).fillBin.updRound

theorem Keeps.mirror (hk : Keeps s₀ s) {h twin chunk : Nat} {x : ClientMsg} : Keeps s₀ (s.mirror h twin chunk x) := hk.updRound.sendData

theorem Keeps.mirrorAck (hk : Keeps s₀ s) {h client chunk : Nat} : Keeps s₀ (s.mirrorAck h client chunk) := by
  unfold State.mirrorAck
  dsimp only
  split
  · exact hk.sendTo
  · exact hk

theorem Keeps.execContrib (hk : Keeps s₀ s) {p : PortId} {x : ClientMsg} {abortedElsewhere : Bool} :
    NextKeeps s₀ (execContrib p x abortedElsewhere s) := by
  unfold Machine.execContrib
  dsimp only
  refine .next (hk.ingest fun _ _ hk1 => ?_)
  split
  · exact hk1.refuse
  · split
    · split
      next u2 e2 =>
        exact (hk1.takeChunk e2).receipt
      · exact hk
    · refine .ite hk ?_
      split
      · exact hk
      next u2 e2 =>
        exact (hk1.takeChunk e2).mirror

theorem Keeps.execContribMirror (hk : Keeps s₀ s) {head payload : List Byte} : NextKeeps s₀ (execContribMirror head payload s) := by
  unfold Machine.execContribMirror
  dsimp only
  split
  · exact .next hk
  · refine .ite (.next hk) ?_
    refine .ite (.next hk.countRefuse.mirrorAck) ?_
    refine .next ?_
    split
    next u1 e1 =>
      exact (hk.takeChunk e1).mirrorAck
    · exact hk

theorem Keeps.execMirrorAck (hk : Keeps s₀ s) {h : Handle} {client chunk : Nat} : NextKeeps s₀ (execMirrorAck h client chunk s) := by
  unfold Machine.execMirrorAck
  dsimp only
  split
  · exact .next hk
  · exact .next hk.updRound.emit

theorem Keeps.execAbortMsg (hk : Keeps s₀ s) {p : PortId} {head payload : List Byte} {seen : MsgSeen} {elsewhere : Bool} :
    NextKeeps s₀ (execAbortMsg p head payload seen elsewhere s) := by
  unfold Machine.execAbortMsg
  dsimp only
  refine .next (hk.ingest fun _ _ hk1 => ?_)
  split
  · exact hk1.refuse
  · exact hk1.refuse.ite hk1.updRound.event.receipt

/-! ### Unmasking -/

theorem Keeps.gatherBatch (hk : Keeps s₀ s) {h c j : Nat} {l : List (List Nat)} : Keeps s₀ (s.gatherBatch h c j l) := by
  unfold State.gatherBatch
  dsimp only
  exact hk.zeroVA.writeVA.updRound

theorem Keeps.gatherHeld (hk : Keeps s₀ s) {h : Nat} : Keeps s₀ (s.gatherHeld h) := by
  unfold State.gatherHeld
  dsimp only
  refine .ite hk ?_
  exact hk.each fun _ _ hk1 => hk1.each fun _ _ hk2 => hk2.each fun _ _ hk3 => hk3.gatherBatch

theorem Keeps.armDelivery (hk : Keeps s₀ s) {h : Nat} : Keeps s₀ (s.armDelivery h) := hk.updRound

theorem Keeps.execUnmaskingEntry (hk : Keeps s₀ s) {h : Handle} : NextKeeps s₀ (execUnmaskingEntry h s) := by
  unfold Machine.execUnmaskingEntry
  dsimp only
  refine .ite ?_ ?_
  · refine .next (.ite ?_ ?_)
    · exact (hk.updRound.each fun _ _ hk1 => hk1.setBind).gatherHeld.armDelivery.event
    · exact (hk.updRound.each fun _ _ hk1 => hk1.setBind).gatherHeld
  · exact .next hk

theorem Keeps.execShareEnd (hk : Keeps s₀ s) {h : Handle} : NextKeeps s₀ (execShareEnd h s) := .ite (.next hk.updRound) (.next hk)
theorem Keeps.refuseShare (hk : Keeps s₀ s) {h : Nat} {m : MsgHeader} {st : Status} : Keeps s₀ (s.refuseShare h m st) := hk.updRound.receipt

theorem Keeps.execShare (hk : Keeps s₀ s) {p : PortId} {text : MsgText} {seen : MsgSeen} : NextKeeps s₀ (execShare p text seen s) := by
  unfold Machine.execShare
  dsimp only
  refine .next (hk.ingest fun _ _ hk1 => ?_)
  split
  · exact hk1.refuse
  · split
    · exact hk1.refuseShare
    · split
      · exact hk1.updRound.receipt
      · exact hk1.updRound.mirror

theorem Keeps.execShareMirror (hk : Keeps s₀ s) {head payload : List Byte} : NextKeeps s₀ (execShareMirror head payload s) := by
  unfold Machine.execShareMirror
  dsimp only
  split
  · exact .next hk
  · exact .ite (.next hk.updRound.mirrorAck) (.next hk)

theorem Keeps.sendSeeds (hk : Keeps s₀ s) {h c : Nat} : Keeps s₀ (s.sendSeeds h c) := hk.each fun _ _ hk1 => hk1.sendData

theorem Keeps.execSeedReconstruction (hk : Keeps s₀ s) {h : Handle} {cohort : Nat} {keysMatch : Bool} :
    NextKeeps s₀ (execSeedReconstruction h cohort keysMatch s) := by
  unfold Machine.execSeedReconstruction
  dsimp only
  exact .ite (.next hk.setRound.sendSeeds) (.next hk)

theorem Keeps.execSeedDistribution (hk : Keeps s₀ s) {h : Handle} {cohort : Nat} {seeds : List (Nat × Nat × Nat)} {discard : Option Nat} :
    NextKeeps s₀ (execSeedDistribution h cohort seeds discard s) := .ite (.next hk.updRound) (.next hk)

theorem Keeps.execRoundUnmask (hk : Keeps s₀ s) {c : Cmd} : NextKeeps s₀ (execRoundUnmask c s) := by
  unfold Machine.execRoundUnmask
  dsimp only
  refine .next (hk.command fun _ hk1 => ?_)
  split
  · exact hk1.fail
  · exact hk1.fail
  · exact hk1.updRound.sendDevice.ite hk1.updRound

theorem Keeps.execDeliveryArm (hk : Keeps s₀ s) {h : Handle} : NextKeeps s₀ (execDeliveryArm h s) := by
  unfold Machine.execDeliveryArm
  split
  · exact .ite (.next hk.armDelivery) (.next hk)
  · exact .next hk

theorem Keeps.execStreamDelivery (hk : Keeps s₀ s) {e : Fin 256} : NextKeeps s₀ (execStreamDelivery e s) := by
  unfold Machine.execStreamDelivery
  dsimp only
  refine .ite (.next hk) ?_
  split
  · refine .ite (.next hk) ?_
    split
    next u1 _ e1 =>
      exact .next (hk.ite ((hk.writeTile.ofFst e1).shardFail))
    next u1 e1 =>
      exact .next (hk.writeTile.ofFst e1)
  · split
    · exact .next hk
    · refine .ite (.next hk) ?_
      split
      next u1 _ e1 =>
        exact .next (hk.ite ((hk.placeTile.ofFst e1).shardFail))
      next u1 e1 =>
        exact .next ((hk.placeTile.ofFst e1).setBind.updCell.signalToken)

theorem Keeps.writeTotal (hk : Keeps s₀ s) {h : Nat} {x : Nat × List Nat} : Keeps s₀ (s.writeTotal h x) := by
  unfold State.writeTotal
  dsimp only
  split
  · exact hk
  · split
    · exact hk.updCell
    · exact hk.writeVA

theorem Keeps.chargeGate (hk : Keeps s₀ s) {h n : Nat} : Keeps s₀ (s.chargeGate h n) := hk.setDmaBudget

theorem Keeps.execGatePass (hk : Keeps s₀ s) {h : Handle} : NextKeeps s₀ (execGatePass h s) := by
  unfold Machine.execGatePass
  dsimp only
  refine .ite (.next hk) ?_
  refine .ite (.next hk.updRound.reportGate) ?_
  refine .ite (.next hk) ?_
  refine .next ?_
  split
  · exact (hk.chargeGate.each fun _ _ hk1 => hk1.writeTotal).updRound.reportGate
  · exact (hk.chargeGate.each fun _ _ hk1 => hk1.writeTotal).updRound.sendData

theorem Keeps.execReplicaCompare (hk : Keeps s₀ s) {h : Handle} {twin : List Digest} : NextKeeps s₀ (execReplicaCompare h twin s) :=
  .ite (.next ((hk.updRound.ite hk.shardFail).reportGate)) (.next hk)

theorem Keeps.execSummedAnnounce (hk : Keeps s₀ s) {h : Handle} : NextKeeps s₀ (execSummedAnnounce h s) :=
  .ite (.next hk.updRound.sendDevice) (.next hk)

/-! ### Release -/

theorem Keeps.execRoundCommit (hk : Keeps s₀ s) {c : Cmd} : NextKeeps s₀ (execRoundCommit c s) := by
  unfold Machine.execRoundCommit
  dsimp only
  refine .next (hk.command fun _ hk1 => ?_)
  split
  · exact hk1.fail
  · exact hk1.fail
  · split
    · exact hk1.acceptCommit
    · exact hk1.updRound

theorem Keeps.execRoundAbort (hk : Keeps s₀ s) {c : Cmd} : NextKeeps s₀ (execRoundAbort c s) := by
  unfold Machine.execRoundAbort
  dsimp only
  refine .next (hk.command fun _ hk1 => ?_)
  split
  · exact hk1.fail
  · exact hk1.fail
  · exact hk1.ok.ite (hk1.updRound.sendDevice.ite hk1.updRound)

theorem Keeps.execRoundFree (hk : Keeps s₀ s) {h : Handle} : NextKeeps s₀ (execRoundFree h s) := by
  unfold Machine.execRoundFree
  dsimp only
  split
  · exact .next hk
  · exact .ite (.next ((hk.each fun _ _ hk1 => hk1.zeroKey).setRound)) (.next hk)

theorem Keeps.execRoundMemoryZeroing (hk : Keeps s₀ s) {h : Handle} : NextKeeps s₀ (execRoundMemoryZeroing h s) := by
  unfold Machine.execRoundMemoryZeroing
  dsimp only
  split
  · exact .next hk
  · exact .next (hk.each fun _ _ hk1 => hk1.setUsed.updRam (ramZero_wf _ _ _ _)).upd

theorem Keeps.obtainSeed (hk : Keeps s₀ s) {h : Nat} {u : State} (e : s.obtainSeed h = some u) : Keeps s₀ u := by
  unfold State.obtainSeed at e
  dsimp only at e
  split at e
  · cases e; exact hk
  · split at e
    · cases e
    · split at e
      · cases e
      · cases e
        refine (Keeps.setKey ?_).updRound
        split
        · exact hk.draw
        · exact hk.countKey

theorem Keeps.compareNoise (hk : Keeps s₀ s) {h : Nat} : Keeps s₀ (s.compareNoise h) := by
  unfold State.compareNoise
  dsimp only
  split
  · exact (hk.reportAgree.ite hk.shardFail.reportAgree).ite hk
  · exact hk

theorem Keeps.sendNoiseDigest (hk : Keeps s₀ s) {h : Nat} : Keeps s₀ (s.sendNoiseDigest h) := by
  unfold State.sendNoiseDigest
  split
  · exact hk.reportAgree
  · exact hk.sendDevice.compareNoise

theorem Keeps.startRelease (hk : Keeps s₀ s) {h : Nat} : Keeps s₀ (s.startRelease h) := by
  unfold State.startRelease
  dsimp only
  refine .ite hk.updRound.reportAgree ?_
  refine .ite ?_ ?_
  · split
    · exact hk.updRound.reportAgree
    next u1 e1 =>
      refine .sendNoiseDigest ?_
      split
      · exact (hk.updRound.obtainSeed e1).ite ((hk.updRound.obtainSeed e1).sendDevice)
      · exact hk.updRound.obtainSeed e1
  · exact hk.updRound.sendNoiseDigest.ite hk.updRound

theorem Keeps.takeNoiseSeed (hk : Keeps s₀ s) {h seed : Nat} : Keeps s₀ (s.takeNoiseSeed h seed) := by
  unfold State.takeNoiseSeed
  dsimp only
  refine .ite hk ?_
  split
  · exact hk.reportAgree
  · exact hk.reportAgree.ite (hk.setKey.setRound.sendNoiseDigest.ite hk.setKey.setRound)

theorem Keeps.execRoundRelease (hk : Keeps s₀ s) {c : Cmd} {peersRefuse : Bool} : NextKeeps s₀ (execRoundRelease c peersRefuse s) := by
  unfold Machine.execRoundRelease
  dsimp only
  refine .next (hk.command fun _ hk1 => ?_)
  split
  · exact hk1.fail
  · exact hk1.fail
  · exact (hk1.updRound.sendDevice.ite hk1.updRound).startRelease

theorem Keeps.sendTotal (hk : Keeps s₀ s) {r : Round} {j : Nat} {bs : List Byte} : Keeps s₀ (s.sendTotal r j bs) :=
  (hk.each fun _ _ hk1 => hk1.emit).setEp

theorem Keeps.writeShard (hk : Keeps s₀ s) {target : Round} {h : Nat} : Keeps s₀ (s.writeShard target h) :=
  hk.each fun _ _ hk1 => hk1.writeVA.ite hk1.sendTotal

theorem Keeps.execReleaseWrite (hk : Keeps s₀ s) {h : Handle} {failure : Option Status} : NextKeeps s₀ (execReleaseWrite h failure s) := by
  unfold Machine.execReleaseWrite
  dsimp only
  refine .ite (.next hk) ?_
  refine .ite (.next hk.updRound) ?_
  split
  · exact .next hk.reportWrite
  · exact .next ((hk.each fun _ _ hk1 => hk1.writeShard).reportWrite)

/-! ### The fabric -/

theorem Keeps.portEvent (hk : Keeps s₀ s) {p : Nat} : Keeps s₀ (s.portEvent p) := hk.event

theorem Keeps.portOut (hk : Keeps s₀ s) {p reason : Nat} : Keeps s₀ (s.portOut p reason) :=
  hk.updPort.portEvent.loseUpstream.ite hk.updPort.portEvent

theorem Keeps.portCause (hk : Keeps s₀ s) {p reason : Nat} : Keeps s₀ (s.portCause p reason) := hk.ite hk.portOut

theorem Keeps.execLaneFailure (hk : Keeps s₀ s) {p : PortId} {lane : Fin 4} {fecUncorr : Nat} :
    NextKeeps s₀ (execLaneFailure p lane fecUncorr s) := .next (hk.updPort.portCause.ite hk.updPort)

theorem Keeps.execLaserInputLow (hk : Keeps s₀ s) {p : PortId} : NextKeeps s₀ (execLaserInputLow p s) := .next hk.updPort.portCause
theorem Keeps.setLaser (hk : Keeps s₀ s) {m : Nat} {v : Laser} : Keeps s₀ (s.setLaser m v) := hk.updFab

theorem Keeps.execLaserFault (hk : Keeps s₀ s) {m : Fin 4} : NextKeeps s₀ (execLaserFault m s) :=
  .next (hk.setLaser.each fun _ _ hk1 => hk1.portCause)

theorem Keeps.portWrite (hk : Keeps s₀ s) {fn p : Nat} {f : State → State} (hf : ∀ u, Keeps s₀ u → Keeps s₀ (f u)) :
    Keeps s₀ (s.portWrite fn p f) := hk.ifWritable fun _ hk2 => hk2.windowMiss.ite (hf _ hk2)

theorem Keeps.execTakeOut (hk : Keeps s₀ s) {fn : FnId} {p : PortId} : NextKeeps s₀ (execTakeOut fn p s) :=
  .next (hk.portWrite fun _ hk1 => hk1.portCause)

theorem Keeps.execReadmit (hk : Keeps s₀ s) {fn : FnId} {p : PortId} : NextKeeps s₀ (execReadmit fn p s) :=
  .next (hk.portWrite fun _ hk1 => hk1.updPort.ite hk1)

theorem Keeps.execPortUp (hk : Keeps s₀ s) {p : PortId} {delayPs : Nat} : NextKeeps s₀ (execPortUp p delayPs s) := by
  unfold Machine.execPortUp
  dsimp only
  refine .ite ?_ ?_
  · refine .next (.portEvent (.ite ((hk.setPort.setLaser.updSpn.ite hk.setPort.setLaser).updSpn) ?_))
    exact hk.setPort.setLaser.updSpn.ite hk.setPort.setLaser
  · exact .next hk

theorem Keeps.linkKeys (hk : Keeps s₀ s) {p shared : Nat} : Keeps s₀ (s.linkKeys p shared).2 := by
  unfold State.linkKeys
  dsimp only
  exact hk.newKeys.each fun _ _ hk1 => hk1.setKey

theorem Keeps.execLinkKeyExchange (hk : Keeps s₀ s) {p : PortId} {sig : SigPair} {fingerprint : Digest} {shared : Nat} :
    NextKeeps s₀ (execLinkKeyExchange p sig fingerprint shared s) := by
  unfold Machine.execLinkKeyExchange
  dsimp only
  refine .ite (.next hk) ?_
  refine .ite (.next hk.updPort.portOut) ?_
  exact .next ((hk.countKey.countKey.ite (hk.countKey.countKey.each fun _ _ hk1 => hk1.zeroKey)).linkKeys.updPort.emit)

theorem Keeps.execLinkReplay (hk : Keeps s₀ s) {p : PortId} : NextKeeps s₀ (execLinkReplay p s) :=
  .ite (.next (hk.updPort.each fun _ _ hk1 => hk1.emit)) (.next hk)

theorem Keeps.dropFrame (hk : Keeps s₀ s) {p : Nat} {why : EthDrop} : Keeps s₀ (s.dropFrame p why) := hk.updPort

theorem Keeps.ethRx (hk : Keeps s₀ s) {p bytes : Nat} {f : State → State} (hf : ∀ u, Keeps s₀ u → Keeps s₀ (f u)) :
    Keeps s₀ (s.ethRx p bytes f) := (hf _ hk.rxFrame).ite hk

theorem Keeps.execEthFrameDrop (hk : Keeps s₀ s) {p : PortId} {why : EthDrop} : NextKeeps s₀ (execEthFrameDrop p why s) :=
  .next (hk.ethRx fun _ hk1 => hk1.dropFrame)

theorem Keeps.execNeighborSolicitation (hk : Keeps s₀ s) {p : PortId} {target from_ : Nat} :
    NextKeeps s₀ (execNeighborSolicitation p target from_ s) := .next (hk.ethRx fun _ hk1 => hk1.sendSlot0.ite hk1.dropFrame)

theorem Keeps.execEchoRequest (hk : Keeps s₀ s) {p : PortId} {dst from_ : Nat} {data : List Byte} :
    NextKeeps s₀ (execEchoRequest p dst from_ data s) := .next (hk.ethRx fun _ hk1 => hk1.sendSlot0.ite hk1.dropFrame)

theorem Keeps.sendOnward (hk : Keeps s₀ s) {f : SchedFrame} : Keeps s₀ (s.sendOnward f) := by
  unfold State.sendOnward
  split
  · exact hk.sendFrame
  · exact hk

theorem Keeps.pushAnswer (hk : Keeps s₀ s) {e member key : Nat} {st : Status} : Keeps s₀ (s.pushAnswer e member key st) := by
  unfold State.pushAnswer
  dsimp only
  split
  · exact hk
  · exact hk.updEp.reqDone.tryPark.ite hk.updEp

theorem Keeps.landPush (hk : Keeps s₀ s) {f : SchedFrame} : OkKeeps s₀ (s.landPush f) := by
  unfold State.landPush
  dsimp only
  split
  · exact .error
  · exact .error
  · split
    · exact .error
    · exact .ok hk.land

theorem Keeps.takePush (hk : Keeps s₀ s) {f : SchedFrame} : Keeps s₀ (s.takePush f) := by
  unfold State.takePush
  split
  next u now e =>
    have hu : Keeps s₀ u := by
      split at e
      next e1 => cases e; exact hk.landPush.state e1
      · cases e; exact hk
    dsimp only
    split
    · exact hu.updFab.sendTo
    · split
      · exact hu.updFab
      · exact hu

theorem Keeps.execScheduledFrame (hk : Keeps s₀ s) {f : SchedFrame} : NextKeeps s₀ (execScheduledFrame f s) := by
  unfold Machine.execScheduledFrame
  dsimp only
  refine .next (.ite hk ?_)
  refine .ite hk.updPort ?_
  refine .ite hk ?_
  refine .ite hk.rxFrame.updPort.countGone ?_
  refine .ite hk.rxFrame.updPort.sendOnward ?_
  refine .ite hk.rxFrame.updPort ?_
  split
  · exact hk.rxFrame.updPort.pushAnswer
  · exact hk.rxFrame.updPort.takePush

theorem Keeps.fromCoord (hk : Keeps s₀ s) {f : State → State} (hf : ∀ u, Keeps s₀ u → Keeps s₀ (f u)) : Keeps s₀ (s.fromCoord f) :=
  hk.ite (hf _ hk)

theorem Keeps.takeDevice (hk : Keeps s₀ s) {a1 : DeviceMsg} : Keeps s₀ (s.takeDevice a1) := by
  unfold State.takeDevice
  dsimp only
  split
  · exact hk.updSpn
  · exact hk.updSpn
  · exact hk.armBarrier.ite hk
  · exact hk.fromCoord fun _ hk1 => hk1.takeNotice
  · exact hk.takeVerdict
  · exact hk.takeDecision
  · exact hk.fromCoord fun _ hk1 => hk1.takeRoundNotice
  · exact hk.takeOpenVerdict
  · exact hk.fromCoord fun _ hk1 => hk1.updRound
  · exact hk.fromCoord fun _ hk1 => hk1.updRound
  · exact hk.fromCoord fun _ hk1 => hk1.updRound
  · exact hk.updRound
  · exact hk.updRound.ite hk
  · exact hk.fromCoord fun _ hk1 => hk1.updRound
  · exact hk.fromCoord fun _ hk1 => hk1.startRelease.ite hk1
  · exact hk.takeNoiseSeed.ite hk
  · exact hk.updRound.compareNoise.ite hk
  · exact hk.noteAgree.ite hk
  · exact hk.fromCoord fun _ hk1 => hk1.updRound
  · exact hk.noteWrite.ite hk
  · exact hk.fromCoord fun _ hk1 => hk1.updRound
  · exact hk.updSpn.ite (hk.ite hk.updSpn)
  · exact hk.updSpn.declareLost.ite hk
  · exact hk.fromCoord fun _ hk1 => hk1.takeTenantNotice
  · exact hk.takeTenantVerdict
  · exact hk.fromCoord fun _ hk1 => hk1.updCreating
  · exact hk.fromCoord fun _ hk1 => hk1.takeTenantRemove
  · exact hk.flrTenant.ite hk
  · exact hk.noteRemoved.ite hk
  · exact hk.fromCoord fun _ hk1 => hk1.updSec
  · exact hk.updSpn.ite hk

theorem Keeps.execDeviceFrame (hk : Keeps s₀ s) {p : PortId} {m : DeviceMsg} : NextKeeps s₀ (execDeviceFrame p m s) :=
  .ite (.next hk) (.next hk.rxFrame.takeDevice)

theorem Keeps.execFenceFrame (hk : Keeps s₀ s) {p : PortId} {t : TenantId} : NextKeeps s₀ (execFenceFrame p t s) :=
  .ite (.next hk) (.next hk.rxFrame.emit)

/-! ### The queues of the host interface -/

theorem Keeps.execCommandFetch (hk : Keeps s₀ s) {fn : FnId} {qp : PortId} {raw : List Byte} : NextKeeps s₀ (execCommandFetch fn qp s raw) := by
  unfold Machine.execCommandFetch
  dsimp only
  refine .ite (.next hk) ?_
  split
  · exact .next hk.setQueue.upd.fail
  · exact .next hk.setQueue.upd

theorem Keeps.queueEnable (hk : Keeps s₀ s) {w f n v : Nat} : Keeps s₀ (s.queueEnable w f n v) := hk.discarded.ite hk.setQueue
theorem Keeps.queueDisable (hk : Keeps s₀ s) {f n : Nat} : Keeps s₀ (s.queueDisable f n) := hk.setQueue
theorem Keeps.queueTail (hk : Keeps s₀ s) {w f n v : Nat} : Keeps s₀ (s.queueTail w f n v) := hk.setQueue.ite hk.discarded
theorem Keeps.queueHead (hk : Keeps s₀ s) {w f n v : Nat} : Keeps s₀ (s.queueHead w f n v) := hk.setQueue.ite hk.discarded

theorem Keeps.execHifQEnable (hk : Keeps s₀ s) {fn : FnId} {q : PortId} {value : Word64} : NextKeeps s₀ (execHifQEnable fn q value s) :=
  .next (hk.ifWritable fun _ hk1 => hk1.queueEnable)

theorem Keeps.execHifQDisable (hk : Keeps s₀ s) {fn : FnId} {q : PortId} : NextKeeps s₀ (execHifQDisable fn q s) :=
  .next (hk.ifWritable fun _ hk1 => hk1.queueDisable)

theorem Keeps.execHifSqDoorbell (hk : Keeps s₀ s) {fn : FnId} {q : PortId} {tail : Nat} : NextKeeps s₀ (execHifSqDoorbell fn q tail s) :=
  .next (hk.ifWritable fun _ hk1 => hk1.queueTail)

theorem Keeps.execHifCqDoorbell (hk : Keeps s₀ s) {fn : FnId} {q : PortId} {head : Nat} : NextKeeps s₀ (execHifCqDoorbell fn q head s) :=
  .next (hk.ifWritable fun _ hk1 => hk1.queueHead)

theorem Keeps.execVectorUnmask (hk : Keeps s₀ s) {fn : FnId} {vector : Fin 64} : NextKeeps s₀ (execVectorUnmask fn vector s) :=
  .ite (.next hk.upd.upd.interrupt) (.next hk.upd)

theorem Keeps.execHeartbeat (hk : Keeps s₀ s) {fn : FnId} : NextKeeps s₀ (execHeartbeat fn s) :=
  .next (hk.ifWritable fun _ hk1 => hk1.upd.ite hk1)

theorem Keeps.execHifResetCold (hk : Keeps s₀ s) {value : Word64} : NextKeeps s₀ (execHifResetCold value s) :=
  .next (hk.ifWritable fun _ hk1 => hk1.upd.ite hk1.discarded)

theorem Keeps.execHifResetWarm (hk : Keeps s₀ s) {value : Word64} : NextKeeps s₀ (execHifResetWarm value s) :=
  .next (hk.ifWritable fun _ hk1 => hk1.upd.ite hk1.discarded)

theorem Keeps.execCxlLinkUp (hk : Keeps s₀ s) {width : Nat} {fast : Bool} : NextKeeps s₀ (execCxlLinkUp width fast s) :=
  .ite (.next hk.upd) (.next hk)

theorem Keeps.execCxlLinkDown (hk : Keeps s₀ s) : NextKeeps s₀ (execCxlLinkDown s) := .next hk.upd
theorem Keeps.execIdeKm (hk : Keeps s₀ s) {io cm : Bool} : NextKeeps s₀ (execIdeKm io cm s) := .ite (.next hk.upd) (.next hk)

theorem Keeps.execSpdmMessage (hk : Keeps s₀ s) {request : Nat} : NextKeeps s₀ (execSpdmMessage request s) :=
  .ite (.next hk.emit.upd) (.ite (.next hk.emit.upd) (.next hk.emit))

theorem Keeps.execHostExchWrite (hk : Keeps s₀ s) {addr : Nat} {data : List Byte} : NextKeeps s₀ (execHostExchWrite addr data s) := by
  unfold Machine.execHostExchWrite
  split
  · exact .next hk
  · split
    · split
      · exact .next hk.upd.discarded
      · exact .next (hk.updRam (ramWrite_wf _ _ _))
    · exact .next (hk.updRam (ramWrite_wf _ _ _))

theorem Keeps.execHostExchRead (hk : Keeps s₀ s) {addr len : Nat} {ue : Bool} : NextKeeps s₀ (execHostExchRead addr len ue s) := by
  unfold Machine.execHostExchRead
  dsimp only
  refine .ite (.next hk) ?_
  refine .ite (.next hk.upd.emit) ?_
  refine .ite ?_ ?_
  · refine .next (.emit ?_)
    split <;> exact hk.upd.memUe
  · exact .next hk.emit

/-! ### Operations of rings -/

theorem Keeps.execRingMacro (hk : Keeps s₀ s) {c : Cmd} : NextKeeps s₀ (execRingMacro c s) := by
  unfold Machine.execRingMacro
  dsimp only
  refine .next (hk.command fun _ hk1 => ?_)
  split
  · exact hk1.fail
  · exact hk1.fail
  · exact hk1.fail.ite (hk1.fail.ite hk1.advanceMacros)

theorem Keeps.ringUe (hk : Keeps s₀ s) {t : Nat} {d : RingDesc} : Keeps s₀ (s.ringUe t d) := by
  unfold State.ringUe
  dsimp only
  exact hk.memUe

theorem Keeps.ringTransfer (hk : Keeps s₀ s) {t src dst n : Nat} : Keeps s₀ (s.ringTransfer t src dst n) := by
  unfold State.ringTransfer
  split
  · exact hk.countLinks
  · exact hk

theorem Keeps.exchange (hk : Keeps s₀ s) {t : Nat} {cells : List Nat} {bytes : Nat → Nat} : Keeps s₀ (s.exchange t cells bytes) :=
  hk.each fun _ _ hk1 => hk1.each fun _ _ hk2 => hk2.ite hk2.ringTransfer

theorem Keeps.limbExchange (hk : Keeps s₀ s) {t : Nat} {p : ParamSet} {i : Nat} : Keeps s₀ (s.limbExchange t p i) := hk.exchange

theorem Keeps.transformLimb (hk : Keeps s₀ s) {t : Nat} {p : ParamSet} {i : Nat} : Keeps s₀ (s.transformLimb t p i) :=
  hk.limbExchange.limbExchange

theorem Keeps.convertBasis (hk : Keeps s₀ s) {t : Nat} {p : ParamSet} {limbs : List Nat} : Keeps s₀ (s.convertBasis t p limbs) :=
  hk.each fun _ _ hk1 => hk1.exchange

theorem Keeps.switchExchanges (hk : Keeps s₀ s) {t : Nat} {p : ParamSet} {l : Nat} : Keeps s₀ (s.switchExchanges t p l) := by
  have h : ∀ {u : State} {a b : List Nat}, Keeps s₀ u →
      Keeps s₀ (((u.each a (fun s i => s.transformLimb t p i)).convertBasis t p a).each b (fun s i => s.transformLimb t p i)) :=
    fun k => (k.each fun _ _ hk1 => hk1.transformLimb).convertBasis.each fun _ _ hk1 => hk1.transformLimb
  exact (hk.each fun _ _ hk1 => h hk1).each fun _ _ hk1 => h hk1

theorem Keeps.freeLinks (hk : Keeps s₀ s) : Keeps s₀ (s.freeLinks) := hk.draw.each fun _ _ hk2 => hk2.updCell

theorem Keeps.entryExchanges (hk : Keeps s₀ s) {t : Nat} {e : RingEntry} : Keeps s₀ (s.entryExchanges t e) := by
  unfold State.entryExchanges
  dsimp only
  split
  · exact hk.each fun _ _ hk1 => hk1.each fun _ _ hk2 => hk2.transformLimb
  · exact hk.each fun _ _ hk1 => hk1.each fun _ _ hk2 => hk2.transformLimb
  · exact (hk.each fun _ _ hk1 => hk1.each fun _ _ hk2 => hk2.limbExchange).switchExchanges
  · exact hk.switchExchanges
  · exact hk.freeLinks.ite hk
  · exact hk.ite hk.freeLinks

theorem Keeps.setHead (hk : Keeps s₀ s) {t : Nat} {m : RingMacro} : Keeps s₀ (s.setHead t m) := hk.setMacros
theorem Keeps.beginEntry (hk : Keeps s₀ s) {t : Nat} {m : RingMacro} : Keeps s₀ (s.beginEntry t m) := hk.lockEntry.setHead.updRing

theorem Keeps.pauseEntry (hk : Keeps s₀ s) {t : Nat} {m : RingMacro} {moved turn : Nat} : Keeps s₀ (s.pauseEntry t m moved turn) :=
  hk.setHead.updRing

theorem Keeps.runEntry (hk : Keeps s₀ s) {t op : Nat} {v : RingEnv} {checks : RingEntry → List (Bool × Status)} {opnds : RingEntry → List RingDesc}
    {psid chunks : RingEntry → Nat} {scratch : RingEntry → Nat × Nat} {body : State → RingEntry → State} (hbody : ∀ u x0, Keeps s₀ u → Keeps s₀
        (body u x0)) :
    Keeps s₀ (s.runEntry t op v checks opnds psid chunks scratch body) := by
  unfold State.runEntry
  dsimp only
  split
  · exact hk
  · split
    · exact hk.endEntry
    · refine .ite hk ?_
      refine .ite ((hk.ite hk.beginEntry).chargeDma.pauseEntry) ?_
      split
      · refine .endEntry (.ringLeaves (.ite ((hk.ite hk.beginEntry).chargeDma.updRing.lockEntry.ringUe) ?_))
        exact (hk.ite hk.beginEntry).chargeDma.updRing.lockEntry
      · exact (hbody _ _ ((hk.ite hk.beginEntry).chargeDma.updRing.lockEntry.entryExchanges)).ringLeaves.endEntry

theorem Keeps.ringResult (hk : Keeps s₀ s) {t : Nat} {e : RingEntry} : Keeps s₀ (s.ringResult t e) := hk.writePoly.setDesc
theorem Keeps.ringOp (hk : Keeps s₀ s) {t op : Nat} {v : RingEnv} : Keeps s₀ (s.ringOp t op v) := hk.runEntry fun _ _ hk1 => hk1.ringResult
theorem Keeps.execRingAdd (hk : Keeps s₀ s) {t : TenantId} {env : RingEnv} : NextKeeps s₀ (execRingAdd t env s) := .next hk.ringOp
theorem Keeps.execRingSub (hk : Keeps s₀ s) {t : TenantId} {env : RingEnv} : NextKeeps s₀ (execRingSub t env s) := .next hk.ringOp
theorem Keeps.execRingAddp (hk : Keeps s₀ s) {t : TenantId} {env : RingEnv} : NextKeeps s₀ (execRingAddp t env s) := .next hk.ringOp
theorem Keeps.execRingMulp (hk : Keeps s₀ s) {t : TenantId} {env : RingEnv} : NextKeeps s₀ (execRingMulp t env s) := .next hk.ringOp
theorem Keeps.execRingMulc (hk : Keeps s₀ s) {t : TenantId} {env : RingEnv} : NextKeeps s₀ (execRingMulc t env s) := .next hk.ringOp
theorem Keeps.execRingMul (hk : Keeps s₀ s) {t : TenantId} {env : RingEnv} : NextKeeps s₀ (execRingMul t env s) := .next hk.ringOp
theorem Keeps.execRingRescale (hk : Keeps s₀ s) {t : TenantId} {env : RingEnv} : NextKeeps s₀ (execRingRescale t env s) := .next hk.ringOp
theorem Keeps.execRingRotate (hk : Keeps s₀ s) {t : TenantId} {env : RingEnv} : NextKeeps s₀ (execRingRotate t env s) := .next hk.ringOp
theorem Keeps.execRingLevelDrop (hk : Keeps s₀ s) {t : TenantId} {env : RingEnv} : NextKeeps s₀ (execRingLevelDrop t env s) := .next hk.ringOp
theorem Keeps.execRingNtt (hk : Keeps s₀ s) {t : TenantId} {env : RingEnv} : NextKeeps s₀ (execRingNtt t env s) := .next hk.ringOp
theorem Keeps.execRingIntt (hk : Keeps s₀ s) {t : TenantId} {env : RingEnv} : NextKeeps s₀ (execRingIntt t env s) := .next hk.ringOp
theorem Keeps.execRingToMont (hk : Keeps s₀ s) {t : TenantId} {env : RingEnv} : NextKeeps s₀ (execRingToMont t env s) := .next hk.ringOp
theorem Keeps.execRingCopy (hk : Keeps s₀ s) {t : TenantId} {env : RingEnv} : NextKeeps s₀ (execRingCopy t env s) := .next hk.ringOp
theorem Keeps.refreshResult (hk : Keeps s₀ s) {t : Nat} {e : RingEntry} : Keeps s₀ (s.refreshResult t e) := hk.writePoly.setDesc

theorem Keeps.execRingRefresh (hk : Keeps s₀ s) {t : TenantId} {env : RingEnv} : NextKeeps s₀ (execRingRefresh t env s) :=
  .next (hk.runEntry fun _ _ hk1 => hk1.refreshResult)

theorem Keeps.execRingExtract (hk : Keeps s₀ s) {t : TenantId} {env : RingEnv} : NextKeeps s₀ (execRingExtract t env s) :=
  .next (hk.runEntry fun _ _ hk1 => hk1.writeLwe.setDesc)

theorem Keeps.execRingLweSwitch (hk : Keeps s₀ s) {t : TenantId} {env : RingEnv} : NextKeeps s₀ (execRingLweSwitch t env s) :=
  .next (hk.runEntry fun _ _ hk1 => hk1.writeLwe.setDesc)

theorem Keeps.execRingBlindRotate (hk : Keeps s₀ s) {t : TenantId} {env : RingEnv} : NextKeeps s₀ (execRingBlindRotate t env s) :=
  .next (hk.runEntry fun _ _ hk1 => hk1.each fun _ _ hk2 => hk2.writePoly.setDesc)

theorem Keeps.sendExit (hk : Keeps s₀ s) {t i kind level fingerprint round cohort client : Nat} {check : Option (Nat × Nat)} {dst src : Nat}
    {blinded : Bool} {data : List Nat} :
    Keeps s₀ (s.sendExit t i kind level fingerprint round cohort client check dst src blinded data) := by
  cases blinded with
  | false => exact hk.countKey.updRing.emit
  | true => exact hk.drbg.drbg.countKey.updRing.emit

theorem Keeps.execRingSignExit (hk : Keeps s₀ s) {t : TenantId} {env : RingEnv} : NextKeeps s₀ (execRingSignExit t env s) := by
  unfold Machine.execRingSignExit
  dsimp only
  refine .next ?_
  split
  · exact hk
  · split
    · exact hk.endEntry
    · exact hk.endEntry
    · refine .ite hk ?_
      split
      · exact (hk.ringUe.ite hk).endEntry
      · exact hk.sendExit.lockDesc.lockDesc.ringLeaves.setMacros

/-! ### Register accesses -/

theorem Keeps.clearEngine (hk : Keeps s₀ s) {r : Reg} {i : Nat} : Keeps s₀ (s.clearEngine r i) := by
  unfold State.clearEngine
  dsimp only
  split
  · exact hk.updRound
  · exact hk.updRound
  · exact hk.updRound
  · exact hk.upd
  · exact hk.updRing
  · exact hk.updRing
  · exact hk.upd
  · exact hk.setTierKey
  · exact hk

theorem Keeps.clearFab (hk : Keeps s₀ s) {r : Reg} {i : Nat} : Keeps s₀ (s.clearFab r i) := by
  unfold State.clearFab
  dsimp only
  split
  · exact hk.updPort
  · exact hk.updPort
  · exact hk.setLaser
  · exact hk.updFab
  · exact hk.setFabTenant
  · exact hk

theorem Keeps.clearSystem (hk : Keeps s₀ s) {r : Reg} {i : Nat} : Keeps s₀ (s.clearSystem r i) := by
  unfold State.clearSystem
  dsimp only
  split
  · exact hk.updSec
  · exact hk.updPwr
  · exact hk.updPwr
  · exact hk.updPwr
  · exact hk.updPwr
  · exact hk.updPwr
  · exact hk.updHost
  · exact hk.upd
  · exact hk.setShv
  · exact hk

theorem Keeps.clearOnRead (hk : Keeps s₀ s) {fn : Nat} {r : Reg} {i c : Nat} : Keeps s₀ (s.clearOnRead fn r i c) := by
  unfold State.clearOnRead
  dsimp only
  split
  · exact hk.upd
  · exact hk.updSpn
  · exact hk.updSpn
  · exact hk.updCell
  · exact hk.updCell
  · exact hk.ite hk.clearEngine
  · exact hk.ite hk.clearEngine
  · exact hk.ite hk.clearEngine
  · exact hk.clearEngine
  · exact hk.clearEngine
  · exact hk.clearEngine
  · exact hk.clearEngine
  · exact hk.clearEngine
  · exact hk.clearFab
  · exact hk.clearFab
  · exact hk.clearFab
  · exact hk.clearFab
  · exact hk.clearFab
  · exact hk.clearSystem

theorem Keeps.readReg (hk : Keeps s₀ s) {fn o : Nat} {r : Reg} {i c : Nat} : Keeps s₀ (s.readReg fn o r i c) := hk.emit.clearOnRead

theorem Keeps.afterRow (_hk : Keeps s₀ s) {r : Host.Outcome State Fault Refusal} (hr : NextKeeps s₀ r) : Keeps s₀ (afterRow r s) := by
  cases hr with
  | next h => exact h

theorem Keeps.queueConfig (hk : Keeps s₀ s) {w f n base v : Nat} {g : QPair → QPair} : Keeps s₀ (s.queueConfig w f n base v g) :=
  hk.discarded.ite hk.setQueue

theorem Keeps.writeHif (hk : Keeps s₀ s) {fn : Nat} {r : Reg} {i v : Nat} : Keeps s₀ (s.writeHif fn r i v) := by
  unfold State.writeHif
  dsimp only
  split
  · refine .ite ?_ ?_
    · refine .ite ?_ ?_
      · exact ((hk.afterRow hk.execHifResetCold).ite hk).afterRow (((hk.afterRow hk.execHifResetCold).ite hk).execHifResetWarm)
      · exact (hk.afterRow hk.execHifResetCold).ite hk
    · exact hk.afterRow hk.execHifResetCold
  · exact hk.afterRow hk.execHeartbeat
  · exact hk.queueConfig
  · exact hk.queueConfig
  · exact hk.queueEnable.ite (hk.queueDisable.ite hk.setQueue)
  · exact hk.queueTail
  · exact hk.queueHead
  · exact hk

theorem Keeps.writeCore (hk : Keeps s₀ s) {fn : Nat} {r : Reg} {i c v : Nat} : Keeps s₀ (s.writeCore fn r i c v) := by
  unfold State.writeCore
  dsimp only
  split
  · exact hk.updSpn.ite hk
  · exact hk.afterRow hk.execSpnEpochWrite
  · exact hk.ite hk.updJig
  · exact hk.updJig
  · exact hk.afterRow hk.execLiveFieldWrite
  · exact hk.afterRow hk.execLiveFieldWrite
  · exact hk.afterRow hk.execLiveFieldWrite
  · exact hk.afterRow hk.execCelModulusWrite
  · exact hk.updCell.ite hk
  · exact hk

theorem Keeps.writeBind (hk : Keeps s₀ s) {fn : Nat} {r : Reg} {e v : Nat} : Keeps s₀ (s.writeBind fn r e v) := by
  unfold State.writeBind
  dsimp only
  split
  · refine .ite (hk.afterRow hk.execAggBindEnable) ?_
    exact (hk.afterRow hk.execAggBindDisable).ite hk.setBind
  · exact hk.discarded.ite hk.setBind
  · exact hk.discarded.ite hk.setBind
  · exact hk.discarded.ite hk.setBind
  · exact hk

theorem Keeps.writeMapCtl (hk : Keeps s₀ s) {fn t v : Nat} : Keeps s₀ (s.writeMapCtl fn t v) := hk.mapGo.ite hk.setMapRegs

theorem Keeps.writeFault (hk : Keeps s₀ s) {fn i v : Nat} : Keeps s₀ (s.writeFault fn i v) := by
  unfold State.writeFault
  dsimp only
  refine .ite hk.discarded ?_
  exact (hk.afterRow hk.execResume).ite ((hk.afterRow hk.execAbandon).ite hk)

theorem Keeps.writeMem (hk : Keeps s₀ s) {fn : Nat} {r : Reg} {i v : Nat} : Keeps s₀ (s.writeMem fn r i v) := by
  unfold State.writeMem
  dsimp only
  split
  · exact hk.updRing.ite hk
  · exact hk.updRing
  · exact hk.afterRow hk.execMemExchWrite
  · exact hk.upd
  · exact hk.upd.ite hk
  · exact hk.afterRow hk.execMemRetire
  · exact hk.upd
  · exact hk.setMapRegs
  · exact hk.setMapRegs
  · exact hk.writeMapCtl
  · exact hk.afterRow hk.execMemWalkLookup
  · exact hk.writeFault
  · exact hk

theorem Keeps.writeDoorbell (hk : Keeps s₀ s) {fn e v : Nat} : Keeps s₀ (s.writeDoorbell fn e v) := by
  unfold State.writeDoorbell
  extract_lets f x s1 s2
  have h1 : Keeps s₀ s1 := (hk.afterRow hk.execEpSqTail).ite hk
  have h2 : Keeps s₀ s2 := (h1.afterRow h1.execEpRqTail).ite h1
  exact (h2.afterRow h2.execEpCqHead).ite h2

theorem Keeps.writeSystem (hk : Keeps s₀ s) {fn : Nat} {r : Reg} {i v : Nat} : Keeps s₀ (s.writeSystem fn r i v) := by
  unfold State.writeSystem
  dsimp only
  split
  · refine .ite ?_ ?_
    · exact ((hk.afterRow hk.execTakeOut).ite hk).afterRow (((hk.afterRow hk.execTakeOut).ite hk).execReadmit)
    · exact (hk.afterRow hk.execTakeOut).ite hk
  · exact hk.writeDoorbell
  · exact (hk.afterRow hk.execSecApprovedEnforce).ite hk
  · exact (hk.afterRow hk.execSecChallengeNew).ite hk
  · exact (hk.afterRow hk.execSecKeyQuotaWrite).ite hk
  · exact hk.updSec
  · exact hk.updSec
  · exact hk.upd.ite hk
  · exact hk.setShv.ite hk
  · exact hk.afterRow hk.execDbgShvPop
  · exact hk

theorem Keeps.writeReg (hk : Keeps s₀ s) {fn : Nat} {r : Reg} {i c v : Nat} : Keeps s₀ (s.writeReg fn r i c v) := by
  unfold State.writeReg
  refine hk.ifWritable fun _ hk1 => ?_
  split
  · exact hk1.writeHif
  · exact hk1.writeHif
  · exact hk1.writeHif
  · exact hk1.writeHif
  · exact hk1.writeHif
  · exact hk1.writeHif
  · exact hk1.writeHif
  · exact hk1.writeCore
  · exact hk1.writeCore
  · exact hk1.writeCore
  · exact hk1.writeCore
  · exact hk1.writeCore
  · exact hk1.writeCore
  · exact hk1.writeCore
  · exact hk1.writeCore
  · exact hk1.writeCore
  · exact hk1.writeBind
  · exact hk1.writeBind
  · exact hk1.writeBind
  · exact hk1.writeBind
  · exact hk1.writeMem
  · exact hk1.writeMem
  · exact hk1.writeMem
  · exact hk1.writeMem
  · exact hk1.writeMem
  · exact hk1.writeMem
  · exact hk1.writeMem
  · exact hk1.writeMem
  · exact hk1.writeMem
  · exact hk1.writeMem
  · exact hk1.writeMem
  · exact hk1.writeMem
  · exact hk1.writeSystem

theorem Keeps.badAccess (hk : Keeps s₀ s) {a : RegAccess} : Keeps s₀ (s.badAccess a) := (hk.ite hk.emit).windowMiss

theorem Keeps.access (hk : Keeps s₀ s) {a : RegAccess} : Keeps s₀ (s.access a) := by
  unfold State.access
  refine .ite hk.badAccess ?_
  split
  · exact hk.writeReg.ite hk.readReg
  · exact hk.badAccess.ite (hk.ite hk.emit)

theorem Keeps.execReadClear (hk : Keeps s₀ s) {a : RegAccess} : NextKeeps s₀ (execReadClear a s) := .next hk.access
theorem Keeps.execRegisterWrite (hk : Keeps s₀ s) {a : RegAccess} : NextKeeps s₀ (execRegisterWrite a s) := .next hk.access
theorem Keeps.execAccessError (hk : Keeps s₀ s) {a : RegAccess} : NextKeeps s₀ (execAccessError a s) := .next hk.access
theorem Keeps.execVfWindowMiss (hk : Keeps s₀ s) {a : RegAccess} : NextKeeps s₀ (execVfWindowMiss a s) := .next hk.access
theorem Keeps.execCalipersClose (hk : Keeps s₀ s) : NextKeeps s₀ (execCalipersClose s) := .next (hk.ifWritable fun _ hk1 => hk1.upd)

/-! ### Calipers -/

theorem Keeps.calLine (hk : Keeps s₀ s) {f : State → State} (hf : ∀ u, Keeps s₀ u → Keeps s₀ (f u)) : NextKeeps s₀ (s.calLine f) :=
  .next (((hf _ hk.upd).ite hk.upd.emit).ite hk)

theorem Keeps.execCalHelp (hk : Keeps s₀ s) : NextKeeps s₀ (execCalHelp s) := hk.calLine fun _ hk1 => hk1.emit
theorem Keeps.execCalId (hk : Keeps s₀ s) : NextKeeps s₀ (execCalId s) := hk.calLine fun _ hk1 => hk1.emit

theorem Keeps.execCalRd (hk : Keeps s₀ s) {offset : Nat} : NextKeeps s₀ (execCalRd offset s) := by
  unfold Machine.execCalRd
  refine hk.calLine fun _ hk1 => .ite hk1.emit ?_
  split
  · exact hk1.emit.clearOnRead
  · exact hk1.emit

theorem Keeps.execCalWr (hk : Keeps s₀ s) {offset : Nat} {value : Word64} : NextKeeps s₀ (execCalWr offset value s) := by
  unfold Machine.execCalWr
  dsimp only
  refine hk.calLine fun _ hk1 => .ite hk1.emit ?_
  refine .ite hk1.emit ?_
  refine .emit ?_
  split
  · exact hk1.writeReg
  · exact hk1

theorem Keeps.execCalSpn (hk : Keeps s₀ s) : NextKeeps s₀ (execCalSpn s) := hk.calLine fun _ hk1 => hk1.emit
theorem Keeps.execCalPwr (hk : Keeps s₀ s) : NextKeeps s₀ (execCalPwr s) := hk.calLine fun _ hk1 => hk1.emit
theorem Keeps.execCalFw (hk : Keeps s₀ s) : NextKeeps s₀ (execCalFw s) := hk.calLine fun _ hk1 => hk1.emit
theorem Keeps.execCalShv (hk : Keeps s₀ s) {q n : Nat} : NextKeeps s₀ (execCalShv q n s) := hk.calLine fun _ hk1 => hk1.emit.ite hk1.emit

theorem Keeps.execCalBaud (hk : Keeps s₀ s) {rate : Nat} : NextKeeps s₀ (execCalBaud rate s) := by
  unfold Machine.execCalBaud
  dsimp only
  refine hk.calLine fun _ hk1 => ?_
  split
  · exact hk1.emit.upd
  · exact hk1.emit

theorem Keeps.execCalipersBreak (hk : Keeps s₀ s) : NextKeeps s₀ (execCalipersBreak s) := .next hk.upd

theorem Keeps.execJtagAccess (hk : Keeps s₀ s) {op : JtagOp} : NextKeeps s₀ (execJtagAccess op s) := by
  unfold Machine.execJtagAccess
  split
  · exact .next hk
  · exact .next hk.emit
  · refine .ite ?_ ?_
    · split
      · exact .next hk.emit.clearOnRead
      · exact .next hk.emit
    · exact .next hk.emit
  · refine .ite ?_ ?_
    · split
      · exact .next hk.writeReg
      · exact .next hk
    · exact .next hk.emit

/-! ### Control instructions -/

theorem Keeps.execNop (hk : Keeps s₀ s) {a : CellAt} {count : Nat} : NextKeeps s₀ (execNop a count s) :=
  .next (hk.ctlInstr fun _ hk1 => hk1)

theorem Keeps.execHalt (hk : Keeps s₀ s) {a : CellAt} : NextKeeps s₀ (execHalt a s) := .next (hk.issue fun _ hk1 => .ok hk1.updCell.tryHalt)

theorem Keeps.execJump (hk : Keeps s₀ s) {a : CellAt} {target : Nat} : NextKeeps s₀ (execJump a target s) :=
  .next (hk.issue fun _ hk1 => .ok hk1.goTo)

theorem Keeps.execLoop (hk : Keeps s₀ s) {a : CellAt} {last : Nat} {csrc : Fin 16} {imm : Nat} : NextKeeps s₀ (execLoop a last csrc imm s) :=
  .next (hk.issue fun _ hk1 => .ok (hk1.goTo.ite hk1.updCell.goTo))

theorem Keeps.execBrank (hk : Keeps s₀ s) {a : CellAt} {target : Nat} {cmp : Fin 4} {value : Nat} :
    NextKeeps s₀ (execBrank a target cmp value s) := .next (hk.issue fun _ hk1 => .ok hk1.goTo)

theorem Keeps.waitFor (hk : Keeps s₀ s) {c t n : Nat} : Keeps s₀ (s.waitFor c t n) :=
  hk.waitBegins.updCell.takeToken.ite hk.waitBegins.updCell.updCell

theorem Keeps.execWait (hk : Keeps s₀ s) {a : CellAt} {v : Bool} {token : Fin 64} {count : Nat} : NextKeeps s₀ (execWait a v token count s) :=
  .next (hk.issue fun _ hk1 => .ok hk1.waitFor)

theorem Keeps.execSignal (hk : Keeps s₀ s) {a : CellAt} {token : Fin 64} {count : Nat} : NextKeeps s₀ (execSignal a token count s) :=
  .next (hk.ctlInstr fun _ hk1 => hk1.signalToken)

theorem Keeps.execGsync (hk : Keeps s₀ s) {a : CellAt} : NextKeeps s₀ (execGsync a s) :=
  .next (hk.issue fun _ hk1 => .ok hk1.updCell.releaseGsync)

theorem Keeps.execSmovi (hk : Keeps s₀ s) {a : CellAt} {d : Fin 16} {imm : Word64} : NextKeeps s₀ (execSmovi a d imm s) :=
  .next (hk.ctlInstr fun _ hk1 => hk1.updCell)

theorem Keeps.execSalu (hk : Keeps s₀ s) {at_ : CellAt} {d a b func : Fin 16} {useImm : Bool} {imm : Word64} :
    NextKeeps s₀ (execSalu at_ d a b func useImm imm s) := .next (hk.ctlInstr fun _ hk1 => hk1.updCell)

theorem Keeps.execSrank (hk : Keeps s₀ s) {a : CellAt} {d : Fin 16} {what : Bool} : NextKeeps s₀ (execSrank a d what s) :=
  .next (hk.ctlInstr fun _ hk1 => hk1.updCell)

theorem Keeps.execWaitLimitExpire (hk : Keeps s₀ s) {c : CellId} : NextKeeps s₀ (execWaitLimitExpire c s) := .next (hk.failCell.ite hk)

/-! ### Exits -/

theorem Keeps.countExit (hk : Keeps s₀ s) {t i : Nat} : Keeps s₀ (s.countExit t i) := hk.updRing
theorem Keeps.settleReq (hk : Keeps s₀ s) {q : ExitReq} : Keeps s₀ (s.settleReq q) := hk.updRing

theorem Keeps.exitFails (hk : Keeps s₀ s) {q : ExitReq} : Keeps s₀ (s.exitFails q) := by
  unfold State.exitFails
  split
  · exact hk.endWait.endEntry
  · exact hk.settleReq.updRound

theorem Keeps.writeReply (hk : Keeps s₀ s) {q : ExitReq} {r : ExitReplyMsg} : Keeps s₀ (s.writeReply q r) := hk.writePoly.setDesc

theorem Keeps.robustVerdict (hk : Keeps s₀ s) {t h x bit : Nat} : Keeps s₀ (s.robustVerdict t h x bit) := by
  unfold State.robustVerdict
  dsimp only
  refine .ite ((hk.updRound.countExit.ite hk.updRound).emit) ?_
  exact hk.updRound.countExit.ite hk.updRound

theorem Keeps.execExitReply (hk : Keeps s₀ s) {t : TenantId} {r : ExitReplyMsg} : NextKeeps s₀ (execExitReply t r s) := by
  unfold Machine.execExitReply
  refine .next (.ite hk ?_)
  split
  · exact hk.countExit.ite hk.countExit
  · refine .ite hk.countExit ?_
    split
    · exact hk.countExit.exitFails.ite hk.writeReply.endWait.endEntry
    · exact hk.settleReq.countExit.ite (hk.countExit.exitFails.ite hk.settleReq.robustVerdict)

theorem Keeps.execExitResend (hk : Keeps s₀ s) {t : TenantId} {requestId : Nat} : NextKeeps s₀ (execExitResend t requestId s) := by
  unfold Machine.execExitResend
  dsimp only
  refine .next ?_
  split
  · exact hk
  · refine .ite hk ?_
    refine .ite ?_ ?_
    · split
      · exact hk.updRing.emit
      · exact hk.updRing
    · exact hk.countExit.exitFails

theorem Keeps.execRobustCheck (hk : Keeps s₀ s) {h : Handle} {client : Nat} : NextKeeps s₀ (execRobustCheck h client s) := by
  unfold Machine.execRobustCheck
  dsimp only
  refine .next (.ite ?_ ?_)
  · refine .ite hk.chargeDma.updRound ?_
    split
    · exact hk.chargeDma.updRound.freeLinks.ringLeaves.updRound
    · refine .ite hk.chargeDma.updRound.freeLinks.ringLeaves.sendExit ?_
      exact hk.chargeDma.updRound.freeLinks.ringLeaves.sendExit
  · exact hk

/-! ### Vector instructions -/

theorem Keeps.execVld (hk : Keeps s₀ s) {a : CellAt} {d : Fin 32} {src : AddrOp} : NextKeeps s₀ (execVld a d src s) :=
  .next (hk.unitInstr fun _ _ hk1 => .ok hk1.updCell)

theorem Keeps.execVst (hk : Keeps s₀ s) {a : CellAt} {r : Fin 32} {dst : AddrOp} : NextKeeps s₀ (execVst a r dst s) :=
  .next (hk.unitInstr fun _ _ hk1 => .ok hk1.updCell)

theorem Keeps.execVop (hk : Keeps s₀ s) {at_ : CellAt} {d a b func : Fin 32} {paired : Bool} {modulus : Fin 16} {useImm : Bool} {imm : Word64} :
    NextKeeps s₀ (execVop at_ d a b func paired modulus useImm imm s) := .next (hk.unitInstr fun _ _ hk1 => .ok hk1.updCell)

theorem Keeps.execVperm (hk : Keeps s₀ s) {at_ : CellAt} {d a index : Fin 32} : NextKeeps s₀ (execVperm at_ d a index s) :=
  .next (hk.unitInstr fun _ _ hk1 => .ok hk1.updCell)

theorem Keeps.execVred (hk : Keeps s₀ s) {at_ : CellAt} {d a : Fin 32} {func : Fin 4} {paired : Bool} :
    NextKeeps s₀ (execVred at_ d a func paired s) := .next (hk.unitInstr fun _ _ hk1 => .ok hk1.updCell)

theorem Keeps.execVbcast (hk : Keeps s₀ s) {at_ : CellAt} {d : Fin 32} {a : Fin 16} : NextKeeps s₀ (execVbcast at_ d a s) :=
  .next (hk.unitInstr fun _ _ hk1 => .ok hk1.updCell)

theorem Keeps.execVrand (hk : Keeps s₀ s) {at_ : CellAt} {v : Bool} {d : Fin 32} : NextKeeps s₀ (execVrand at_ v d s) := by
  unfold Machine.execVrand
  dsimp only
  exact .next (hk.unitInstr fun _ _ hk1 => .ok hk1.drbg.updCell)

theorem Keeps.execMove (hk : Keeps s₀ s) {a : CellAt} {src dst : AddrOp} {blocks : Nat} {transpose : Bool} :
    NextKeeps s₀ (execMove a src dst blocks transpose s) := .next (hk.unitInstr fun _ _ hk1 => .ok hk1.updCell)

end Sys2Proof.Machine
end

section
/-! SUPPORT. What every command owes the state that it starts from: it answers a next state with the same commands waiting, does not leave
TAMPERED, does not lower the OTP anti-rollback counter and keeps the canonical form of device memory. All but four commands keep the life-cycle
state and the counter as they are (`exec_keeps`). -/

namespace Sys2Proof.Machine

open Sys2Proof

variable {s₀ s t : State}

/-- The commands that may change what `Keeps` speaks of: firmware that becomes ready raises the anti-rollback counter (R500), and a
life-cycle change (R485), a tamper trip (R482) and a failing BBRAM check (R474) enter another life-cycle state. -/
def changesSec : Instr → Bool
  | .fwReady => true
  | .lifecycleAdvance _ _ => true
  | .tamperTrip _ => true
  | .powerOnReset _ => true
  | _ => false

/-- Every other command answers a next state that has kept the queue, the life-cycle state, the anti-rollback counter and the form of device
memory. -/
theorem exec_keeps (c : Instr) (s : State) (hc : changesSec c = false) : NextKeeps s (exec c s) := by
  have hk := Keeps.refl s
  cases c with
  | jigLoad => exact hk.execJigLoad
  | jigLoadEffect => exact hk.execJigLoadEffect
  | assemblyAlignment => exact hk.execAssemblyAlignment
  | jigEdit => exact hk.execJigEdit
  | jigCommit => exact hk.execJigCommit
  | commitVerdict => exact hk.execCommitVerdict
  | commitDecision => exact hk.execCommitDecision
  | jigSwap => exact hk.execJigSwap
  | fwLoad => exact hk.execFwLoad
  | fwReady => cases hc
  | fwBootTimeout => exact hk.execFwBootTimeout
  | firmwareStop => exact hk.execFirmwareStop
  | tenantCreate => exact hk.execTenantCreate
  | tenantCreateBoundary => exact hk.execTenantCreateBoundary
  | tenantRemove => exact hk.execTenantRemove
  | tenantRemoveBoundary => exact hk.execTenantRemoveBoundary
  | fenceRound => exact hk.execFenceRound
  | scrub => exact hk.execScrub
  | quotaSet => exact hk.execQuotaSet
  | regionRegister => exact hk.execRegionRegister
  | regionDeregister => exact hk.execRegionDeregister
  | regionRekey => exact hk.execRegionRekey
  | endpointCreate => exact hk.execEndpointCreate
  | endpointPark => exact hk.execEndpointPark
  | endpointUnpark => exact hk.execEndpointUnpark
  | dmaSubmit => exact hk.execDmaSubmit
  | dmaCopy => exact hk.execDmaCopy
  | dmaAccAdd => exact hk.execDmaAccAdd
  | dmaZero => exact hk.execDmaZero
  | resume => exact hk.execResume
  | abandon => exact hk.execAbandon
  | faultLimitExpire => exact hk.execFaultLimitExpire
  | progLoad => exact hk.execProgLoad
  | progStart => exact hk.execProgStart
  | barrierArm => exact hk.execBarrierArm
  | barrierStart => exact hk.execBarrierStart
  | roundOpen => exact hk.execRoundOpen
  | roundOpenBoundary => exact hk.execRoundOpenBoundary
  | roundSetDeadline => exact hk.execRoundSetDeadline
  | deadlineChange => exact hk.execDeadlineChange
  | collectStart => exact hk.execCollectStart
  | deadline => exact hk.execDeadline
  | freezeExchange => exact hk.execFreezeExchange
  | unmaskingEntry => exact hk.execUnmaskingEntry
  | shareEnd => exact hk.execShareEnd
  | roundUnmask => exact hk.execRoundUnmask
  | deliveryArm => exact hk.execDeliveryArm
  | roundCommit => exact hk.execRoundCommit
  | roundRelease => exact hk.execRoundRelease
  | releaseWrite => exact hk.execReleaseWrite
  | roundAbort => exact hk.execRoundAbort
  | roundFree => exact hk.execRoundFree
  | keyGenerate => exact hk.execKeyGenerate
  | keyImport => exact hk.execKeyImport
  | keyDestroy => exact hk.execKeyDestroy
  | keyAttest => exact hk.execKeyAttest
  | keyRotateMem => exact hk.execKeyRotateMem
  | keyRotationSwitch => exact hk.execKeyRotationSwitch
  | keySweepUnit => exact hk.execKeySweepUnit
  | ctRegisterParams => exact hk.execCtRegisterParams
  | ctRegisterDescriptor => exact hk.execCtRegisterDescriptor
  | ctRegisterPlan => exact hk.execCtRegisterPlan
  | ctRegisterExit => exact hk.execCtRegisterExit
  | releaseParams => exact hk.execReleaseParams
  | releaseDescriptor => exact hk.execReleaseDescriptor
  | releaseEvk => exact hk.execReleaseEvk
  | releasePlan => exact hk.execReleasePlan
  | evkRegister c ue => exact hk.execEvkRegister (c := c) (ue := ue)
  | ringMacro => exact hk.execRingMacro
  | ringAdd => exact hk.execRingAdd
  | ringSub => exact hk.execRingSub
  | ringAddp => exact hk.execRingAddp
  | ringMulp => exact hk.execRingMulp
  | ringMulc => exact hk.execRingMulc
  | ringMul => exact hk.execRingMul
  | ringRescale => exact hk.execRingRescale
  | ringRotate => exact hk.execRingRotate
  | ringLevelDrop => exact hk.execRingLevelDrop
  | ringNtt => exact hk.execRingNtt
  | ringIntt => exact hk.execRingIntt
  | ringToMont => exact hk.execRingToMont
  | ringCopy => exact hk.execRingCopy
  | ringRefresh => exact hk.execRingRefresh
  | ringExtract => exact hk.execRingExtract
  | ringLweSwitch => exact hk.execRingLweSwitch
  | ringBlindRotate => exact hk.execRingBlindRotate
  | ringSignExit => exact hk.execRingSignExit
  | exitReply => exact hk.execExitReply
  | exitResend => exact hk.execExitResend
  | robustCheck => exact hk.execRobustCheck
  | lifecycleAdvance => cases hc
  | attestDevice => exact hk.execAttestDevice
  | attestAssembly => exact hk.execAttestAssembly
  | attach => exact hk.execAttach
  | powerLimitSet => exact hk.execPowerLimitSet
  | calUserLoad => exact hk.execCalUserLoad
  | shavingsConfig => exact hk.execShavingsConfig
  | nop => exact hk.execNop
  | halt => exact hk.execHalt
  | jump => exact hk.execJump
  | loop => exact hk.execLoop
  | brank => exact hk.execBrank
  | wait => exact hk.execWait
  | signal => exact hk.execSignal
  | gsync => exact hk.execGsync
  | smovi => exact hk.execSmovi
  | salu => exact hk.execSalu
  | srank => exact hk.execSrank
  | gopen => exact hk.execGopen
  | gclose => exact hk.execGclose
  | accld => exact hk.execAccld
  | accst => exact hk.execAccst
  | mma => exact hk.execMma
  | ewadd => exact hk.execEwadd
  | mask => exact hk.execMask
  | vld => exact hk.execVld
  | vst => exact hk.execVst
  | vop => exact hk.execVop
  | vperm => exact hk.execVperm
  | vred => exact hk.execVred
  | vbcast => exact hk.execVbcast
  | vrand => exact hk.execVrand
  | move => exact hk.execMove
  | send => exact hk.execSend
  | feed => exact hk.execFeed
  | waitLimitExpire => exact hk.execWaitLimitExpire
  | cellClear => exact hk.execCellClear
  | celModulusWrite => exact hk.execCelModulusWrite
  | modulusConstantsReady => exact hk.execModulusConstantsReady
  | aggBindEnable => exact hk.execAggBindEnable
  | aggBindDisable => exact hk.execAggBindDisable
  | batchDispatch => exact hk.execBatchDispatch
  | seedReconstruction => exact hk.execSeedReconstruction
  | streamDelivery => exact hk.execStreamDelivery
  | gatePass => exact hk.execGatePass
  | replicaCompare => exact hk.execReplicaCompare
  | summedAnnounce => exact hk.execSummedAnnounce
  | sealedClear => exact hk.execSealedClear
  | roundMemoryZeroing => exact hk.execRoundMemoryZeroing
  | keyex => exact hk.execKeyex
  | contrib => exact hk.execContrib
  | share => exact hk.execShare
  | abortMsg => exact hk.execAbortMsg
  | contribMirror => exact hk.execContribMirror
  | mirrorAck => exact hk.execMirrorAck
  | shareMirror => exact hk.execShareMirror
  | wrappedSessionKey => exact hk.execWrappedSessionKey
  | seedDistribution => exact hk.execSeedDistribution
  | etkaiSendPacket => exact hk.execEtkaiSendPacket
  | etkaiWritePacket => exact hk.execEtkaiWritePacket
  | etkaiWriteNotifyPacket => exact hk.execEtkaiWriteNotifyPacket
  | etkaiAccAddPacket => exact hk.execEtkaiAccAddPacket
  | etkaiAck => exact hk.execEtkaiAck
  | etkaiNak => exact hk.execEtkaiNak
  | rtoExpire => exact hk.execRtoExpire
  | nakRetry => exact hk.execNakRetry
  | flowIdleDrop => exact hk.execFlowIdleDrop
  | reassemblyTimeout => exact hk.execReassemblyTimeout
  | epSqTail => exact hk.execEpSqTail
  | epRqTail => exact hk.execEpRqTail
  | epCqHead => exact hk.execEpCqHead
  | wrSend => exact hk.execWrSend
  | wrWrite => exact hk.execWrWrite
  | wrWriteNotify => exact hk.execWrWriteNotify
  | wrAccAdd => exact hk.execWrAccAdd
  | push => exact hk.execPush
  | bcast => exact hk.execBcast
  | scheduledFrame => exact hk.execScheduledFrame
  | timingFrame => exact hk.execTimingFrame
  | deviceFrame => exact hk.execDeviceFrame
  | fenceFrame => exact hk.execFenceFrame
  | slot0DeviceFrames => exact hk.execSlot0DeviceFrames
  | linkReplay => exact hk.execLinkReplay
  | linkKeyExchange => exact hk.execLinkKeyExchange
  | neighborSolicitation => exact hk.execNeighborSolicitation
  | echoRequest => exact hk.execEchoRequest
  | ptpMessage => exact hk.execPtpMessage
  | ptpAdopt => exact hk.execPtpAdopt
  | ptpOffsetUpdate => exact hk.execPtpOffsetUpdate
  | laneFailure => exact hk.execLaneFailure
  | laserInputLow => exact hk.execLaserInputLow
  | laserFault => exact hk.execLaserFault
  | takeOut => exact hk.execTakeOut
  | readmit => exact hk.execReadmit
  | portUp => exact hk.execPortUp
  | memberLoss => exact hk.execMemberLoss
  | coordinatorLoss => exact hk.execCoordinatorLoss
  | isolatedCoordinatorStop => exact hk.execIsolatedCoordinatorStop
  | noStandbyStop => exact hk.execNoStandbyStop
  | upstreamLoss => exact hk.execUpstreamLoss
  | holdoverLimit => exact hk.execHoldoverLimit
  | spinClkLoss => exact hk.execSpinClkLoss
  | spinSyncEdge => exact hk.execSpinSyncEdge
  | spnEpochWrite => exact hk.execSpnEpochWrite
  | spinClkQualified => exact hk.execSpinClkQualified
  | pllLockTimeout => exact hk.execPllLockTimeout
  | alignRelease => exact hk.execAlignRelease
  | fifoCheck => exact hk.execFifoCheck
  | cxlTrainingStart => exact hk.execCxlTrainingStart
  | identityDerivation => exact hk.execIdentityDerivation
  | turnBoundary => exact hk.execTurnBoundary
  | ratioSwitch => exact hk.execRatioSwitch
  | refreshWindow => exact hk.execRefreshWindow
  | powerLoop => exact hk.execPowerLoop
  | vddCoreCheck => exact hk.execVddCoreCheck
  | thermalLoop => exact hk.execThermalLoop
  | hotTrip => exact hk.execHotTrip
  | hotRelease => exact hk.execHotRelease
  | fastCurrentTrip => exact hk.execFastCurrentTrip
  | vrAlert => exact hk.execVrAlert
  | freezeBegin => exact hk.execFreezeBegin
  | thaw => exact hk.execThaw
  | heartbeat => exact hk.execHeartbeat
  | hostLostEntry => exact hk.execHostLostEntry
  | hostLostLimit => exact hk.execHostLostLimit
  | vfEnableChange => exact hk.execVfEnableChange
  | powerOnReset => cases hc
  | perstAssert => exact hk.execPerstAssert
  | hifResetCold => exact hk.execHifResetCold
  | hifResetWarm => exact hk.execHifResetWarm
  | coldReset => exact hk.execColdReset
  | warmReset => exact hk.execWarmReset
  | vfFlr => exact hk.execVfFlr
  | pf0Flr => exact hk.execPf0Flr
  | tamperTrip => cases hc
  | brownOut => exact hk.execBrownOut
  | cxlLinkDown => exact hk.execCxlLinkDown
  | ideKm => exact hk.execIdeKm
  | spdmMessage => exact hk.execSpdmMessage
  | hostExchWrite => exact hk.execHostExchWrite
  | hostExchRead => exact hk.execHostExchRead
  | hifQEnable => exact hk.execHifQEnable
  | hifQDisable => exact hk.execHifQDisable
  | hifSqDoorbell => exact hk.execHifSqDoorbell
  | hifCqDoorbell => exact hk.execHifCqDoorbell
  | commandFetch => exact hk.execCommandFetch
  | memMap => exact hk.execMemMap
  | memUnmap => exact hk.execMemUnmap
  | memProtect => exact hk.execMemProtect
  | zeroFill => exact hk.execZeroFill
  | memWalkLookup => exact hk.execMemWalkLookup
  | memExchWrite => exact hk.execMemExchWrite
  | memRetire => exact hk.execMemRetire
  | secChallengeNew => exact hk.execSecChallengeNew
  | secApprovedEnforce => exact hk.execSecApprovedEnforce
  | secKeyQuotaWrite => exact hk.execSecKeyQuotaWrite
  | liveFieldWrite => exact hk.execLiveFieldWrite
  | calipersClose => exact hk.execCalipersClose
  | dbgShvPop => exact hk.execDbgShvPop
  | readClear => exact hk.execReadClear
  | registerWrite => exact hk.execRegisterWrite
  | accessError => exact hk.execAccessError
  | vfWindowMiss => exact hk.execVfWindowMiss
  | calHelp => exact hk.execCalHelp
  | calId => exact hk.execCalId
  | calRd => exact hk.execCalRd
  | calWr => exact hk.execCalWr
  | calSpn => exact hk.execCalSpn
  | calPwr => exact hk.execCalPwr
  | calFw => exact hk.execCalFw
  | calShv => exact hk.execCalShv
  | calBaud => exact hk.execCalBaud
  | calipersBreak => exact hk.execCalipersBreak
  | readTemperature1 => exact hk.execReadTemperature1
  | readPin => exact hk.execReadPin
  | mfrPowerCap => exact hk.execMfrPowerCap
  | mfrPowerCapRead => exact hk.execMfrPowerCapRead
  | perstDeassert => exact hk.execPerstDeassert
  | cxlLinkUp => exact hk.execCxlLinkUp
  | trngHealthFail => exact hk.execTrngHealthFail
  | ethFrameDrop => exact hk.execEthFrameDrop
  | vectorUnmask => exact hk.execVectorUnmask
  | jtagAccess => exact hk.execJtagAccess

/-- What a state `s` that one command reaches from `s₀` owes it, whatever the command: the commands that wait are the same, TAMPERED is not
left, the OTP anti-rollback counter has not fallen, and device memory has kept its canonical form. -/
structure Follows (s₀ s : State) : Prop where
  /-- The commands that wait are the same. -/
  queue : s.pending = s₀.pending
  /-- TAMPERED is not left. -/
  tampered : s₀.sec.lifecycle = .tampered → s.sec.lifecycle = .tampered
  /-- The OTP anti-rollback counter has not fallen. -/
  otpSvn : s₀.sec.otpSvn ≤ s.sec.otpSvn
  /-- Device memory has kept its canonical form. -/
  memory : Memory.wf s₀.ram = true → Memory.wf s.ram = true

theorem Keeps.follows (h : Keeps s₀ s) : Follows s₀ s :=
  ⟨h.queue, h.lifecycle.trans, h.otpSvn.ge, h.memory⟩

theorem Follows.keeps (h : Follows s₀ s) (k : Keeps s t) : Follows s₀ t :=
  ⟨k.queue.trans h.queue, fun z => k.lifecycle.trans (h.tampered z), h.otpSvn.trans k.otpSvn.ge, fun m => k.memory (h.memory m)⟩

/-- SEC is written (and PWR and the Spindle with it), but TAMPERED is not left and the anti-rollback counter does not fall. -/
theorem Keeps.updSecTo (h : Keeps s₀ s) {x : Sec} {pwr : Pwr} {spn : Spn} (hl : s.sec.lifecycle = .tampered → x.lifecycle = .tampered)
    (ho : s.sec.otpSvn ≤ x.otpSvn) : Follows s₀ { s with sec := x, pwr := pwr, spn := spn } :=
  ⟨h.queue, fun z => hl (h.lifecycle.trans z), h.otpSvn.ge.trans ho, h.memory⟩

theorem Follows.ite {c : Prop} {_ : Decidable c} (h : Follows s₀ s) (k : Follows s₀ t) : Follows s₀ (if c then s else t) := by
  split
  · exact h
  · exact k

/-! ### A trip of a sensor -/

theorem Keeps.tamper (h : Keeps s₀ s) {cause : Nat} : Follows s₀ (s.tamper cause) := by
  unfold State.tamper
  refine Follows.keeps ?_ (.each (.refl _) fun _ _ hk => hk.startClear)
  exact h.dropUnsigned.updSecTo (fun _ => rfl) le_rfl

theorem State.tamper_sec (s : State) (cause : Nat) :
    (s.tamper cause).sec = { s.dropUnsigned.sec with
      rootSecret := 0, ownerKeys := 0, password := none, pwFails := 0, pwLocked := false, keys := [], lifecycle := .tampered,
      tamperCause := Nat.lor s.dropUnsigned.sec.tamperCause (2 ^ (cause - 1)) } :=
  State.each_keeps _ State.sec _ _ fun _ _ _ => rfl

theorem State.tamper_stopped (s : State) (cause : Nat) : (s.tamper cause).spn.stopped = true :=
  State.each_keeps _ (fun u => u.spn.stopped) _ _ fun _ _ _ => rfl

theorem State.startClear_cell (s : State) (c : Nat) : ((s.startClear c).cell c).clearing = true := by
  simp [State.startClear, State.updCell]

/-- Clearing one cell leaves a cell that is being cleared so. -/
theorem State.startClear_clearing (s : State) (c j : Nat) (h : (s.cell j).clearing = true) : ((s.startClear c).cell j).clearing = true := by
  by_cases e : j = c
  · subst e
    exact s.startClear_cell j
  · unfold State.startClear State.updCell
    rwa [State.cell_setCell_other _ _ _ _ e]

theorem State.each_startClear_clearing (s : State) {l : List Nat} {c : Nat} (hc : c ∈ l) :
    ((s.each l State.startClear).cell c).clearing = true := by
  induction l generalizing s with
  | nil => cases hc
  | cons a r ih =>
    rw [State.each_cons]
    cases hc with
    | head => exact State.each_induct _ (fun u => (u.cell c).clearing = true) _ _ (fun u a _ => u.startClear_clearing a c) (s.startClear_cell c)
    | tail _ hr => exact ih _ hr

theorem State.tamper_clearing (s : State) (cause : Nat) {c : Nat} (hc : c < 64) : ((s.tamper cause).cell c).clearing = true :=
  State.each_startClear_clearing _ (List.mem_range.2 hc)

theorem bitAt_lor_two_pow (v i : Nat) : bitAt (Nat.lor v (2 ^ i)) i = true := by
  show bitAt (v ||| 2 ^ i) i = true
  have h : (v ||| 2 ^ i).testBit i = true := by simp
  rw [Nat.testBit_eq_decide_div_mod_eq] at h
  simpa [bitAt] using h

/-! ### The commands that write the life-cycle state or the anti-rollback counter -/

/-- The counter rises to the security version of the image that advances it, or stays. -/
theorem le_ite_of_lt (adv : Bool) (n svn : Nat) : n ≤ if adv && n < svn then svn else n := by
  split
  next h => simp at h; omega
  · exact le_rfl

theorem execFwReady_follows (s : State) : ∃ t, execFwReady s = .next t ∧ Follows s t := by
  have hk := Keeps.refl s
  unfold execFwReady
  split
  · exact ⟨_, rfl, hk.follows⟩
  next c svn adv at_ _ =>
    split
    · refine ⟨_, rfl, Follows.keeps ?_ (.each (Keeps.fwEvent (Keeps.refl _).updHost) fun _ _ k => k.complete)⟩
      exact hk.updFw.updSecTo id (le_ite_of_lt adv _ svn)
    · exact ⟨_, rfl, hk.follows⟩

theorem execTamperTrip_of_live (x : Sensor) (s : State) (hx : s.sensing x = true) (hl : s.sec.lifecycle.live = true) :
    execTamperTrip x s = .next (s.tamper x.bit) := by
  simp [execTamperTrip, hx, hl]

theorem execTamperTrip_follows (x : Sensor) (s : State) : ∃ t, execTamperTrip x s = .next t ∧ Follows s t := by
  have hk := Keeps.refl s
  unfold execTamperTrip
  split
  · exact ⟨_, rfl, hk.follows⟩
  split
  · exact ⟨_, rfl, hk.tamper⟩
  split
  · exact ⟨_, rfl, Keeps.follows hk.updSecOf⟩
  · exact ⟨_, rfl, hk.follows⟩

theorem execPowerOnReset_follows (ok : Bool) (s : State) : ∃ t, execPowerOnReset ok s = .next t ∧ Follows s t := by
  have h : Keeps s (State.coldStart { s with perst := true }) := Keeps.coldStart (Keeps.upd (Keeps.refl s))
  exact ⟨_, rfl, h.tamper.ite h.follows⟩

/-- No transition of R485 starts at TAMPERED. -/
theorem advanceNeeds_tampered (l : Lifecycle) : advanceNeeds .tampered l = none := by
  cases l <;> rfl

/-- An accepted change of the life cycle, where the device is not TAMPERED and the change leaves the anti-rollback counter alone. -/
theorem Keeps.advanceTo (hk : Keeps s₀ s) (hl : s.sec.lifecycle ≠ .tampered) {c : Cmd} {l : Lifecycle} {f : Sec → Sec} {method : Nat}
    (hf : (f s.sec).otpSvn = s.sec.otpSvn) : Follows s₀ (s.advanceTo c l f method) := by
  have h : Follows s₀ (s.updSec fun x => { f x with keys := [], lifecycle := l }) :=
    ⟨hk.queue, fun z => absurd (hk.lifecycle.trans z) hl, (hf.trans hk.otpSvn).ge, hk.memory⟩
  exact h.keeps (Keeps.updSecOf (Keeps.refl _).ok.coldStart)

theorem Keeps.tryPassword (hk : Keeps s₀ s) (hl : s.sec.lifecycle ≠ .tampered) {c : Cmd} {b : List Byte} :
    Follows s₀ (s.tryPassword c b) := by
  unfold State.tryPassword
  dsimp only
  split
  · exact hk.fail.follows
  · exact .ite hk.fail.follows (.ite (hk.advanceTo hl rfl) (Keeps.follows (Keeps.fail hk.updSecOf)))

theorem Follows.command {op : Nat} {c : Cmd} {body : State → State} (hbody : Follows s (body s)) : Follows s (s.command op c body) := by
  have hk := Keeps.refl s
  unfold State.command
  refine .ite hk.follows ?_
  split
  · exact hk.fail.follows
  · exact .ite hk.fail.follows hbody

theorem execLifecycleAdvance_follows (c : Cmd) (sig : SigPair) (s : State) :
    ∃ t, execLifecycleAdvance c sig s = .next t ∧ Follows s t := by
  have hk := Keeps.refl s
  refine ⟨_, rfl, .command ?_⟩
  split
  · exact hk.fail.follows
  next l need e =>
    have hl : s.sec.lifecycle ≠ .tampered := fun z => by
      simp [z, advanceNeeds_tampered] at e
    split
    · exact hk.fail.follows
    split
    · exact hk.fail.follows
    extract_lets b gone
    have hg : (gone s.sec).otpSvn = s.sec.otpSvn := by
      cases l <;> rfl
    split
    · exact hk.advanceTo hl hg
    · exact .ite hk.fail.follows (hk.advanceTo hl rfl)
    · exact .ite (hk.tryPassword hl) (.ite (hk.advanceTo hl hg) (Keeps.follows (Keeps.fail hk.updSecOf)))

/-! ### Every command and every step -/

/-- Every command, in every state, answers a next state that follows it. -/
theorem exec_follows (c : Instr) (s : State) : ∃ t, exec c s = .next t ∧ Follows s t := by
  cases hc : changesSec c with
  | false =>
    have h := exec_keeps c s hc
    revert h
    generalize exec c s = x
    rintro ⟨hk⟩
    exact ⟨_, rfl, hk.follows⟩
  | true =>
    cases c with
    | fwReady => exact execFwReady_follows s
    | tamperTrip x => exact execTamperTrip_follows x s
    | powerOnReset ok => exact execPowerOnReset_follows ok s
    | lifecycleAdvance c sig => exact execLifecycleAdvance_follows c sig s
    | _ => cases hc

/-- A step, a tick or the command at the front of the queue, does not leave TAMPERED. -/
theorem step_tampered {s t : State} (hs : s.sec.lifecycle = .tampered) (e : step s = .next t) : t.sec.lifecycle = .tampered := by
  unfold step at e
  split at e
  · cases e
    exact (Keeps.refl s).tick.lifecycle.trans hs
  next c r _ =>
    obtain ⟨u, hu, h⟩ := exec_follows c { s with pending := r }
    rw [hu] at e
    cases e
    exact h.tampered hs

end Sys2Proof.Machine
end

section
/-! The obligations on every command and every step. -/

namespace Sys2Proof.Machine

open Sys2Proof

/-- Settles O2: each command is one of those that keep the queue with everything else, or one of the four of `changesSec`, shown alone. -/
theorem everyCommandCompletesAndLeavesTheQueue : Obligations.EveryCommandCompletesAndLeavesTheQueue := by
  intro c s
  obtain ⟨t, e, h⟩ := exec_follows c s
  exact ⟨t, e, h.queue⟩

/-- Settles O3: a trip is `State.tamper`, and no command and no tick leaves TAMPERED. -/
theorem tamperTripEntersTamperedAndNoStepLeavesIt : Obligations.TamperTripEntersTamperedAndNoStepLeavesIt := by
  refine ⟨fun x s hx hl => ⟨s.tamper x.bit, execTamperTrip_of_live x s hx hl, ?_⟩, fun _ _ => step_tampered⟩
  rw [State.tamper_sec]
  exact ⟨rfl, bitAt_lor_two_pow _ _, rfl, rfl, s.tamper_stopped _, fun _ hc => s.tamper_clearing _ hc⟩

end Sys2Proof.Machine
end

section
/-! SUPPORT. Registers: where each element of each block lies, what an access names, and what a read clears and a write takes (R15 to R19, R23,
R525, R527). -/

namespace Sys2Proof.Machine

open Sys2Proof

/-! ### What a narrow, unaligned or misplaced access does (R17, R23) -/

theorem satAdd_sixteen (n : Nat) : satAdd 16 n 1 = min 65535 (n + 1) := by
  unfold satAdd
  split <;> omega

/-- The access error of function `f`: it is counted in the queue of its source, and an ACCESS event tells its offset and kind. -/
theorem State.windowMiss_eq (s : State) (f : FnId) (o : Nat) (w : Bool) :
    let q := if f = 0 then 0 else f.val + 1
    s.windowMiss f.val o w = (s.setShv q { s.shv q with accessErr := min 65535 ((s.shv q).accessErr + 1) }).event q 0 0
      (if f = 0 then 10 else f.val) (o + (if w then 18446744073709551616 else 0)) := by
  have hv : b2n w * 2 ^ 64 = if w then 18446744073709551616 else 0 := by cases w <;> rfl
  simp only [State.windowMiss, satAdd_sixteen, hv, Fin.val_eq_zero_iff]

/-! ### What an access names and does -/

theorem State.accessed_host (s : State) {a : RegAccess} (h : a.fn = 0) : s.accessed a = decodeReg a.offset := by
  simp [State.accessed, h]

theorem State.accessed_vf (s : State) {a : RegAccess} (h : a.fn ≠ 0) : s.accessed a = s.vfReg a.fn.val a.offset := by
  simp [State.accessed, h]

theorem State.access_named (s : State) {a : RegAccess} {r : Reg} {i c : Nat} (hs : a.size = 8) (ho : a.offset % 8 = 0)
    (e : s.accessed a = some (r, i, c)) :
    s.access a = if a.write then s.writeReg a.fn.val r i c (a.value % 2 ^ 64) else s.readReg a.fn.val a.offset r i c := by
  simp [State.access, hs, ho, e]

theorem State.access_untabled (s : State) {a : RegAccess} (hs : a.size = 8) (ho : a.offset % 8 = 0) (hf : a.fn = 0)
    (e : decodeReg a.offset = none) : s.access a = if a.write then s else s.emit (.regRead a.offset 0) := by
  simp [State.access, hs, ho, hf, s.accessed_host hf, e]

/-- An access is missed where it is narrow or unaligned, or a VF's names no register of its window. -/
theorem State.access_missed (s : State) {a : RegAccess}
    (h : a.size ≠ 8 ∨ a.offset % 8 ≠ 0 ∨ (a.fn ≠ 0 ∧ s.vfReg a.fn.val a.offset = none)) : s.access a = s.badAccess a := by
  unfold State.access
  split
  · rfl
  next hal =>
    obtain ⟨hf, e⟩ := (h.resolve_left fun k => hal (by simp [k])).resolve_left fun k => hal (by simp [k])
    simp [s.accessed_vf hf, e, hf]

/-! ### Where the registers of a block lie (R15, R16) -/

/-- No element of row `r` lies at the offset of an element of row `p` that stands before it: `p`'s last element lies before `r`, or the two
arrays interleave at one stride. -/
def RegRow.before (p r : RegRow) : Bool :=
  decide (p.off + p.stride * (p.count - 1) < r.off) ||
    (p.stride == r.stride && decide (p.off ≤ r.off) && (r.off - p.off) % p.stride != 0)

theorem RegRow.before_misses {p r : RegRow} (h : p.before r = true) (n : Nat) :
    ¬(p.off ≤ r.off + r.stride * n ∧ (r.off + r.stride * n - p.off) % p.stride = 0 ∧
      (r.off + r.stride * n - p.off) / p.stride < p.count) := by
  rintro ⟨_, hm, hd⟩
  simp only [RegRow.before, Bool.and_eq_true, Bool.or_eq_true, decide_eq_true_eq, beq_iff_eq, bne_iff_ne] at h
  rcases h with hend | ⟨⟨hs, hle⟩, hne⟩
  · have hx := Nat.div_add_mod (r.off + r.stride * n - p.off) p.stride
    have hle := Nat.mul_le_mul_left p.stride (Nat.le_sub_one_of_lt hd)
    omega
  · rw [← hs, Nat.sub_add_comm hle, Nat.add_mul_mod_self_left] at hm
    exact hne hm

/-- In a block whose rows do not meet, each element of each row is found at its place. -/
theorem findRow_elem {rows : List RegRow} (hrows : rows.Pairwise fun p r => p.before r = true) {r : RegRow} (hr : r ∈ rows) (hs : 0 < r.stride)
    {n : Nat} (hn : n < r.count) : findRow rows (r.off + r.stride * n) = some (r.reg, n) := by
  induction hrows with
  | nil => cases hr
  | cons hp _ ih =>
    cases hr with
    | head => simp [findRow, Nat.mul_div_cancel_left _ hs, hn]
    | tail _ hr => rw [findRow, if_neg (RegRow.before_misses (hp _ hr) n), ih hr]

theorem hifRows_before : hifRows.Pairwise fun p r => p.before r = true := by decide
theorem spnRows_before : spnRows.Pairwise fun p r => p.before r = true := by decide
theorem celRows_before : celRows.Pairwise fun p r => p.before r = true := by decide
theorem aggRows_before : aggRows.Pairwise fun p r => p.before r = true := by decide
theorem memRows_before : memRows.Pairwise fun p r => p.before r = true := by decide
theorem fabRows_before : fabRows.Pairwise fun p r => p.before r = true := by decide
theorem secRows_before : secRows.Pairwise fun p r => p.before r = true := by decide
theorem pwrRows_before : pwrRows.Pairwise fun p r => p.before r = true := by decide
theorem dbgRows_before : dbgRows.Pairwise fun p r => p.before r = true := by decide

theorem findRing_descData {t i : Nat} (ht : t < 8) (hi : i < 8) : findRing (0x1008 + 128 * t + 8 * i) = some (.ringDescData, 8 * t + i) := by
  have hx : 0x1008 + 128 * t + 8 * i - 0x1008 = 8 * i + 128 * t := by omega
  have hd : (8 * i + 128 * t) / 128 = t := by omega
  have hm : (8 * i + 128 * t) % 128 = 8 * i := by omega
  unfold findRing
  simp only [hx, hd, hm]
  rw [if_pos (by omega), Nat.mul_div_cancel_left _ (by decide)]

/-! ### Where the blocks lie in BAR0 (R525) -/

/-- What an offset in the block at `k` times 2 MiB names. -/
def blockReg (k x : Nat) : Option (Reg × Nat × Nat) :=
  let plain := fun (y : Option (Reg × Nat)) => y.map (fun (r, i) => (r, i, 0))
  match k with
  | 1 => plain (findRow jigRows x)
  | 2 => if x < 2 ^ 20 then (findRow celRows (x % 0x4000)).map (fun (r, i) => (r, i, x / 0x4000)) else none
  | 3 => plain (findRow aggRows x)
  | 4 => plain (findRing x)
  | 5 => plain (findRow memRows x)
  | 6 => plain (findRow fabRows x)
  | 7 => plain (findRow secRows x)
  | 8 => plain (findRow pwrRows x)
  | 9 => plain (findRow dbgRows x)
  | _ => none

theorem decodeReg_hif {o : Nat} (h : o < 2 ^ 20) : decodeReg o = (findRow hifRows o).map fun (r, i) => (r, i, 0) := by
  have hd : o / 2 ^ 20 = 0 := by omega
  simp only [decodeReg, hd, if_true]

theorem decodeReg_spn {x : Nat} (h : x < 2 ^ 20) : decodeReg (2 ^ 20 + x) = (findRow spnRows x).map fun (r, i) => (r, i, 0) := by
  have hd : (2 ^ 20 + x) / 2 ^ 20 = 1 := by omega
  simp only [decodeReg, hd, Nat.add_sub_cancel_left, if_true, if_neg Nat.one_ne_zero]

theorem decodeReg_block {k x : Nat} (hk : 1 ≤ k) (hx : x < 2 ^ 21) : decodeReg (2 ^ 21 * k + x) = blockReg k x := by
  have h0 : (2 ^ 21 * k + x) / 2 ^ 20 ≠ 0 := by omega
  have h1 : (2 ^ 21 * k + x) / 2 ^ 20 ≠ 1 := by omega
  have hd : (2 ^ 21 * k + x) / 2 ^ 21 = k := by omega
  have hm : (2 ^ 21 * k + x) % 2 ^ 21 = x := by omega
  unfold decodeReg blockReg
  simp only [h0, h1, hd, hm, if_false] <;> rfl

/-- Registers of CEL: the cells lie 0x4000 apart. -/
theorem decodeReg_cel {c x : Nat} (hc : c < 64) (hx : x < 0x4000) :
    decodeReg (2 ^ 21 * 2 + (0x4000 * c + x)) = (findRow celRows x).map fun (r, i) => (r, i, c) := by
  have hl : 0x4000 * c + x < 2 ^ 20 := by omega
  have hd : (0x4000 * c + x) / 0x4000 = c := by omega
  have hm : (0x4000 * c + x) % 0x4000 = x := by omega
  rw [decodeReg_block (by decide) (by omega)]
  simp only [blockReg, hl, hd, hm, if_true]

/-! ### What a VF's window shows (R527) -/

theorem State.vfReg_hif (s : State) (t : Nat) {o : Nat} (h : o < 2 ^ 16) :
    s.vfReg t o = (findRow hifRows o).bind fun (r, i) => (vfElem t r i).map fun j => (r, j, 0) := by
  have hd : o / 2 ^ 16 = 0 := by omega
  simp only [State.vfReg, hd]

theorem State.vfReg_spn (s : State) (t : Nat) {x : Nat} (h : x < 0x1000) :
    s.vfReg t (0x10000 + x) = (findRow spnRows x).bind fun (r, i) => (vfElem t r i).map fun j => (r, j, 0) := by
  have hd : (0x10000 + x) / 2 ^ 16 = 1 := by omega
  have hl : 0x10000 + x < 0x11000 := by omega
  simp only [State.vfReg, hd, hl, if_true, Nat.add_sub_cancel_left]

theorem State.vfReg_dbg (s : State) (t : Nat) {x : Nat} (h : x < 2 ^ 16) :
    s.vfReg t (0xE0000 + x) = (findRow dbgRows x).bind fun (r, i) => (vfElem t r i).map fun j => (r, j, 0) := by
  have hd : (0xE0000 + x) / 2 ^ 16 = 14 := by omega
  simp only [State.vfReg, hd, Nat.add_sub_cancel_left]

/-- The cells lie 0x1000 apart; those of the tenant's groups are shown. -/
theorem State.vfReg_cel (s : State) (t : Nat) {c x : Nat} (hc : c < 64) (hx : x < 0x1000) :
    s.vfReg t (0x20000 + 0x1000 * c + x) = if s.cellTenant c = t then (findRow celRows x).map fun (r, i) => (r, i, c) else none := by
  have hk : (0x20000 + 0x1000 * c + x) / 2 ^ 16 = 2 ∨ (0x20000 + 0x1000 * c + x) / 2 ^ 16 = 3 ∨
      (0x20000 + 0x1000 * c + x) / 2 ^ 16 = 4 ∨ (0x20000 + 0x1000 * c + x) / 2 ^ 16 = 5 := by omega
  have hd : (0x20000 + 0x1000 * c + x - 0x20000) / 0x1000 = c := by omega
  have hm : (0x20000 + 0x1000 * c + x) % 0x1000 = x := by omega
  rcases hk with hk | hk | hk | hk <;> simp only [State.vfReg, hk, hd, hm]

/-- The doorbells of the endpoints that the tenant's are. -/
theorem State.vfReg_epDoorbell (s : State) (t : Nat) {e : Nat} (he : e < 8192) :
    s.vfReg t (0xB0000 + 8 * e) = if (s.ep e).state ≠ 0 ∧ (s.ep e).tenant = t then some (.fabEpDoorbell, e, 0) else none := by
  have hk : (0xB0000 + 8 * e) / 2 ^ 16 = 11 := by omega
  have hd : (0xB0000 + 8 * e - 0xB0000) / 8 = e := by omega
  have hm : (0xB0000 + 8 * e - 0xB0000) % 8 = 0 := by omega
  simp only [State.vfReg, hk, hd, hm, he, true_and]

/-! ### Registers that a read clears, and registers that take a write (R18) -/

/-- The registers with an RC field. -/
def Reg.clears : Reg → Bool
  | .hifExch | .spnFreeze | .spnBarrier | .celErr | .celArith | .aggRefuse | .aggPool | .aggShares | .aggIngest | .ringErr | .ringExit
  | .memErr | .memKey | .fabPortErr | .fabEthDrop | .fabLaser | .fabFlows | .fabTenant | .secTrng | .pwrPackage | .pwrTrip | .pwrTemp
  | .pwrRail | .pwrGrant | .dbgHost | .dbgCalipers | .dbgShvStatus => true
  | _ => false

/-- A read leaves a register without RC fields, and the rest of the engine, as they were. -/
theorem State.clearOnRead_eq_self (s : State) {r : Reg} (h : r.clears = false) (fn i c : Nat) : s.clearOnRead fn r i c = s := by
  cases r <;> cases h <;> rfl

/-- The registers with a field that a write sets, clears or acts by. -/
def Reg.takesWrites : Reg → Bool
  | .hifReset | .hifHeartbeat | .hifSqBase | .hifCqBase | .hifQCfg | .hifSqDoorbell | .hifCqDoorbell
  | .spnStatus | .spnEpoch | .jigRouteSet | .jigShadowAddr | .jigLiveHost | .jigLiveEvents | .jigLiveThermal | .celModulus | .celErrAddr
  | .aggBindCtl | .aggBindChunks | .aggBindCohorts | .aggBindAddr
  | .ringTenant | .ringDescSel | .memExch | .memFaultLimit | .memUeLog | .memRetire | .memReceiptSel | .memMapVa | .memMapArg
  | .memMapCtl | .memWalkVa | .memFaultVa
  | .fabPortCtl | .fabEpDoorbell | .secApproved | .secChallengeCtl | .secKeyQuota | .secKeySel | .secCalSel
  | .dbgCalipers | .dbgShvStatus | .dbgShvPop => true
  | _ => false

theorem State.ifWritable_self (s : State) : s.ifWritable (fun u => u) = s := by
  simp [State.ifWritable]

/-- A register whose every field is RO or RC takes nothing from a write. -/
theorem State.writeReg_eq_self (s : State) {r : Reg} (h : r.takesWrites = false) (fn i c v : Nat) : s.writeReg fn r i c v = s := by
  cases r <;> cases h <;> exact s.ifWritable_self

/-- Element `n` of an array of a block that is not CEL's. -/
theorem decodeReg_elem {k : Nat} {rows : List RegRow} (hb : ∀ x, blockReg k x = (findRow rows x).map fun (r, i) => (r, i, 0))
    (hrows : rows.Pairwise fun p r => p.before r = true) {reg : Reg} {off count stride n o : Nat} (hr : ⟨reg, off, count, stride⟩ ∈ rows)
    (hs : 0 < stride) (hn : n < count) (hk : 1 ≤ k) (hx : off + stride * n < 2 ^ 21) (ho : o = 2 ^ 21 * k + (off + stride * n)) :
    decodeReg o = some (reg, n, 0) := by
  rw [ho, decodeReg_block hk hx, hb, findRow_elem hrows hr hs hn, Option.map_some]

theorem decodeReg_hifSqDoorbell {n : Nat} (h : n < 128) : decodeReg (0x1018 + 64 * n) = some (.hifSqDoorbell, n, 0) := by
  rw [decodeReg_hif (by omega), findRow_elem hifRows_before (r := ⟨.hifSqDoorbell, 0x1018, 128, 0x40⟩) (by decide) (by decide) h,
    Option.map_some]

theorem decodeReg_spnLinkDelay {p : Nat} (h : p < 16) : decodeReg (0x100040 + 8 * p) = some (.spnLinkDelay, p, 0) := by
  rw [show 0x100040 + 8 * p = 2 ^ 20 + (0x40 + 8 * p) by omega, decodeReg_spn (by omega),
    findRow_elem spnRows_before (r := ⟨.spnLinkDelay, 0x40, 16, 0x8⟩) (by decide) (by decide) h, Option.map_some]

theorem decodeReg_celModulus {c n : Nat} (hc : c < 64) (hn : n < 16) :
    decodeReg (0x400100 + 0x4000 * c + 8 * n) = some (.celModulus, n, c) := by
  rw [show 0x400100 + 0x4000 * c + 8 * n = 2 ^ 21 * 2 + (0x4000 * c + (0x100 + 8 * n)) by omega, decodeReg_cel hc (by omega),
    findRow_elem celRows_before (r := ⟨.celModulus, 0x100, 16, 0x8⟩) (by decide) (by decide) hn, Option.map_some]

theorem decodeReg_aggBindAddr {e : Nat} (h : e < 256) : decodeReg (0x601018 + 32 * e) = some (.aggBindAddr, e, 0) :=
  decodeReg_elem (k := 3) (off := 0x1018) (stride := 32) (fun _ => rfl) aggRows_before (by decide) (by decide) h (by decide) (by omega) (by omega)

theorem decodeReg_ringDescData {t i : Nat} (ht : t < 8) (hi : i < 8) :
    decodeReg (0x801008 + 128 * t + 8 * i) = some (.ringDescData, 8 * t + i, 0) := by
  rw [show 0x801008 + 128 * t + 8 * i = 2 ^ 21 * 4 + (0x1008 + 128 * t + 8 * i) by omega, decodeReg_block (by decide) (by omega)]
  simp only [blockReg, findRing_descData ht hi, Option.map_some]

theorem decodeReg_memFaultVa {x : Nat} (h : x < 256) : decodeReg (0xA00600 + 16 * x) = some (.memFaultVa, x, 0) :=
  decodeReg_elem (k := 5) (off := 0x600) (stride := 16) (fun _ => rfl) memRows_before (by decide) (by decide) h (by decide) (by omega) (by omega)

theorem decodeReg_fabEpDoorbell {e : Nat} (h : e < 8192) : decodeReg (0xC20000 + 8 * e) = some (.fabEpDoorbell, e, 0) :=
  decodeReg_elem (k := 6) (off := 0x20000) (stride := 8) (fun _ => rfl) fabRows_before (by decide) (by decide) h (by decide) (by omega) (by omega)

theorem decodeReg_secKeyQuota {t : Nat} (h : t < 8) : decodeReg (0xE00140 + 8 * t) = some (.secKeyQuota, t, 0) :=
  decodeReg_elem (k := 7) (off := 0x140) (stride := 8) (fun _ => rfl) secRows_before (by decide) (by decide) h (by decide) (by omega) (by omega)

theorem decodeReg_pwrGrant {i : Nat} (h : i < 64) : decodeReg (0x1000100 + 8 * i) = some (.pwrGrant, i, 0) :=
  decodeReg_elem (k := 8) (off := 0x100) (stride := 8) (fun _ => rfl) pwrRows_before (by decide) (by decide) h (by decide) (by omega) (by omega)

theorem decodeReg_dbgShvPop {q : Nat} (h : q < 9) : decodeReg (0x1200200 + 8 * q) = some (.dbgShvPop, q, 0) :=
  decodeReg_elem (k := 9) (off := 0x200) (stride := 8) (fun _ => rfl) dbgRows_before (by decide) (by decide) h (by decide) (by omega) (by omega)

/-- An element of VF `t`'s queue pairs stands in its window for one of the sixteen pairs of its own. -/
theorem State.vfReg_hifSqDoorbell (s : State) (t : Nat) {n : Nat} (h : n < 16) :
    s.vfReg t (0x1018 + 64 * n) = some (.hifSqDoorbell, 16 * t + n, 0) := by
  rw [s.vfReg_hif t (by omega),
    findRow_elem hifRows_before (r := ⟨.hifSqDoorbell, 0x1018, 128, 0x40⟩) (by decide) (by decide) (show n < 128 by omega)]
  simp [vfElem, ownElems, h]

/-! ### Accesses as the commands make them -/

/-- An aligned 64-bit access to a register reads its value and clears it, or writes it (R17, R18). -/
theorem access_of_register (s : State) (a : RegAccess) (r : Reg) (i c : Nat) (hs : a.size = 8) (ho : a.offset % 8 = 0)
    (h : (a.fn = 0 ∧ decodeReg a.offset = some (r, i, c)) ∨ (a.fn ≠ 0 ∧ s.vfReg a.fn.val a.offset = some (r, i, c))) :
    exec (.readClear a) s = .next ((s.emit (.regRead a.offset (s.regValue a.fn.val r i c))).clearOnRead a.fn.val r i c) ∧
    exec (.registerWrite a) s = .next (s.writeReg a.fn.val r i c (a.value % 18446744073709551616)) := by
  have e : s.accessed a = some (r, i, c) := by
    rcases h with ⟨hf, e⟩ | ⟨hf, e⟩
    · rw [s.accessed_host hf, e]
    · rw [s.accessed_vf hf, e]
  exact ⟨congrArg _ (s.access_named (a := { a with write := false }) hs ho e),
    congrArg _ (s.access_named (a := { a with write := true }) hs ho e)⟩

/-- The host driver reads 0 and writes nothing where no register is tabled (R19). -/
theorem access_of_untabled (s : State) (a : RegAccess) (hs : a.size = 8) (ho : a.offset % 8 = 0) (hf : a.fn = 0)
    (e : decodeReg a.offset = none) :
    exec (.readClear a) s = .next (s.emit (.regRead a.offset 0)) ∧ exec (.registerWrite a) s = .next s :=
  ⟨congrArg _ (s.access_untabled (a := { a with write := false }) hs ho hf e),
    congrArg _ (s.access_untabled (a := { a with write := true }) hs ho hf e)⟩

theorem State.badAccess_eq (s : State) (a : RegAccess) :
    s.badAccess a = if a.write then s.windowMiss a.fn.val a.offset true else (s.emit (.regRead a.offset 0)).windowMiss a.fn.val a.offset false := by
  unfold State.badAccess
  cases a.write <;> rfl

/-- A narrow, unaligned or misplaced access reads 0, writes nothing and is counted with an event (R17, R23). -/
theorem access_of_miss (s : State) (a : RegAccess)
    (h : a.size ≠ 8 ∨ a.offset % 8 ≠ 0 ∨ (a.fn ≠ 0 ∧ s.vfReg a.fn.val a.offset = none)) :
    exec (.readClear a) s = .next ((s.emit (.regRead a.offset 0)).windowMiss a.fn.val a.offset false) ∧
    exec (.registerWrite a) s = .next (s.windowMiss a.fn.val a.offset true) ∧
    exec (.accessError a) s = .next (s.badAccess a) ∧ exec (.vfWindowMiss a) s = .next (s.badAccess a) := by
  have hr : s.access { a with write := false } = (s.emit (.regRead a.offset 0)).windowMiss a.fn.val a.offset false :=
    s.access_missed (a := { a with write := false }) h
  have hw : s.access { a with write := true } = s.windowMiss a.fn.val a.offset true :=
    s.access_missed (a := { a with write := true }) h
  have hb := s.access_missed h
  exact ⟨congrArg Host.Outcome.next hr, congrArg Host.Outcome.next hw, congrArg Host.Outcome.next hb, congrArg Host.Outcome.next hb⟩

/-- ACCESS_ERROR and VF_WINDOW_MISS of an access are its read or its write. -/
theorem State.access_eq_exec (s : State) (a : RegAccess) :
    .next (s.access a) = if a.write then exec (.registerWrite a) s else exec (.readClear a) s := by
  obtain ⟨fn, offset, size, write, value⟩ := a
  cases write <;> rfl

/-! ### What a read clears in an element of an array -/

theorem State.clearOnRead_celErr (s : State) (fn i c : Nat) : s.clearOnRead fn .celErr i c = s.setCell c { s.cell c with err := [] } := rfl

theorem State.clearOnRead_celArith (s : State) (fn i c : Nat) : s.clearOnRead fn .celArith i c = s.setCell c { s.cell c with arith := [] } := rfl

theorem State.clearOnRead_fabPortErr (s : State) (fn i c : Nat) :
    s.clearOnRead fn .fabPortErr i c = s.setPort i { s.port i with fecCorr := 0, fecUncorr := 0, replays := 0, tagFail := 0 } := rfl

theorem State.clearOnRead_fabEthDrop (s : State) (fn i c : Nat) : s.clearOnRead fn .fabEthDrop i c = s.setPort i { s.port i with drops := [] } := rfl

theorem State.clearOnRead_fabTenant (s : State) (fn i c : Nat) :
    s.clearOnRead fn .fabTenant i c = s.setFabTenant i { s.fabTenant i with gone := 0, nakParked := 0 } := rfl

theorem State.clearOnRead_dbgShvStatus (s : State) (fn i c : Nat) :
    s.clearOnRead fn .dbgShvStatus i c = s.setShv i { s.shv i with lost := 0, accessErr := 0 } := rfl

/-- A VF's read of a round that is not its tenant's, or of a free one, clears nothing (R271). -/
theorem State.clearOnRead_aggRefuse (s : State) (fn i c : Nat) :
    s.clearOnRead fn .aggRefuse i c =
      if fn != 0 && ((s.round i).tenant != fn || (s.round i).state == .free) then s else s.setRound i { s.round i with refused := [] } := rfl

/-! ### What a write does to W1C and RW fields outside TAMPERED -/

section
variable (s : State) (h : s.sec.lifecycle ≠ .tampered) (fn i c v : Nat)
include h

theorem State.writeReg_spnStatus : s.writeReg fn .spnStatus i c v = if bitAt v 6 then s.updSpn fun x => { x with epochErr := false } else s :=
  s.ifWritable_of _ h

theorem State.writeReg_memUeLog :
    s.writeReg fn .memUeLog i c v = if bitAt v 53 then { s with mem := { s.mem with ueLog := none } } else s :=
  s.ifWritable_of _ h

theorem State.writeReg_celErrAddr :
    s.writeReg fn .celErrAddr i c v = if bitAt v 22 then s.setCell c { s.cell c with errAddr := none } else s :=
  s.ifWritable_of _ h

theorem State.writeReg_dbgShvStatus :
    s.writeReg fn .dbgShvStatus i c v = if bitAt v 14 then s.setShv i { s.shv i with emptyRead := false } else s :=
  s.ifWritable_of _ h

theorem State.writeReg_memFaultLimit :
    s.writeReg fn .memFaultLimit i c v = { s with mem := { s.mem with faultLimit := v % 2 ^ 32 } } :=
  s.ifWritable_of _ h

theorem State.writeReg_memReceiptSel :
    s.writeReg fn .memReceiptSel i c v = { s with mem := { s.mem with receiptSel := v % 2 ^ 15 } } :=
  s.ifWritable_of _ h

theorem State.writeReg_jigShadowAddr :
    s.writeReg fn .jigShadowAddr i c v = s.updJig fun j => { j with shadowAddr := bits v 3 23 * 8 } :=
  s.ifWritable_of _ h

theorem State.writeReg_memMapArg : s.writeReg fn .memMapArg i c v = s.setMapRegs i { s.mapRegs i with arg := v } :=
  s.ifWritable_of _ h

end

end Sys2Proof.Machine
end

section
/-! The obligation on registers. -/

namespace Sys2Proof.Machine

open Sys2Proof

/-- Settles O59: an access acts by whether it is whole, aligned and names a register; rows of a block that do not meet give each element its
place; and a read or a write changes no more than the register's own RC or writable fields. -/
theorem registersAreReadClearedWrittenOrMissed : Obligations.RegistersAreReadClearedWrittenOrMissed := by
  refine ⟨⟨access_of_register, access_of_untabled, ?miss, ?same⟩, ?places, ?clears, ?keeps, ?readOnly, ?tampered, ?takes⟩
  case miss =>
    intro s a h
    have m := access_of_miss s a h
    simp only [State.badAccess_eq, State.windowMiss_eq] at m
    exact m
  case same =>
    exact fun s a _ _ _ => ⟨s.access_eq_exec a, s.access_eq_exec a⟩
  case places =>
    refine ⟨by decide, fun _ => decodeReg_hifSqDoorbell, by decide, fun _ => decodeReg_spnLinkDelay, by decide, by decide,
      fun _ _ => decodeReg_celModulus, by decide, fun _ => decodeReg_aggBindAddr, by decide, fun _ _ => decodeReg_ringDescData,
      by decide, fun _ => decodeReg_memFaultVa, by decide, fun _ => decodeReg_fabEpDoorbell, by decide, fun _ => decodeReg_secKeyQuota,
      by decide, fun _ => decodeReg_pwrGrant, by decide, fun _ => decodeReg_dbgShvPop, by decide, by decide, by decide, by decide, by decide,
      fun s t _ _ => ⟨fun _ => s.vfReg_hifSqDoorbell t, ?_, ?_, s.vfReg_spn t (x := 0x100) (by decide), s.vfReg_dbg t (x := 0x100) (by decide),
        rfl, fun c hc => s.vfReg_cel t (x := 0) hc (by decide), fun _ => s.vfReg_epDoorbell t⟩⟩
    · rw [s.vfReg_hif t (by decide)]
      rfl
    · rw [s.vfReg_hif t (by decide)]
      rfl
  case clears =>
    intro s fn i c
    refine ⟨rfl, rfl, rfl, ?_, ?_, rfl, ?_, ?_, rfl, ?_, rfl, rfl, rfl, rfl, rfl, ?_, ?_, ?_, fun hf ht => ?_⟩
    · simp [State.clearOnRead_celErr]
    · simp [State.clearOnRead_celArith]
    · simp [State.clearOnRead_fabPortErr]
    · simp [State.clearOnRead_fabEthDrop]
    · simp [State.clearOnRead_fabTenant]
    · simp [State.clearOnRead_dbgShvStatus]
    · simp [State.clearOnRead_dbgShvStatus]
    · rw [State.clearOnRead_aggRefuse]
      split
      · exact .inl rfl
      · simp
    · simp [State.clearOnRead_aggRefuse, hf, ht]
  case keeps =>
    intro s fn i c r hr
    refine s.clearOnRead_eq_self ?_ fn i c
    revert r
    decide
  case readOnly =>
    intro s fn i c v r hr
    refine s.writeReg_eq_self ?_ fn i c v
    revert r
    decide
  case tampered =>
    exact fun s fn i c v r h => s.ifWritable_tampered _ h
  case takes =>
    intro s fn i c v h
    rw [s.writeReg_spnStatus h, s.writeReg_memUeLog h, s.writeReg_celErrAddr h, s.writeReg_dbgShvStatus h, s.writeReg_memFaultLimit h,
      s.writeReg_memReceiptSel h, s.writeReg_jigShadowAddr h, s.writeReg_memMapArg h]
    refine ⟨?_, ?_, ?_, ?_, rfl, rfl, rfl, by simp⟩
    · show _ = (s.spn.epochErr && !bitAt v 6)
      cases bitAt v 6 <;> simp [State.updSpn]
    · by_cases hb : v / 9007199254740992 % 2 = 1 <;> simp [bitAt, hb]
    · by_cases hb : v / 4194304 % 2 = 1 <;> simp [bitAt, hb]
    · show _ = ((s.shv i).emptyRead && !bitAt v 14)
      cases bitAt v 14 <;> simp

end Sys2Proof.Machine
end

section
/-! SUPPORT. What the work of a turn boundary leaves alone (R60): the committed jig, Bus Master Enable, the place of the boundary and what it has
decided on issue and losses, the DMA budgets, the tenants' states and the NAK counts. The rules follow the shapes of the model's definitions. -/

namespace Sys2Proof.Machine

open Sys2Proof

/-! ### The relation -/

/-- What the work of a boundary keeps of the Spindle; members are declared lost and not taken back. -/
structure SpnKeeps (x y : Spn) : Prop where
  boundary : y.lastBoundary = x.lastBoundary
  pos : y.pos = x.pos
  stopDue : y.stopDue = x.stopDue
  stopped : y.stopped = x.stopped
  lossDue : y.lossDue = x.lossDue
  budgetDma : y.budgetDma = x.budgetDma
  lost : x.lost ⊆ y.lost

theorem SpnKeeps.refl (x : Spn) : SpnKeeps x x := ⟨rfl, rfl, rfl, rfl, rfl, rfl, fun _ h => h⟩

theorem SpnKeeps.trans {x y z : Spn} (h : SpnKeeps x y) (k : SpnKeeps y z) : SpnKeeps x z :=
  ⟨k.boundary.trans h.boundary, k.pos.trans h.pos, k.stopDue.trans h.stopDue, k.stopped.trans h.stopped, k.lossDue.trans h.lossDue,
    k.budgetDma.trans h.budgetDma, fun _ hm => k.lost (h.lost hm)⟩

/-- A tenant's state and the cause for which a suspension is due. -/
def Tenant.standing (x : Tenant) : TenantState × Nat := (x.state, x.suspendDue)

/-- What state `s`, reached from `s₀` within a turn boundary, has kept of it; of the tenants in `K` also their standing. -/
structure TurnKeeps (K : Nat → Prop) (s₀ s : State) : Prop where
  jig : s.jig = s₀.jig
  bme : s.hif.bme = s₀.hif.bme
  spn : SpnKeeps s₀.spn s.spn
  tenant : ∀ t, K t → (s.tenant t).standing = (s₀.tenant t).standing
  /-- No NAK of an endpoint that had none is counted. -/
  naks : ∀ e, (s₀.ep e).naksTurn = 0 → (s.ep e).naksTurn = 0

variable {K : Nat → Prop} {s₀ s t : State}

theorem TurnKeeps.refl (s : State) : TurnKeeps K s s := ⟨rfl, rfl, .refl _, fun _ _ => rfl, fun _ => id⟩

theorem TurnKeeps.trans (h : TurnKeeps K s₀ s) (k : TurnKeeps K s t) : TurnKeeps K s₀ t :=
  ⟨k.jig.trans h.jig, k.bme.trans h.bme, h.spn.trans k.spn, fun u hu => (k.tenant u hu).trans (h.tenant u hu),
    fun e he => k.naks e (h.naks e he)⟩

theorem TurnKeeps.state (h : TurnKeeps K s₀ s) {u : Nat} (hu : K u) : (s.tenant u).state = (s₀.tenant u).state :=
  congrArg Prod.fst (h.tenant u hu)

theorem TurnKeeps.suspendDue (h : TurnKeeps K s₀ s) {u : Nat} (hu : K u) : (s.tenant u).suspendDue = (s₀.tenant u).suspendDue :=
  congrArg Prod.snd (h.tenant u hu)

/-- An update of the record that leaves alone what the relation speaks of. -/
theorem TurnKeeps.upd (h : TurnKeeps K s₀ s) {waiting slot0 cells progs loads agg ring mem ram pwr dbg perst coldDue warmAt out freeCtr pending}
    {hif : Hif} {spn : Spn} {sec : Sec} {fab : Fab} (hb : hif.bme = s.hif.bme := by rfl)
    (hs : SpnKeeps s.spn spn := by exact ⟨rfl, rfl, rfl, rfl, rfl, rfl, fun _ h => h⟩)
    (ht : sec.tenants = s.sec.tenants := by rfl) (he : fab.eps = s.fab.eps := by rfl) :
    TurnKeeps K s₀ { s with
      waiting := waiting, slot0 := slot0, hif := hif, spn := spn, cells := cells, progs := progs, loads := loads, agg := agg, ring := ring,
      mem := mem, ram := ram, fab := fab, sec := sec, pwr := pwr, dbg := dbg, perst := perst, coldDue := coldDue, warmAt := warmAt,
      out := out, freeCtr := freeCtr, pending := pending } :=
  h.trans ⟨rfl, hb, hs, fun u _ => by simp only [State.tenant, ht], fun e => by simp only [State.ep, he]; exact id⟩

theorem TurnKeeps.ite {c : Prop} {_ : Decidable c} (h : TurnKeeps K s₀ s) (k : TurnKeeps K s₀ t) : TurnKeeps K s₀ (if c then s else t) := by
  split
  · exact h
  · exact k

/-- A fold keeps what each of its steps keeps. -/
theorem TurnKeeps.each (h : TurnKeeps K s₀ s) {α : Type} {l : List α} {f : State → α → State}
    (hf : ∀ u a, TurnKeeps K s₀ u → TurnKeeps K s₀ (f u a)) : TurnKeeps K s₀ (s.each l f) :=
  State.each_induct s (TurnKeeps K s₀) f l (fun u a _ => hf u a) h

/-! ### The shared operations -/

theorem TurnKeeps.setRound (hk : TurnKeeps K s₀ s) {h : Nat} {r : Round} : TurnKeeps K s₀ (s.setRound h r) := hk.upd
theorem TurnKeeps.updRound (hk : TurnKeeps K s₀ s) {h : Nat} {f : Round → Round} : TurnKeeps K s₀ (s.updRound h f) := hk.setRound
theorem TurnKeeps.setBind (hk : TurnKeeps K s₀ s) {e : Nat} {b : Bind} : TurnKeeps K s₀ (s.setBind e b) := hk.upd
theorem TurnKeeps.setKey (hk : TurnKeeps K s₀ s) {i : Nat} {k : Key} : TurnKeeps K s₀ (s.setKey i k) := hk.upd
theorem TurnKeeps.setPort (hk : TurnKeeps K s₀ s) {p : Nat} {x : Port} : TurnKeeps K s₀ (s.setPort p x) := hk.upd
theorem TurnKeeps.setWork (hk : TurnKeeps K s₀ s) {t d : Nat} {w : List DmaWork} : TurnKeeps K s₀ (s.setWork t d w) := hk.upd
theorem TurnKeeps.setGrant (hk : TurnKeeps K s₀ s) {t c : Nat} {g : Grant} : TurnKeeps K s₀ (s.setGrant t c g) := hk.upd
theorem TurnKeeps.setShv (hk : TurnKeeps K s₀ s) {q : Nat} {x : ShvQueue} : TurnKeeps K s₀ (s.setShv q x) := hk.upd
theorem TurnKeeps.setQueue (hk : TurnKeeps K s₀ s) {f q : Nat} {x : QPair} : TurnKeeps K s₀ (s.setQueue f q x) := hk.upd
theorem TurnKeeps.updPwr (hk : TurnKeeps K s₀ s) {f : Pwr → Pwr} : TurnKeeps K s₀ (s.updPwr f) := hk.upd
theorem TurnKeeps.updHost (hk : TurnKeeps K s₀ s) {f : HostSup → HostSup} : TurnKeeps K s₀ (s.updHost f) := hk.upd
theorem TurnKeeps.emit (hk : TurnKeeps K s₀ s) {o : Out} : TurnKeeps K s₀ (s.emit o) := hk.upd
theorem TurnKeeps.draw (hk : TurnKeeps K s₀ s) : TurnKeeps K s₀ s.draw.2 := hk.upd
theorem TurnKeeps.countKey (hk : TurnKeeps K s₀ s) {i : Nat} : TurnKeeps K s₀ (s.countKey i) := hk.setKey
theorem TurnKeeps.zeroKey (hk : TurnKeeps K s₀ s) {i : Nat} : TurnKeeps K s₀ (s.zeroKey i) := hk.setKey
theorem TurnKeeps.sendDevice (hk : TurnKeeps K s₀ s) {m : DeviceMsg} : TurnKeeps K s₀ (s.sendDevice m) := hk.emit.ite hk.upd
theorem TurnKeeps.interrupt (hk : TurnKeeps K s₀ s) {f v : Nat} : TurnKeeps K s₀ (s.interrupt f v) := hk.upd.ite (hk.upd.ite hk.upd)

theorem TurnKeeps.updSpn (hk : TurnKeeps K s₀ s) {f : Spn → Spn}
    (hs : SpnKeeps s.spn (f s.spn) := by exact ⟨rfl, rfl, rfl, rfl, rfl, rfl, fun _ h => h⟩) : TurnKeeps K s₀ (s.updSpn f) :=
  hk.upd (hs := hs)

theorem TurnKeeps.event (hk : TurnKeeps K s₀ s) {q cls status source detail : Nat} :
    TurnKeeps K s₀ (s.event q cls status source detail) := (hk.setShv.interrupt.ite hk.setShv).ite hk

theorem TurnKeeps.post (hk : TurnKeeps K s₀ s) {k : Completion} : TurnKeeps K s₀ (s.post k) :=
  hk.setQueue.upd.interrupt.ite hk.setQueue.upd

theorem TurnKeeps.complete (hk : TurnKeeps K s₀ s) {c : Cmd} {st : Status} {r0 r1 flags : Nat} :
    TurnKeeps K s₀ (s.complete c st r0 r1 flags) := hk.upd.upd.ite (hk.upd.upd.ite hk.upd.post)

theorem TurnKeeps.returnFrames (hk : TurnKeeps K s₀ s) {t tier f units : Nat} {held : Bool} {round : Option Nat} :
    TurnKeeps K s₀ (s.returnFrames t tier f units held round) := hk.upd.ite hk.upd

theorem TurnKeeps.writeVA (hk : TurnKeeps K s₀ s) {t va n : Nat} {bs : List Byte} : TurnKeeps K s₀ (s.writeVA t va bs n) := by
  rw [State.writeVA_frame]
  exact hk.upd

/-- A tenant is written; where `K` speaks of it, with its standing as it was. -/
theorem TurnKeeps.setTenant (hk : TurnKeeps K s₀ s) {u : Nat} {x : Tenant} (hx : K u → x.standing = (s.tenant u).standing) :
    TurnKeeps K s₀ (s.setTenant u x) := by
  refine hk.trans ⟨rfl, rfl, .refl _, fun v hv => ?_, fun _ => id⟩
  by_cases e : v = u
  · subst e
    rw [State.tenant_setTenant]
    exact hx hv
  · rw [State.tenant_setTenant_other s u v x e]

theorem TurnKeeps.updTenant (hk : TurnKeeps K s₀ s) {u : Nat} {f : Tenant → Tenant}
    (hf : K u → (f (s.tenant u)).standing = (s.tenant u).standing := by exact fun _ => rfl) : TurnKeeps K s₀ (s.updTenant u f) :=
  hk.setTenant hf

theorem TurnKeeps.setTenantState (hk : TurnKeeps K s₀ s) {u : Nat} {st : TenantState} (hu : ¬ K u) :
    TurnKeeps K s₀ (s.setTenantState u st) := (hk.updTenant fun h => absurd h hu).event

/-- An endpoint is written with its NAK count as it was. -/
theorem TurnKeeps.setEp (hk : TurnKeeps K s₀ s) {e : Nat} {x : Endpoint} (hx : x.naksTurn = (s.ep e).naksTurn := by rfl) :
    TurnKeeps K s₀ (s.setEp e x) := by
  refine hk.trans ⟨rfl, rfl, .refl _, fun _ _ => rfl, fun j hj => ?_⟩
  by_cases h : j = e
  · subst h
    rw [State.ep_setEp, hx]
    exact hj
  · rw [State.ep_setEp_other s e j x h]
    exact hj

theorem TurnKeeps.updEp (hk : TurnKeeps K s₀ s) {e : Nat} {f : Endpoint → Endpoint}
    (hf : (f (s.ep e)).naksTurn = (s.ep e).naksTurn := by rfl) : TurnKeeps K s₀ (s.updEp e f) := hk.setEp hf

/-! ### Rounds (R234, R240, R243, R269, R297, R303) -/

theorem TurnKeeps.reportGate (hk : TurnKeeps K s₀ s) {h : Nat} : TurnKeeps K s₀ (s.reportGate h) :=
  hk.sendDevice.updRound.ite hk.sendDevice

theorem TurnKeeps.endRoundCmds (hk : TurnKeeps K s₀ s) {h : Nat} {st : Status} : TurnKeeps K s₀ (s.endRoundCmds h st) :=
  hk.setRound.each fun _ _ hk1 => hk1.complete

theorem TurnKeeps.unmapRound (hk : TurnKeeps K s₀ s) {t h : Nat} : TurnKeeps K s₀ (s.unmapRound t h) :=
  hk.each fun _ _ hk1 => hk1.upd.returnFrames

theorem TurnKeeps.closeRound (hk : TurnKeeps K s₀ s) {h : Nat} {st : RoundState} : TurnKeeps K s₀ (s.closeRound h st) := by
  have bindings : TurnKeeps K s₀ (s.endBindings h) := hk.each fun _ _ hk1 => hk1.setBind
  unfold State.closeRound
  exact bindings.unmapRound.updRound

theorem TurnKeeps.abortRound (hk : TurnKeeps K s₀ s) {h : Nat} {st : Status} {report : Bool} :
    TurnKeeps K s₀ (s.abortRound h st report) := hk.endRoundCmds.closeRound.event.ite hk.endRoundCmds.closeRound

theorem TurnKeeps.cancelOpen (hk : TurnKeeps K s₀ s) {h : Nat} {st : Status} : TurnKeeps K s₀ (s.cancelOpen h st) :=
  (hk.unmapRound.each fun _ _ hk1 => hk1.zeroKey).setRound.each fun _ _ hk1 => hk1.complete

theorem TurnKeeps.takeOpenVerdict (hk : TurnKeeps K s₀ s) {h m : Nat} {st : Status} : TurnKeeps K s₀ (s.takeOpenVerdict h m st) := by
  unfold State.takeOpenVerdict
  dsimp only
  split
  · exact hk.setRound.ite hk
  · exact hk

theorem TurnKeeps.openBoundary (hk : TurnKeeps K s₀ s) {b : Nat} : TurnKeeps K s₀ (s.openBoundary b) := by
  refine hk.each fun u h hk1 => ?_
  split
  · exact hk1
  · extract_lets r own sent
    have verdict : TurnKeeps K s₀ sent := (hk1.setRound.takeOpenVerdict.ite hk1.setRound.sendDevice).ite hk1
    exact (verdict.updRound.sendDevice.ite verdict.updRound).ite verdict

theorem TurnKeeps.endChange (hk : TurnKeeps K s₀ s) {h : Nat} : TurnKeeps K s₀ (s.endChange h) :=
  hk.updRound.each fun _ _ hk1 => hk1.complete

theorem TurnKeeps.acceptCommit (hk : TurnKeeps K s₀ s) {h : Nat} {c : Option Cmd} : TurnKeeps K s₀ (s.acceptCommit h c) := by
  unfold State.acceptCommit
  extract_lets r st b sts signed noted
  have done : TurnKeeps K s₀ noted := hk.countKey.countKey.draw.writeVA.updRound
  exact done.sendDevice.ite done

theorem TurnKeeps.endRelease (hk : TurnKeeps K s₀ s) {h : Nat} {st : Status} : TurnKeeps K s₀ (s.endRelease h st) := by
  unfold State.endRelease
  extract_lets r b ended
  have done : TurnKeeps K s₀ ended := hk.setRound.ite (hk.setRound.each fun _ _ hk1 => hk1.complete)
  exact done.sendDevice.ite done

theorem TurnKeeps.checkRelease (hk : TurnKeeps K s₀ s) {h : Nat} : TurnKeeps K s₀ (s.checkRelease h) := by
  refine .ite hk (.ite (.ite hk ?_) (hk.endRelease.ite hk))
  split
  · exact hk.endRelease
  · exact hk.setRound.sendDevice.ite hk.setRound

theorem TurnKeeps.applyChange (hk : TurnKeeps K s₀ s) {h : Nat} : TurnKeeps K s₀ (s.applyChange h) := by
  unfold State.applyChange
  split
  · exact hk
  · exact hk.abortRound.endChange
  · exact (hk.each fun _ _ hk1 => hk1.closeRound).closeRound.endChange
  · extract_lets u changed
    have entered : TurnKeeps K s₀ changed := hk.updRound.endChange
    have written : TurnKeeps K s₀ (changed.writeResidents h) := entered.each fun _ _ hk1 => hk1.writeVA.setBind
    have summed : TurnKeeps K s₀ ((changed.writeResidents h).each u.toList State.ok) := written.each fun _ _ hk1 => hk1.complete
    exact .ite (summed.acceptCommit.event.ite summed) entered

/-! ### Losses, the source and tenants at a boundary (R45, R46, R56 to R58, R456, R459, R462, R512) -/

theorem TurnKeeps.tryRemoved (hk : TurnKeeps K s₀ s) {u : Nat} : TurnKeeps K s₀ (s.tryRemoved u) := by
  unfold State.tryRemoved
  split
  · exact hk
  · exact hk.updTenant.complete.ite hk

theorem TurnKeeps.signAssembly (hk : TurnKeeps K s₀ s) : TurnKeeps K s₀ s.signAssembly := by
  unfold State.signAssembly
  extract_lets numbered signed
  have serial : TurnKeeps K s₀ numbered := hk.upd
  have done : TurnKeeps K s₀ signed := serial.countKey.countKey.emit
  exact done.sendDevice.ite done

theorem State.applyLoss_of_lost {s : State} {m : Nat} (h : s.spn.lost.contains m = true) : s.applyLoss m = s := if_pos h

/-- A member not lost before is noted as lost; the rest of its loss keeps what the relation speaks of. -/
theorem State.applyLoss_keeps {s : State} {m : Nat} (h : m ∉ s.spn.lost) :
    TurnKeeps K (s.updSpn fun x => { x with
      lost := x.lost ++ [m], missedBy := x.missedBy.filter (fun y => y != m), realigned := x.realigned.filter (fun y => y != m) })
      (s.applyLoss m) := by
  rw [State.applyLoss, if_neg (by simpa using h)]
  extract_lets noted rounds gone twins unverified settled told ended
  have hgone : TurnKeeps K noted gone := (TurnKeeps.refl noted).each fun _ _ h => h.updRound
  have hunverified : TurnKeeps K noted unverified := hgone.each fun _ _ h => h.updRound.reportGate.ite h.updRound
  have hsettled : TurnKeeps K noted settled := hunverified.each fun _ _ h => h.updRound.checkRelease
  have hended : TurnKeeps K noted ended := hsettled.event.each fun _ _ h => h.tryRemoved
  exact hended.signAssembly.ite hended

theorem TurnKeeps.applyLoss (hk : TurnKeeps K s₀ s) {m : Nat} : TurnKeeps K s₀ (s.applyLoss m) := by
  by_cases h : m ∈ s.spn.lost
  · rw [State.applyLoss_of_lost (by simpa using h)]
    exact hk
  · exact (hk.updSpn ⟨rfl, rfl, rfl, rfl, rfl, rfl, List.subset_append_left _ _⟩).trans (State.applyLoss_keeps h)

theorem TurnKeeps.takeOver (hk : TurnKeeps K s₀ s) : TurnKeeps K s₀ s.takeOver := by
  unfold State.takeOver
  extract_lets old hs aborted cancelled tree source
  have haborted : TurnKeeps K s₀ aborted := hk.each fun _ _ h => h.abortRound
  have hcancelled : TurnKeeps K s₀ cancelled := haborted.each fun _ _ h => h.cancelOpen
  have htree : TurnKeeps K s₀ tree := hcancelled.updSpn
  clear_value tree -- what follows needs no more of it than `htree`
  have hsource : TurnKeeps K s₀ source := htree.updSpn.ite (htree.updSpn.ite htree.updSpn)
  exact hsource.applyLoss

theorem TurnKeeps.sourceBoundary (hk : TurnKeeps K s₀ s) : TurnKeeps K s₀ s.sourceBoundary :=
  .ite (hk.updSpn.ite (hk.updSpn.ite (hk.updSpn.ite hk.updSpn))) (hk.updSpn.ite hk)

theorem TurnKeeps.updCreating (hk : TurnKeeps K s₀ s) {u : Nat} {f : Creating → Creating} : TurnKeeps K s₀ (s.updCreating u f) := hk.updTenant

theorem TurnKeeps.takeTenantVerdict (hk : TurnKeeps K s₀ s) {u m : Nat} {st : Status} : TurnKeeps K s₀ (s.takeTenantVerdict u m st) := by
  unfold State.takeTenantVerdict
  split
  · exact hk.updTenant.ite hk
  · exact hk

theorem TurnKeeps.createTurn (hk : TurnKeeps K s₀ s) {b : Nat} : TurnKeeps K s₀ (s.createTurn b) := by
  refine hk.each fun u v hk1 => ?_
  split
  · exact hk1
  · extract_lets own sent
    have verdict : TurnKeeps K s₀ sent := (hk1.updCreating.takeTenantVerdict.ite hk1.updCreating.sendDevice).ite hk1
    split
    · exact verdict
    · exact (verdict.updCreating.sendDevice.ite verdict.updCreating).ite verdict

theorem TurnKeeps.endHostLost (hk : TurnKeeps K s₀ s) : TurnKeeps K s₀ s.endHostLost :=
  (hk.updHost.upd.each fun _ _ h => h.post).each fun _ _ h => h.interrupt

theorem TurnKeeps.suspend (hk : TurnKeeps K s₀ s) {u cause : Nat} (hu : ¬ K u) : TurnKeeps K s₀ (s.suspend u cause) :=
  (((hk.each fun _ _ h => h.setWork).each fun _ _ h => h.cancelOpen).each fun _ _ h => h.abortRound).updTenant
    (fun h => absurd h hu) |>.setTenantState hu

/-! ### Steady, DMA, links and endpoints at a boundary (R66, R89, R419, R425, R501 to R505) -/

theorem TurnKeeps.applyRung (hk : TurnKeeps K s₀ s) {rung b : Nat} : TurnKeeps K s₀ (s.applyRung rung b) :=
  hk.updPwr.updSpn.ite hk.updPwr.updSpn

theorem TurnKeeps.steady (hk : TurnKeeps K s₀ s) {b : Nat} : TurnKeeps K s₀ (s.steady b) := by
  unfold State.steady
  extract_lets tn lowered hot rung withheld
  have hlowered : TurnKeeps K s₀ lowered := hk.updPwr.ite hk
  have hhot : TurnKeeps K s₀ hot := hlowered.updPwr.ite hlowered
  have hrung : TurnKeeps K s₀ rung := hhot.updPwr.applyRung.ite (hhot.applyRung.ite hhot)
  have hwithheld : TurnKeeps K s₀ withheld := hrung.updPwr
  exact hwithheld.each fun _ _ h => h.each fun _ _ h1 => (h1.ite h1.setGrant).ite h1.setGrant

theorem TurnKeeps.takeCal (hk : TurnKeeps K s₀ s) : TurnKeeps K s₀ s.takeCal := .ite (hk.upd) hk

theorem TurnKeeps.preemptDma (hk : TurnKeeps K s₀ s) {tn : Nat} : TurnKeeps K s₀ (s.preemptDma tn) := by
  refine hk.each fun _ _ h => h.each fun _ _ h1 => ?_
  split
  · exact h1.setWork.ite h1
  · exact h1

theorem TurnKeeps.linkBoundary (hk : TurnKeeps K s₀ s) : TurnKeeps K s₀ s.linkBoundary :=
  hk.each fun _ _ h => (h.each fun _ _ h1 => h1.zeroKey).setPort

theorem TurnKeeps.numberFrame (hk : TurnKeeps K s₀ s) {p kind owner route dst len : Nat} :
    TurnKeeps K s₀ (s.numberFrame p kind owner route dst len) := hk.setPort.emit.ite hk

theorem TurnKeeps.setFlow (hk : TurnKeeps K s₀ s) {f : Flow} : TurnKeeps K s₀ (s.setFlow f) := .ite hk.upd hk.upd
theorem TurnKeeps.chargeLink (hk : TurnKeeps K s₀ s) {u p n : Nat} : TurnKeeps K s₀ (s.chargeLink u p n) := hk.upd

theorem TurnKeeps.sendPkt (hk : TurnKeeps K s₀ s) {e : Nat} {m : SendMsg} {k : SendPkt} : TurnKeeps K s₀ (s.sendPkt e m k) := by
  unfold State.sendPkt
  extract_lets x n key f flowed marked again y
  have hmarked : TurnKeeps K s₀ marked := hk.setFlow.updEp
  have hagain : TurnKeeps K s₀ again := hmarked.updEp.ite hmarked
  split
  · exact hk
  · exact .ite hk (.ite hk.upd (.ite hagain.chargeLink.setPort.numberFrame.emit hagain))

theorem TurnKeeps.pumpAll (hk : TurnKeeps K s₀ s) : TurnKeeps K s₀ s.pumpAll := by
  refine hk.each fun _ _ h => h.each fun _ _ h1 => h1.each fun _ _ h2 => ?_
  split
  · exact h2
  · split
    · exact h2.sendPkt.ite h2
    · exact h2

end Sys2Proof.Machine
end

section
/-! SUPPORT. The turn boundary (R60) in its stages, and the loss of members (R45 to R47). -/

namespace Sys2Proof.Machine

open Sys2Proof

variable {K : Nat → Prop}

/-! ### When the row acts -/

theorem execTurnBoundary_of_due {s : State} (h : s.spn.lastBoundary + 2 ^ s.spn.k ≤ s.pos) (z : s.frozen = false) :
    execTurnBoundary s = .next (s.boundary (s.spn.lastBoundary + 2 ^ s.spn.k)) := if_pos ⟨h, z⟩

theorem execTurnBoundary_of_early {s : State} (h : s.pos < s.spn.lastBoundary + 2 ^ s.spn.k ∨ s.frozen = true) :
    execTurnBoundary s = .next s := by
  refine if_neg fun ⟨hp, z⟩ => ?_
  rcases h with h | h
  · exact absurd hp (Nat.not_le.2 h)
  · simp [z] at h

/-! ### The end of the turn is noted -/

/-- The first stage: the end of the turn and boundary `b` are noted, and a stop that was due holds; the losses declared leave the list of
those due, and none has taken effect. -/
def State.turnNoted (s : State) (b : Nat) : State :=
  let s := if s.inAssembly && s.spn.epochSet then s.updSpn Spn.countQuiet else s
  (s.updSpn fun x => { x with
    heardCoord := false, heardVia := false, heardEither := false, heardMember := false, slot0Sent := false, lastBoundary := b,
    stopped := x.stopped || x.stopDue, stopDue := false }).updSpn fun x => { x with lossDue := [] }

theorem State.turnNoted_frame (s : State) (b : Nat) : s.turnNoted b = { s with spn := (s.turnNoted b).spn } := by
  unfold State.turnNoted
  split <;> rfl

theorem State.turnNoted_spn (s : State) (b : Nat) :
    (s.turnNoted b).spn.lastBoundary = b ∧ (s.turnNoted b).spn.pos = s.spn.pos ∧ (s.turnNoted b).spn.stopDue = false ∧
      (s.turnNoted b).spn.stopped = (s.spn.stopped || s.spn.stopDue) ∧ (s.turnNoted b).spn.lossDue = [] := by
  unfold State.turnNoted
  split <;> exact ⟨rfl, rfl, rfl, rfl, rfl⟩

/-! ### Losses take effect -/

theorem State.mem_lost_applyLoss (s : State) (m : Nat) : m ∈ (s.applyLoss m).spn.lost := by
  by_cases h : m ∈ s.spn.lost
  · rw [State.applyLoss_of_lost (by simpa using h)]
    exact h
  · exact (State.applyLoss_keeps (K := fun _ => False) h).spn.lost (List.mem_append_right _ (List.mem_singleton.2 rfl))

theorem State.mem_lost_each (s : State) {l : List Nat} {m : Nat} (h : m ∈ l) : m ∈ (s.each l State.applyLoss).spn.lost := by
  induction l generalizing s with
  | nil => cases h
  | cons x r ih =>
    rcases List.mem_cons.1 h with rfl | h
    · have rest : TurnKeeps (fun _ => False) (s.applyLoss m) ((s.applyLoss m).each r State.applyLoss) :=
        (TurnKeeps.refl _).each fun _ _ h => h.applyLoss
      exact rest.spn.lost (s.mem_lost_applyLoss m)
    · exact ih (s.applyLoss x) h

/-! ### Suspensions (R456) -/

@[simp] theorem State.tenant_setTenantState (s : State) (u : Nat) (st : TenantState) :
    (s.setTenantState u st).tenant u = { s.tenant u with state := st } := by
  have event : (s.setTenantState u st).tenant u = (s.updTenant u fun x => { x with state := st }).tenant u := by
    simp only [State.setTenantState, State.tenantEvent, State.tenant, State.event_sec]
  rw [event, State.updTenant_eq, State.tenant_setTenant]

theorem State.suspend_state (s : State) (u cause : Nat) : ((s.suspend u cause).tenant u).state = .suspended := by
  simp only [State.suspend, State.tenant_setTenantState]

/-- In a fold taken distinct tenants whose step at any other tenant keeps tenant `u`, the step at `u` is all that befalls it. -/
theorem TurnKeeps.each_at {l : List Nat} {u : Nat} (hu : u ∈ l) (hl : l.Nodup) {f : State → Nat → State}
    (hf : ∀ s v, v ≠ u → TurnKeeps (· = u) s (f s v)) (s : State) :
    ∃ s₁, TurnKeeps (· = u) s s₁ ∧ TurnKeeps (· = u) (f s₁ u) (s.each l f) := by
  obtain ⟨a, c, rfl⟩ := List.append_of_mem hu
  obtain ⟨-, hc, hac⟩ := List.nodup_append.1 hl
  have others : ∀ (l : List Nat) (t : State), (∀ v ∈ l, v ≠ u) → TurnKeeps (· = u) t (t.each l f) := fun l t h =>
    State.each_induct t (TurnKeeps (· = u) t) f l (fun w v hv hw => hw.trans (hf w v (h v hv))) (.refl t)
  refine ⟨s.each a f, others a s fun v hv => hac v hv u (List.mem_cons_self ..), ?_⟩
  rw [show s.each (a ++ u :: c) f = (f (s.each a f) u).each c f from List.foldl_append ..]
  exact others c _ fun v hv e => (List.nodup_cons.1 hc).1 (e ▸ hv)

/-- The first half of `State.tenantBoundary`, for one tenant. -/
def State.suspendDueTenant (s : State) (u : Nat) : State :=
  if (s.tenant u).suspendDue != 0 && (s.tenant u).state == .running then s.suspend u (s.tenant u).suspendDue else s

/-- The second half, for one tenant. -/
def State.runTenant (s : State) (u : Nat) : State :=
  if s.mayRun u then (s.updTenant u fun x => { x with suspendCause := 0 }).setTenantState u .running else s

theorem State.tenantBoundary_eq (s : State) :
    s.tenantBoundary = (s.each (List.range 8) State.suspendDueTenant).each (List.range 8) State.runTenant := rfl

theorem TurnKeeps.suspendDueTenant {s₀ s : State} (hk : TurnKeeps K s₀ s) {v : Nat} (hv : ¬ K v) : TurnKeeps K s₀ (s.suspendDueTenant v) :=
  (hk.suspend hv).ite hk

theorem TurnKeeps.runTenant {s₀ s : State} (hk : TurnKeeps K s₀ s) {v : Nat} (hv : ¬ K v) : TurnKeeps K s₀ (s.runTenant v) :=
  (hk.updTenant.setTenantState hv).ite hk

/-- Of no tenant is it said that its standing stays. -/
theorem State.tenantBoundary_keeps (s : State) : TurnKeeps (fun _ => False) s s.tenantBoundary :=
  ((TurnKeeps.refl s).each fun _ _ h => h.suspendDueTenant id).each fun _ _ h => h.runTenant id

theorem State.suspendDueTenant_of_due {s : State} {u : Nat} (hr : (s.tenant u).state = .running) (hd : (s.tenant u).suspendDue ≠ 0) :
    s.suspendDueTenant u = s.suspend u (s.tenant u).suspendDue := by
  rw [State.suspendDueTenant, if_pos (by simp [hr, hd])]

/-- A tenant that is running and due is suspended by the first half. -/
theorem State.each_suspendDueTenant_state {s : State} {u : Nat} (hu : u < 8) (hr : (s.tenant u).state = .running)
    (hd : (s.tenant u).suspendDue ≠ 0) : ((s.each (List.range 8) State.suspendDueTenant).tenant u).state = .suspended := by
  obtain ⟨s₁, before, after⟩ := TurnKeeps.each_at (f := State.suspendDueTenant) (List.mem_range.2 hu) List.nodup_range
    (fun t v hv => (TurnKeeps.refl t).suspendDueTenant hv) s
  rw [State.suspendDueTenant_of_due (by rw [before.state rfl, hr]) (by rwa [before.suspendDue rfl])] at after
  rw [after.state rfl, s₁.suspend_state]

theorem State.mayRun_of_bme {s : State} {u : Nat} (hu : u ≠ 0) (hb : Tab.look false s.hif.bme u = false) : s.mayRun u = false := by
  simp [State.mayRun, hu, hb]

/-- A tenant without Bus Master Enable keeps its standing in the second half. -/
theorem State.each_runTenant_keeps {s : State} {u : Nat} (h0 : u ≠ 0) (hb : Tab.look false s.hif.bme u = false) :
    TurnKeeps (· = u) s (s.each (List.range 8) State.runTenant) := by
  refine State.each_induct s (TurnKeeps (· = u) s) _ _ (fun t v _ ht => ?_) (.refl s)
  by_cases e : v = u
  · subst e
    rw [State.runTenant, State.mayRun_of_bme h0 (by rw [ht.bme, hb])]
    exact ht
  · exact ht.runTenant e

theorem State.tenantBoundary_suspends {s : State} {u : Nat} (hu : u < 8) (h0 : u ≠ 0) (hr : (s.tenant u).state = .running)
    (hd : (s.tenant u).suspendDue ≠ 0) (hb : Tab.look false s.hif.bme u = false) : (s.tenantBoundary.tenant u).state = .suspended := by
  have first : TurnKeeps (fun _ => False) s (s.each (List.range 8) State.suspendDueTenant) :=
    (TurnKeeps.refl s).each fun _ _ h => h.suspendDueTenant id
  have second := State.each_runTenant_keeps h0 (by rw [first.bme, hb])
  rw [State.tenantBoundary_eq, second.state rfl, State.each_suspendDueTenant_state hu hr hd]

/-! ### Budgets and counts (R69, R447) -/

/-- The fold of `State.refill` taken the DMA budgets leaves each tenant of the list with its full value. -/
theorem refill_remaining (full : Nat → Nat) (turn : Bool) (l : List Nat) (m : Tab Budget) (u : Nat)
    (h : u ∈ l ∨ (Tab.look {} m u).remaining = full u) :
    (Tab.look {} (l.foldl (fun m t => Tab.put {} m t ((Tab.look ({} : Budget) m t).refill (full t) turn)) m) u).remaining = full u := by
  induction l generalizing m with
  | nil => exact h.resolve_left List.not_mem_nil
  | cons t r ih =>
    refine ih _ ?_
    by_cases e : u = t
    · subst e
      rw [Tab.look_put_same]
      exact .inr rfl
    · rw [Tab.look_put_other _ _ _ _ _ e]
      exact h.imp_left fun h => (List.mem_cons.1 h).resolve_left e

/-- The refill writes the budgets and nothing else; each DMA budget is full. -/
theorem State.refill_frame (s : State) (turn : Bool) : ∃ dma link,
    s.refill turn = { s with spn := { s.spn with budgetDma := dma, budgetLink := link } } ∧
      ∀ u, u < 8 → (Tab.look ({} : Budget) dma u).remaining = s.dmaBudgetFull u :=
  ⟨_, _, rfl, fun u hu => refill_remaining s.dmaBudgetFull turn _ _ u (.inl (List.mem_range.2 hu))⟩

theorem State.countTurn_naks (s : State) (e : Nat) : (s.countTurn.ep e).naksTurn = 0 := by
  unfold State.countTurn State.ep
  induction s.fab.eps with
  | nil => rfl
  | cons x r ih =>
    simp only [List.map_cons, Tab.look]
    split
    · rfl
    · exact ih

theorem State.countTurn_keeps (s : State) : TurnKeeps K s s.countTurn :=
  ⟨rfl, rfl, .refl _, fun _ _ => rfl, fun e _ => s.countTurn_naks e⟩

/-! ### The boundary as a whole (R60) -/

/-- A boundary notes the turn's end, takes the losses and what else waits, suspends and runs tenants and decides on grants, refills the
budgets, and counts; around these stages it keeps what `TurnKeeps` speaks of. -/
theorem State.boundary_stages (s : State) (b : Nat) : ∃ (taken steady : State) (dma link : Tab Budget),
    TurnKeeps (fun _ => True) (s.turnNoted b) taken ∧ (∀ m ∈ s.spn.lossDue, m ∈ taken.spn.lost) ∧
    TurnKeeps (fun _ => True) taken.tenantBoundary steady ∧
    (∀ u, u < 8 → (Tab.look ({} : Budget) dma u).remaining = steady.dmaBudgetFull u) ∧
    TurnKeeps (fun _ => True) { steady with spn := { steady.spn with budgetDma := dma, budgetLink := link } } (s.boundary b) ∧
    ∀ e, ((s.boundary b).ep e).naksTurn = 0 := by
  have due : ∀ m ∈ s.spn.lossDue, m ∈ (if s.inAssembly && s.spn.epochSet then s.updSpn Spn.countQuiet else s).spn.lossDue := by
    split <;> exact fun m h => h
  unfold State.boundary
  extract_lets tn counted ended declared lost succeeded source changed resumed tenants steady refilled cal naks preempted
  obtain ⟨dma, link, hrefill, hfull⟩ := steady.refill_frame true
  have hlost : TurnKeeps (fun _ => True) (s.turnNoted b) lost := (TurnKeeps.refl _).each fun _ _ h => h.applyLoss
  have hsucceeded : TurnKeeps (fun _ => True) lost succeeded := by
    unfold succeeded
    split
    · exact (TurnKeeps.refl lost).takeOver.ite (.refl lost)
    · exact .refl lost
  have hsource : TurnKeeps (fun _ => True) lost source := hsucceeded.sourceBoundary
  have hrounds : TurnKeeps (fun _ => True) lost (source.roundBoundary b) := hsource.each fun _ _ h => h.applyChange
  have hchanged : TurnKeeps (fun _ => True) lost changed := hrounds.openBoundary.createTurn
  have hresumed : TurnKeeps (fun _ => True) lost resumed := hchanged.endHostLost.ite hchanged
  have hsteady : TurnKeeps (fun _ => True) resumed.tenantBoundary steady := (TurnKeeps.refl _).steady
  have hcal : TurnKeeps (fun _ => True) refilled cal := (TurnKeeps.refl refilled).takeCal
  have hlate : TurnKeeps (fun _ => True) naks preempted.linkBoundary.pumpAll :=
    (TurnKeeps.refl naks).preemptDma.linkBoundary.pumpAll
  exact ⟨resumed, steady, dma, link, hlost.trans hresumed, fun m h => hresumed.spn.lost (State.mem_lost_each _ (due m h)), hsteady, hfull,
    hrefill ▸ (hcal.trans cal.countTurn_keeps).trans hlate, fun e => hlate.naks e (cal.countTurn_naks e)⟩

/-- The Spindle after a boundary. -/
theorem State.boundary_spn (s : State) (b : Nat) :
    (s.boundary b).spn.lastBoundary = b ∧ (s.boundary b).spn.pos = s.spn.pos ∧ (s.boundary b).spn.stopDue = false ∧
      (s.boundary b).spn.stopped = (s.spn.stopped || s.spn.stopDue) ∧ (s.boundary b).spn.lossDue = [] := by
  obtain ⟨taken, steady, dma, link, early, -, granted, -, refilled, -⟩ := s.boundary_stages b
  have before : SpnKeeps (s.turnNoted b).spn steady.spn := (early.spn.trans taken.tenantBoundary_keeps.spn).trans granted.spn
  have late := refilled.spn
  obtain ⟨hb, hp, hd, hs, hl⟩ := s.turnNoted_spn b
  exact ⟨late.boundary.trans (before.boundary.trans hb), late.pos.trans (before.pos.trans hp), late.stopDue.trans (before.stopDue.trans hd),
    late.stopped.trans (before.stopped.trans hs), late.lossDue.trans (before.lossDue.trans hl)⟩

theorem State.boundary_dmaBudget (s : State) (b : Nat) {u : Nat} (hu : u < 8) :
    ((s.boundary b).dmaBudget u).remaining = s.dmaBudgetFull u := by
  obtain ⟨taken, steady, dma, link, early, -, granted, full, late, -⟩ := s.boundary_stages b
  have jig : steady.jig = s.jig := by rw [granted.jig, taken.tenantBoundary_keeps.jig, early.jig, s.turnNoted_frame b]
  rw [State.dmaBudget, late.spn.budgetDma, full u hu]
  simp only [State.dmaBudgetFull, jig]

theorem State.boundary_lost (s : State) (b : Nat) {m : Nat} (h : m ∈ s.spn.lossDue) : m ∈ (s.boundary b).spn.lost := by
  obtain ⟨taken, steady, dma, link, -, lost, granted, -, late, -⟩ := s.boundary_stages b
  exact late.spn.lost (granted.spn.lost (taken.tenantBoundary_keeps.spn.lost (lost m h)))

theorem State.boundary_naks (s : State) (b e : Nat) : ((s.boundary b).ep e).naksTurn = 0 := by
  obtain ⟨-, -, -, -, -, -, -, -, -, naks⟩ := s.boundary_stages b
  exact naks e

theorem State.boundary_suspends (s : State) (b : Nat) {u : Nat} (h0 : 1 ≤ u) (hu : u < 8) (hr : (s.tenant u).state = .running)
    (hd : (s.tenant u).suspendDue ≠ 0) (hb : Tab.look false s.hif.bme u = false) : ((s.boundary b).tenant u).state = .suspended := by
  obtain ⟨taken, steady, dma, link, early, -, granted, -, late, -⟩ := s.boundary_stages b
  have tenant : (s.turnNoted b).tenant u = s.tenant u := by rw [s.turnNoted_frame b]; rfl
  have bme : (s.turnNoted b).hif.bme = s.hif.bme := by rw [s.turnNoted_frame b]
  have suspended := State.tenantBoundary_suspends hu (by omega) (by rw [early.state trivial, tenant, hr])
    (by rwa [early.suspendDue trivial, tenant]) (by rw [early.bme, bme, hb])
  exact (late.state trivial).trans ((granted.state trivial).trans suspended)

/-! ### Losing members (R45 to R47, R67) -/

theorem State.sendDevice_of_slot0 {s : State} (h : s.slotOf s.pos = 0) (m : DeviceMsg) : s.sendDevice m = s.emit (.device m) := if_pos h

theorem State.sendDevice_of_later {s : State} (h : s.slotOf s.pos ≠ 0) (m : DeviceMsg) :
    s.sendDevice m = { s with slot0 := s.slot0 ++ [.device m] } := if_neg h

theorem State.inAssembly_of {s : State} (hl : s.jig.loaded = true) (he : 2 ≤ s.bigE) : s.inAssembly = true := by
  simp [State.inAssembly, hl, he]

theorem State.declareLost_of {s : State} (ha : s.inAssembly = true) {m : Nat} (hd : s.decides = true) (hm : m < s.bigE) (hme : m ≠ s.jig.me)
    (hl : m ∉ s.spn.lost) (hdue : m ∉ s.spn.lossDue) :
    s.declareLost m = (s.updSpn fun x => { x with lossDue := x.lossDue ++ [m] }).sendDevice (.lost m) := by
  simp [State.declareLost, ha, hd, hm, hme, hl, hdue]

theorem execMemberLoss_of_cause {s : State} {m n : Nat} (h : 2 ≤ n ∨ m ∈ s.spn.missedBy) : execMemberLoss m s n = .next (s.declareLost m) := by
  rw [execMemberLoss, if_pos h]

theorem execMemberLoss_of_none {s : State} {m n : Nat} (hn : n < 2) (hm : m ∉ s.spn.missedBy) : execMemberLoss m s n = .next s := by
  rw [execMemberLoss, if_neg fun h => h.elim (Nat.not_le.2 hn) hm]

theorem execCoordinatorLoss_of_quiet {s : State} (ha : s.inAssembly = true) (ht : s.spn.standbyTree = false) (hs : s.jig.me = s.standby)
    (hq : 2 ≤ s.spn.quietCoord) (hc : s.spn.coordLossAt = none) (h0 : s.slotOf s.pos = 0) :
    execCoordinatorLoss s = .next ((s.updSpn fun x => { x with coordLossAt := some (s.boundaryAfter s.pos) }).emit
      (.device (.lost s.coordinator))) := by
  have slot : ∀ f : Spn → Spn, (f s.spn).pos = s.spn.pos → (f s.spn).k = s.spn.k → (s.updSpn f).slotOf (s.updSpn f).pos = 0 := by
    intro f hp hk
    simpa [State.slotOf, State.pos, State.updSpn, hp, hk] using h0
  rw [execCoordinatorLoss, if_pos (by simp [ha, ht, hs, hq, hc, h0]), State.sendDevice_of_slot0 (slot _ rfl rfl)]

theorem execIsolatedCoordinatorStop_of_quiet {s : State} (ha : s.inAssembly = true) (hc : s.isCoord = true) (hq : 2 ≤ s.spn.quietMembers) :
    execIsolatedCoordinatorStop s = .next (s.updSpn fun x => { x with stopDue := true }) := by
  rw [execIsolatedCoordinatorStop, if_pos (by simp [ha, hc, hq])]

theorem execNoStandbyStop_of_quiet {s : State} (ha : s.inAssembly = true) (hc : s.isCoord = false) (hq : 4 ≤ s.spn.quietBoth)
    (hz : s.spn.ceased = false) :
    execNoStandbyStop s = .next ((s.updSpn fun x => { x with stopDue := true, ceased := true }).sendDevice (.timeout s.jig.me)) := by
  rw [execNoStandbyStop, if_pos (by simp [ha, hc, hq, hz])]

/-- In slot 0, once a turn, a member sends its DEVICE frame behind those that wait, unless it is a coordinator that has stopped or ceased. -/
theorem execSlot0DeviceFrames_of_due {s : State} (ha : s.inAssembly = true) (z : s.frozen = false) (h0 : s.slotOf s.pos = 0)
    (hs : s.spn.slot0Sent = false) :
    (s.isCoord = true → s.spn.stopped = false → s.spn.clkLostAt = none → s.spn.ceased = false → execSlot0DeviceFrames s =
      .next ((s.updSpn fun x => { x with slot0Sent := true }).flushSlot0.emit (.device (.status true)))) ∧
    (s.isCoord = false → s.jig.me ≠ s.standby → execSlot0DeviceFrames s =
      .next ((s.updSpn fun x => { x with slot0Sent := true }).flushSlot0.emit (.device (.member s.jig.me s.spn.heardCoord)))) := by
  unfold execSlot0DeviceFrames
  rw [if_pos (by simp [ha, z, h0, hs])]
  refine ⟨fun hc hp hk hz => ?_, fun hc hst => ?_⟩
  · simp [hc, hp, hk, hz]
  · simp [hc, hst]

/-- Settles O33: a boundary is a chain of stages, and what a claim speaks of is kept from its stage on (`TurnKeeps`); each row on a loss has
its one guarded effect. -/
theorem turnBoundaryAndMemberLoss : Obligations.TurnBoundaryAndMemberLoss := by
  refine ⟨⟨fun s => execTurnBoundary_of_early, fun s hp z => ?boundary⟩, fun s hl he => ?losses⟩
  case boundary =>
    obtain ⟨hb, hpos, hd, hs, hl⟩ := s.boundary_spn (s.spn.lastBoundary + 2 ^ s.spn.k)
    exact ⟨_, execTurnBoundary_of_due hp z, hb, hpos, hd, hs, hl, fun u => s.boundary_dmaBudget _, fun m => s.boundary_lost _,
      s.boundary_naks _, fun u h0 hu => s.boundary_suspends _ h0 hu⟩
  case losses =>
    have ha := State.inAssembly_of hl he
    refine ⟨fun m n hd hm hme hlost hdue hn => ?declared, fun m n => execMemberLoss_of_none, fun ht hst => execCoordinatorLoss_of_quiet ha ht hst,
      execIsolatedCoordinatorStop_of_quiet ha, execNoStandbyStop_of_quiet ha, fun m h0 => State.sendDevice_of_slot0 h0 m,
      fun m h0 => State.sendDevice_of_later h0 m, fun z h0 hs => ?frames⟩
    case declared => exact (execMemberLoss_of_cause hn).trans (congrArg _ (State.declareLost_of ha hd hm hme hlost hdue))
    case frames =>
      obtain ⟨coordinator, member⟩ := execSlot0DeviceFrames_of_due ha z h0 hs
      exact ⟨coordinator, member, rfl⟩

end Sys2Proof.Machine
end

section
/-! SUPPORT. Messages between the members of a round (R42, R249, R257, R258, R283, R285, R288). -/

namespace Sys2Proof.Machine

open Sys2Proof

/-! ### Clients and cohorts of a round -/

@[simp] theorem Round.client_setClient (r : Round) (x : Nat) (v : ClientRec) : (r.setClient x v).client x = v := by
  simp [Round.client, Round.setClient]

theorem Round.client_setClient_other (r : Round) {x y : Nat} (v : ClientRec) (h : y ≠ x) : (r.setClient x v).client y = r.client y :=
  Tab.look_put_other _ _ _ _ _ h

@[simp] theorem Round.cohort_setCohort (r : Round) (c : Nat) (v : CohortRec) : (r.setCohort c v).cohort c = v := by
  simp [Round.cohort, Round.setCohort]

/-! ### Mirrors and their acknowledgement (R42, R257, R258, R283) -/

/-- A chunk that is taken has its contribution bit set (R257). -/
theorem State.bit_of_takeChunk {s u : State} {h : Nat} {m : MsgHeader} {l : List Nat} (e : s.takeChunk h m l = some u) :
    (u.round h).bit m.client m.chunk = true := by
  unfold State.takeChunk at e
  split at e
  · cases e
    simp [Round.bit]
  · obtain ⟨x, -, rfl⟩ := Option.map_eq_some_iff.1 e
    simp [Round.bit]

/-- The mirror that an acknowledgement names is found where no other carries its client and chunk. -/
theorem find?_mirror {l : List Mirror} {x : Mirror} (hx : x ∈ l) (h : ∀ y ∈ l, y.client = x.client → y.chunk = x.chunk → y = x) :
    l.find? (fun y => y.client == x.client && y.chunk == x.chunk) = some x := by
  cases e : l.find? (fun y => y.client == x.client && y.chunk == x.chunk) with
  | none => simpa using List.find?_eq_none.1 e x hx
  | some y =>
    have hy := List.find?_some e
    simp only [Bool.and_eq_true, beq_iff_eq] at hy
    rw [h y (List.mem_of_find?_eq_some e) hy.1 hy.2]

/-- The row of a mirrored chunk while the round collects or is frozen: a chunk of this member's is a duplicate or is taken (R257, R258). -/
theorem execContribMirror_of_mine {s : State} {x : MsgText} {h : Nat} (z : s.frozen = false)
    (hm : s.matchRound (msgHeader { toMsgText := x }).tenant (msgHeader { toMsgText := x }).round = some h)
    (hs : (s.round h).state = .collecting ∨ (s.round h).state = .frozen)
    (hc : (s.round h).clientOk (msgHeader { toMsgText := x }).cohort (msgHeader { toMsgText := x }).client = true)
    (hj : (s.round h).sums s.jig.me (msgHeader { toMsgText := x }).cohort (msgHeader { toMsgText := x }).chunk = true) :
    let m := msgHeader { toMsgText := x }
    ((s.round h).bit m.client m.chunk = true →
      execContribMirror x.head x.payload s = .next ((s.countRefuse h .duplicateContrib).mirrorAck h m.client m.chunk)) ∧
    ((s.round h).bit m.client m.chunk = false → ∀ u, s.takeChunk h m ((s.round h).elements m x.payload) = some u →
      execContribMirror x.head x.payload s = .next (u.mirrorAck h m.client m.chunk)) := by
  obtain ⟨head, payload⟩ := x
  refine ⟨fun hb => ?_, fun hb u hu => ?_⟩
  · rcases hs with hs | hs <;> simp [execContribMirror, z, hm, hs, hc, hj, hb]
  · rcases hs with hs | hs <;> simp [execContribMirror, z, hm, hs, hc, hj, hb, hu]

/-- A mirrored SHARE whose client has sent none is taken (R283). -/
theorem execShareMirror_of_first {s : State} {x : MsgText} {h : Nat} (z : s.frozen = false)
    (hm : s.matchRound (msgHeader { toMsgText := x }).tenant (msgHeader { toMsgText := x }).round = some h)
    (hs : (s.round h).state = .unmasking)
    (hc : (s.round h).clientOk (msgHeader { toMsgText := x }).cohort (msgHeader { toMsgText := x }).client = true)
    (hd : ((s.round h).client (msgHeader { toMsgText := x }).client).shared = false) :
    let m := msgHeader { toMsgText := x }
    execShareMirror x.head x.payload s =
      .next ((s.updRound h fun r => r.addShares m (shareEntries m x.payload)).mirrorAck h m.client shareMark) := by
  obtain ⟨head, payload⟩ := x
  simp only [execShareMirror, z, Bool.false_eq_true, if_false, hm]
  exact if_pos (by simp [hs, hc, hd])

/-- An acknowledgement takes its mirror from the queue and sends the receipt with MIRRORED set, and nothing else that a program sees
changes (R42, R258). -/
theorem execMirrorAck_of_queued {s : State} {h : Handle} {x : Mirror} (z : s.frozen = false)
    (hf : (s.round h.val).mirrorQueue.find? (fun y => y.client == x.client && y.chunk == x.chunk) = some x) :
    ∃ u, execMirrorAck h x.client x.chunk s = .next u ∧ (u.round h.val).mirrorQueue = (s.round h.val).mirrorQueue.erase x ∧
      u.out = .receipt x.sender (receiptBytes (if x.chunk = shareMark then 3 else 2) .ok (s.round h.val).tenant (s.round h.val).number
        ((s.round h.val).cohortOf x.client) x.client (b2n x.forwarded + 2) (if x.chunk = shareMark then 0 else x.chunk) s.jig.me) :: s.out ∧
      u.cells = s.cells ∧ u.mem = s.mem ∧ u.ram = s.ram := by
  unfold execMirrorAck
  simp only [z, Bool.false_eq_true, if_false, hf, beq_iff_eq]
  refine ⟨_, rfl, ?_, rfl, rfl, rfl, rfl⟩
  show ((s.setRound h.val _).round h.val).mirrorQueue = _
  rw [State.round_setRound]

/-! ### Seeds (R285, R288) -/

theorem Round.rebuildSelf_cons_ok (r : Round) (c x v : Nat) (l : List Nat) (h : r.rebuild c x 1 true = .ok v) :
    r.rebuildSelf c (x :: l) =
      Round.rebuildSelf { r.setClient x { r.client x with secret := v + 1 } with reconSelf := wrapAdd 32 r.reconSelf 1 } c l := by
  rw [Round.rebuildSelf, h]

theorem Round.rebuildSelf_client_other (r : Round) (c : Nat) (l : List Nat) (y : Nat) (h : y ∉ l) :
    (r.rebuildSelf c l).1.client y = r.client y := by
  induction l generalizing r with
  | nil => rfl
  | cons x l ih =>
    obtain ⟨hx, hl⟩ := List.ne_and_not_mem_of_not_mem_cons h
    cases e : r.rebuild c x 1 true with
    | error n => rw [Round.rebuildSelf, e]
    | ok v =>
      rw [Round.rebuildSelf_cons_ok r c x v l e, ih _ hl]
      exact Round.client_setClient_other r _ hx

/-- Where every survivor's self seed can be rebuilt, all are, each kept with its client. -/
theorem Round.rebuildSelf_ok (r : Round) (c : Nat) (l : List Nat) (h : ∀ x ∈ l, ∃ v, r.rebuild c x 1 true = .ok v) :
    (r.rebuildSelf c l).2 = 0 ∧ ∀ x ∈ l, ∀ v, r.rebuild c x 1 true = .ok v → ((r.rebuildSelf c l).1.client x).secret = v + 1 := by
  induction l generalizing r with
  | nil => exact ⟨rfl, fun x hx => absurd hx List.not_mem_nil⟩
  | cons y l ih =>
    obtain ⟨hy, hl⟩ := List.forall_mem_cons.1 h
    obtain ⟨w, hw⟩ := hy
    rw [Round.rebuildSelf_cons_ok r c y w l hw]
    -- What the shares say of a secret does not depend on the secrets rebuilt before it, so `hl` speaks of the round as it now stands too.
    obtain ⟨hok, hsecret⟩ := ih { r.setClient y { r.client y with secret := w + 1 } with reconSelf := wrapAdd 32 r.reconSelf 1 } hl
    refine ⟨hok, fun x hx v hv => ?_⟩
    by_cases hm : x ∈ l
    · exact hsecret x hm v hv
    · obtain rfl : x = y := (List.mem_cons.1 hx).resolve_right hm
      obtain rfl : w = v := Except.ok.inj (hw.symm.trans hv)
      rw [Round.rebuildSelf_client_other _ c l x hm]
      exact congrArg ClientRec.secret (Round.client_setClient r x _)

/-- What the shares give the home engine of a cohort: the round with the secrets rebuilt, and the reason for a discard, 0 for none (R285). -/
def State.rebuilt (s : State) (r : Round) (c : Nat) (keysMatch : Bool) : Round × Nat :=
  if (r.rebuildSelf c (r.cohort c).s).2 = 0 then s.rebuildPairs c keysMatch (r.cohort c).d (r.rebuildSelf c (r.cohort c).s).1
  else r.rebuildSelf c (r.cohort c).s

/-- The round with the outcome of a reconstruction in its cohort (R285, R286). -/
def Round.noteRebuilt (x : Round × Nat) (c : Nat) : Round :=
  x.1.setCohort c { x.1.cohort c with rebuilt := x.2 == 0, reason := x.2 }

theorem execSeedReconstruction_of_settled {s : State} {h : Handle} {c : Nat} (keysMatch : Bool) (hs : (s.round h.val).state = .unmasking)
    (hc : c < (s.round h.val).sizes.length) (hh : s.isHome (s.round h.val) c = true) (ht : ((s.round h.val).cohort c).settled = true)
    (hb : ((s.round h.val).cohort c).rebuilt = false) (hr : ((s.round h.val).cohort c).reason = 0) :
    execSeedReconstruction h c keysMatch s =
      .next ((s.setRound h.val (Round.noteRebuilt (s.rebuilt (s.round h.val) c keysMatch) c)).sendSeeds h.val c) := by
  unfold execSeedReconstruction
  dsimp only
  rw [if_pos (by simp [hs, hc, hh, ht, hb, hr, CohortRec.discarded])]
  rfl

/-- With no client dropped, a cohort is rebuilt where every survivor's self seed is. -/
theorem State.rebuilt_of_no_drop (s : State) {r : Round} {c : Nat} (keysMatch : Bool) (hd : (r.cohort c).d = [])
    (h : (r.rebuildSelf c (r.cohort c).s).2 = 0) : s.rebuilt r c keysMatch = ((r.rebuildSelf c (r.cohort c).s).1, 0) := by
  rw [State.rebuilt, if_pos h, hd, State.rebuildPairs]

theorem execSeedDistribution_of_waiting {s : State} {h : Handle} {c : Nat} (seeds : List (Nat × Nat × Nat))
    (hs : (s.round h.val).state = .unmasking) (hc : c < (s.round h.val).sizes.length) (hb : ((s.round h.val).cohort c).rebuilt = false)
    (hr : ((s.round h.val).cohort c).reason = 0) :
    (∀ e, execSeedDistribution h c seeds (some e) s =
      .next (s.updRound h.val fun r => r.setCohort c { r.cohort c with settled := true, reason := e })) ∧
    ∃ u, execSeedDistribution h c seeds none s = .next u ∧ ((u.round h.val).cohort c).rebuilt = true ∧
      ((u.round h.val).cohort c).settled = true ∧ ((u.round h.val).cohort c).pairs = seeds.filter (fun x => x.1 != x.2.1) ∧
      u.cells = s.cells ∧ u.mem = s.mem := by
  have waits : ((s.round h.val).state == .unmasking && decide (c < (s.round h.val).sizes.length) && !((s.round h.val).cohort c).rebuilt &&
      !((s.round h.val).cohort c).discarded) = true := by simp [hs, hc, hb, hr, CohortRec.discarded]
  refine ⟨fun e => if_pos waits, _, if_pos waits, ?_, ?_, ?_, rfl, rfl⟩ <;> simp

/-- Settles O42: each row is its one guarded effect; an acknowledgement finds its mirror, and rebuilding one secret does not disturb another. -/
theorem membersExchangeRoundMessages : Obligations.MembersExchangeRoundMessages := by
  refine ⟨fun s h c w ho hc z => if_pos (by simp [ho, hc, z]), ?chunks, ?shares, fun s h x z hx one => execMirrorAck_of_queued z (find?_mirror hx one),
    ?rebuild, fun s h c seeds => execSeedDistribution_of_waiting seeds⟩
  case chunks =>
    intro s x h m z hm hs hc hj
    obtain ⟨duplicate, taken⟩ := execContribMirror_of_mine z hm hs hc hj
    exact ⟨duplicate, fun hb u hu => ⟨taken hb u hu, State.bit_of_takeChunk hu⟩⟩
  case shares =>
    intro s x h m z hm hs hc hd
    exact execShareMirror_of_first z hm hs hc hd
  case rebuild =>
    intro s h c km hs hc hh ht hb hr
    refine ⟨_, execSeedReconstruction_of_settled km hs hc hh ht hb hr, rfl, rfl, rfl, ?_, fun hd hall => ?_⟩
    · simp [Round.noteRebuilt]
    · obtain ⟨hok, hsecret⟩ := Round.rebuildSelf_ok (s.round h.val) c ((s.round h.val).cohort c).s hall
      rw [s.rebuilt_of_no_drop km hd hok, State.round_setRound]
      exact ⟨by simp [Round.noteRebuilt], hsecret⟩

end Sys2Proof.Machine
end

section
/-! SUPPORT. The time base as alignment brings it up (R81 to R83, R552), and the positions that it takes from outside (R33, R52 to R54, R56). -/

namespace Sys2Proof.Machine

open Sys2Proof

/-! ### Alignment (R81, R82, R552) -/

theorem execSpinClkQualified_of_qualifying {s : State} (ha : s.spn.align = .qualifying) (hp : s.perst = false) :
    execSpinClkQualified s = .next (s.updSpn fun x => { x with
      clk := true, pos := 0, lastBoundary := 0, align := .locking, locked := false, releaseAfter := some 0 }) := by
  simp [execSpinClkQualified, ha, hp]

theorem execPllLockTimeout_of_late {s : State} (ha : s.spn.align = .locking) (hl : s.spn.locked = false) (hp : 20000 ≤ s.pos) :
    execPllLockTimeout s = .next (s.updSpn fun x => { x with align := .failed }) := by
  simp [execPllLockTimeout, ha, hl, lockTicks, hp]

/-- The PLLs have locked, or may still lock in time, at an alignment edge: reset is released where the lock or the repeat lies before it. -/
theorem execAlignRelease_of_edge {s : State} (ha : s.spn.align = .locking) (he : s.pos % 100 = 0)
    (hl : s.spn.locked = true ∨ s.pos ≤ 20100) (hr : ∀ p, s.spn.releaseAfter = some p → p < s.pos) :
    execAlignRelease s = .next (s.updSpn fun x => { x with align := .released x.pos, locked := true, releaseAfter := none }) := by
  have timely : (s.spn.locked || decide (s.pos ≤ lockTicks + 100)) = true := by
    rw [Bool.or_eq_true, decide_eq_true_eq]
    exact hl
  cases h : s.spn.releaseAfter with
  | none => simp [execAlignRelease, ha, he, timely, h]
  | some p => simp [execAlignRelease, ha, he, timely, h, hr p h]

theorem execAlignRelease_of_early {s : State} {p : Nat} (ha : s.spn.align = .locking) (hr : s.spn.releaseAfter = some p) (hp : s.pos ≤ p) :
    execAlignRelease s = .next s := by
  simp [execAlignRelease, ha, hr, Nat.not_lt.2 hp]

/-- The check of the FIFOs, once its position has come: it ends in the next step, in a repeat of the release, or in failure. -/
theorem execFifoCheck_of_due {s : State} {a : Nat} (ha : s.spn.align = .released a) (hp : a + 100 ≤ s.pos) (matching : Bool) :
    execFifoCheck matching s =
      if matching then .next (s.updSpn fun x => { x with align := .checked a, alignRepeats := 0 })
      else if s.spn.alignRepeats < 3 then .next (s.updSpn fun x => { x with
        align := .locking, alignRepeats := x.alignRepeats + 1, releaseAfter := some x.pos })
      else .next (s.updSpn fun x => { x with align := .failed }) := by
  simp only [execFifoCheck, ha, if_neg (Nat.not_lt.2 hp)]

theorem execCxlTrainingStart_of_due {s : State} {a : Nat} (ha : s.spn.align = .checked a) (hp : a + 200 ≤ s.pos) :
    execCxlTrainingStart s = .next (s.updSpn fun x => { x with align := .done }) := by
  simp only [execCxlTrainingStart, ha, if_neg (Nat.not_lt.2 hp)]

/-! ### When a position may be adopted (R53, R82) -/

theorem State.mayAdopt_iff (s : State) : s.mayAdopt = true ↔ s.quiet = true ∧ s.frozen = false ∧ s.spn.align ≠ .failed := by
  simp [State.mayAdopt, and_assoc]

/-! ### SPN_EPOCH and the sync edge (R52) -/

/-- Outside TAMPERED the host's write of SPN_EPOCH is taken or is an error, as its guard decides. -/
theorem execSpnEpochWrite_host {s : State} (v : Word64) (hl : s.sec.lifecycle ≠ .tampered) :
    execSpnEpochWrite 0 v s = .next
      (if v.toNat % 9223372036854775808 % 100 = 0 ∧ s.spn.role = .master ∧ s.jig.cfg.spindle.epoch = .sync ∧ s.quiet = true then
        s.updSpn fun x => { x with epoch := v.toNat % 9223372036854775808, arm := x.arm || bitAt v.toNat 63 }
      else s.updSpn fun x => { x with epochErr := true }) := by
  have he : bits v.toNat 0 63 = v.toNat % 9223372036854775808 := by simp [bits]
  simp [execSpnEpochWrite, State.ifWritable_of _ _ hl, he, and_assoc]

theorem execSpinSyncEdge_of_armed {s : State} (ha : s.spn.arm = true) (hr : s.spn.role = .master) (hm : s.mayAdopt = true) :
    execSpinSyncEdge s = .next ((s.adopt s.spn.epoch).updSpn fun x => { x with arm := false }) := by
  simp [execSpinSyncEdge, ha, hr, hm]

/-! ### PTP (R54, R95, R565) -/

theorem execPtpMessage_of_port {s : State} {p : PortId} {d : Nat} (ns : Nat) (hl : s.jig.loaded = true) (hr : s.spn.role = .master)
    (he : s.jig.cfg.spindle.epoch = .ptp) (hp : p.val = s.jig.cfg.spindle.ptpPort) (hd : d = s.jig.cfg.spindle.ptpDomain)
    (hs : (s.port p.val).state = 1) (z : s.frozen = false) :
    execPtpMessage p d ns s = .next ((s.updSpn fun x => { x with
      ptpTime := some (ns, x.pos), ptpReady := some (x.ptpReady.getD x.pos) }).emit (.ptpDelayReq p.val)) := by
  rw [hp] at hs
  simp [execPtpMessage, hl, hr, he, hp, hd, hs, z]

/-- PTP time now: the time last received, and 10 ns for each tick since. -/
theorem State.ptpNow_of_received {s : State} {ns q : Nat} (h : s.spn.ptpTime = some (ns, q)) : s.ptpNow = some (ns + 10 * (s.pos - q)) := by
  simp [State.ptpNow, h]

theorem ptpTicks_eq (ns : Nat) : ptpTicks ns = (ns + 999) / 1000 * 100 := by
  simp only [ptpTicks, ceilDiv, Nat.add_succ_sub_one]

theorem execPtpAdopt_of_edge {s : State} {ns q r : Nat} (ht : s.spn.ptpTime = some (ns, q)) (hq : s.spn.ptpReady = some r) (hlt : r < s.pos)
    (hl : s.jig.loaded = true) (hE : s.bigE = 1) (hr : s.spn.role = .master) (he : s.jig.cfg.spindle.epoch = .ptp)
    (hs : s.spn.epochSet = false) (hp : s.pos % 100 = 0) (hm : s.mayAdopt = true) :
    execPtpAdopt s = .next (s.adopt (ptpTicks (ns + 10 * (s.pos - q)))) := by
  simp [execPtpAdopt, State.ptpNow_of_received ht, hq, hlt, hl, hE, hr, he, hs, hp, hm]

theorem execPtpOffsetUpdate_of_due {s : State} {ns q : Nat} (ht : s.spn.ptpTime = some (ns, q)) (hs : s.spn.epochSet = true)
    (hp : s.spn.ptpUpdated + 100000000 ≤ s.pos) :
    execPtpOffsetUpdate s = .next (s.updSpn fun x => { x with
      ptpOffset := ((ns + 10 * (s.pos - q) : Nat) : Int) - 10 * (s.pos : Int), ptpUpdated := s.pos }) := by
  simp only [execPtpOffsetUpdate, State.ptpNow_of_received ht, hs, secondTicks, hp, decide_true, Bool.and_self, if_true]
  rfl

/-! ### Assembly alignment (R33, R54, R56) -/

/-- The last measurement of a port is half of its round trip. -/
theorem State.delayOf_setDelays_append (s : State) (l : List (PortId × Nat)) (p : PortId) (d : Nat) :
    (s.setDelays (l ++ [(p, d)])).delayOf p.val = d / 2 := by
  simp [State.delayOf, State.setDelays, State.updSpn]

/-- A DEVICE frame leaves in slot 0 or waits for it. -/
theorem State.sendDevice_frame (s : State) (m : DeviceMsg) :
    s.sendDevice m = { s with out := (s.sendDevice m).out, slot0 := (s.sendDevice m).slot0 } := by
  by_cases h : s.slotOf s.pos = 0
  · rw [State.sendDevice_of_slot0 h]; rfl
  · rw [State.sendDevice_of_later h]

@[simp] theorem State.sendDevice_spn (s : State) (m : DeviceMsg) : (s.sendDevice m).spn = s.spn := by rw [State.sendDevice_frame]
@[simp] theorem State.sendDevice_jig (s : State) (m : DeviceMsg) : (s.sendDevice m).jig = s.jig := by rw [State.sendDevice_frame]
@[simp] theorem State.sendDevice_mem (s : State) (m : DeviceMsg) : (s.sendDevice m).mem = s.mem := by rw [State.sendDevice_frame]
@[simp] theorem State.sendDevice_cells (s : State) (m : DeviceMsg) : (s.sendDevice m).cells = s.cells := by rw [State.sendDevice_frame]

/-- A follower that agrees with its coordinator, after ASSEMBLY_ALIGNMENT: the delays measured are in, its upstream's position, corrected,
is adopted, and the member reports that it is aligned. -/
def State.joined (s : State) (pos : Nat) (ds : List (PortId × Nat)) : State :=
  let d := (s.setDelays ds).delayOf (s.upstreamPort.getD 0)
  ((((s.setDelays ds).adopt (followPosition pos d)).updSpn fun x => { x with phasePs := d }).updJigAlign false s.jig.lastStatus).sendDevice
    (.aligned s.jig.me)

theorem followPosition_eq (pos d : Nat) : followPosition pos d = (pos + d / 10000 + 99) / 100 * 100 := by
  simp only [followPosition, ceilDiv, Nat.add_succ_sub_one]

/-- The position that a joined follower takes up, and what joining leaves alone. -/
theorem State.joined_spec (s : State) (pos : Nat) (ds : List (PortId × Nat)) :
    (s.joined pos ds).spn.pos = (pos + (s.setDelays ds).delayOf (s.upstreamPort.getD 0) / 10000 + 99) / 100 * 100 ∧
      (s.joined pos ds).spn.epochSet = true ∧ (s.joined pos ds).jig.alignDue = false ∧ (s.joined pos ds).mem = s.mem ∧
      (s.joined pos ds).cells = s.cells := by
  simp only [State.joined, State.sendDevice_spn, State.sendDevice_jig, State.sendDevice_mem, State.sendDevice_cells]
  exact ⟨followPosition_eq _ _, rfl, rfl, rfl, rfl⟩

section
variable {s : State} (hl : s.jig.loaded = true) (hE : 2 ≤ s.bigE) (hm : s.mayAdopt = true) (hst : s.spn.stopped = false)
  (hlost : s.jig.me ∉ s.spn.lost) (hr : s.spn.role = .follower)
include hl hE hm hst hlost hr

theorem execAssemblyAlignment_of_equal {ds : List (PortId × Nat)} (pos : Nat) (hlk : s.spn.locked = true) (hs : s.spn.source ≠ .holdover)
    (hb : s.measuresBoth ds = true) :
    execAssemblyAlignment pos s.dbg.fw.fwClass (compositionHash s.jig.cfg.assembly) s.jig.measurement ds s = .next (s.joined pos ds) := by
  rw [execAssemblyAlignment, if_neg (by simp [hl, Nat.lt_of_succ_le hE, hm, hst, hlost]), if_pos (by simp [hr]), if_neg (by simp),
    if_pos (by simp [hlk, hs, hb])]
  rfl

theorem execAssemblyAlignment_of_different {fw : Nat} {c m : Digest} (pos : Nat) (ds : List (PortId × Nat))
    (hd : fw ≠ s.dbg.fw.fwClass ∨ c ≠ compositionHash s.jig.cfg.assembly ∨ m ≠ s.jig.measurement) :
    execAssemblyAlignment pos fw c m ds s = .next ((s.updJigAlign false .cfgMismatch).emit (.alignRefused .cfgMismatch)) := by
  rw [execAssemblyAlignment, if_neg (by simp [hl, Nat.lt_of_succ_le hE, hm, hst, hlost]), if_pos (by simp [hr]), if_pos (by simp [hd, or_assoc])]

end

/-- Settles O31: each row of alignment is its one guarded effect; a position is taken by `State.adopt`, which leaves memory and cells alone. -/
theorem alignmentAndAdoption : Obligations.AlignmentAndAdoption := by
  refine ⟨⟨fun s => execSpinClkQualified_of_qualifying, fun s => execPllLockTimeout_of_late, fun s ha he hl =>
      ⟨execAlignRelease_of_edge ha he hl, fun p => execAlignRelease_of_early ha⟩, fun s a ha hp => ?fifo,
      fun s a => execCxlTrainingStart_of_due⟩,
    fun s v hl => ?epoch, fun s ha hr hm => ⟨_, execSpinSyncEdge_of_armed ha hr hm, rfl, rfl, rfl, rfl, rfl, rfl, rfl⟩, State.mayAdopt_iff,
    fun s p d ns hl hr he hp hd hs z => ⟨_, execPtpMessage_of_port ns hl hr he hp hd hs z, rfl, rfl, rfl, rfl, rfl⟩,
    fun s ns q r ht hq hlt hl hE hr he hs hp hm => ⟨_, execPtpAdopt_of_edge ht hq hlt hl hE hr he hs hp hm, ptpTicks_eq _, rfl, rfl⟩,
    fun s ns q => execPtpOffsetUpdate_of_due, fun s pos ds hl hE hm hst hlost hr => ⟨fun hlk hs hb => ?joins, fun fw c m hd => ?refused⟩,
    State.delayOf_setDelays_append⟩
  case fifo =>
    refine ⟨execFifoCheck_of_due ha hp true, fun h => (execFifoCheck_of_due ha hp false).trans ?_,
      fun h => (execFifoCheck_of_due ha hp false).trans ?_⟩
    · simp [h]
    · simp [Nat.not_lt.2 h]
  case epoch =>
    refine ⟨fun hv hr he hq => (execSpnEpochWrite_host v hl).trans ?_, fun h => (execSpnEpochWrite_host v hl).trans ?_⟩
    · rw [if_pos ⟨hv, hr, he, hq⟩]
    · rw [if_neg]
      rintro ⟨hv, hr, -, hq⟩
      simp [hv, hr, hq] at h
  case joins => exact ⟨_, execAssemblyAlignment_of_equal hl hE hm hst hlost hr pos hlk hs hb, s.joined_spec pos ds⟩
  case refused =>
    exact ⟨_, execAssemblyAlignment_of_different hl hE hm hst hlost hr pos ds hd, rfl, rfl, rfl, rfl, rfl⟩

end Sys2Proof.Machine
end

section
/-! SUPPORT. Time sources and their loss, clock ratios, freezes and refresh windows (R57, R59, R68, R79, R90). -/

namespace Sys2Proof.Machine

open Sys2Proof

/-! ### Sources and their loss (R57, R59) -/

theorem execUpstreamLoss_of_followed {s : State} (hr : s.spn.role = .follower) (hs : s.spn.source = .primary ∨ s.spn.source = .secondary) :
    execUpstreamLoss s = .next (s.updSpn fun x => { x with
      switchDue := decide (s.spn.source = .primary), source := .holdover, holdoverTurns := 0, locked := false }) := by
  rw [execUpstreamLoss, State.loseUpstream, if_pos (by simp [hr, hs])]
  rfl

theorem execHoldoverLimit_of_passed {s : State} (hr : s.spn.role = .follower) (hs : s.spn.source = .holdover) (hn : 16 ≤ s.spn.holdoverTurns) :
    execHoldoverLimit s = .next (s.updSpn fun x => { x with stopDue := true }) := by
  rw [execHoldoverLimit, if_pos (by simp [hr, hs, hn])]

theorem execSpinClkLoss_of_master {s : State} (hr : s.spn.role = .master) (hc : s.spn.clkLostAt = none) :
    execSpinClkLoss s = .next (s.updSpn fun x => { x with
      clk := false, clkLostAt := some s.pos, source := .holdover, holdoverTurns := 0, locked := false, stopDue := true }) := by
  simp [execSpinClkLoss, State.updSpn, State.pos, hr, hc]

/-! ### Clock ratios (R79) -/

theorem execRatioSwitch_of_due {s : State} {r b : Nat} (hd : s.spn.ratioDue = some (r, b)) (h : s.due ((b + 99) / 100 * 100) = true) :
    execRatioSwitch s = .next (s.updSpn fun x => { x with ratio := r, ratioDue := none }) := by
  have edge : ceilDiv b 100 * 100 = (b + 99) / 100 * 100 := by simp only [ceilDiv, Nat.add_succ_sub_one]
  simp only [execRatioSwitch, hd, edge, if_pos h]

/-! ### Freezes (R90) -/

/-- The state in which the clocks have stopped for a trip at position `p`, before the power loop notes its frame. -/
def State.stoppedFor (s : State) (p : Nat) : State :=
  s.updSpn fun x => { x with frozenAt := some (min s.pos (p + tripTicks)), freezes := satAdd 32 x.freezes 1 }

/-- FREEZE_BEGIN stops the clocks; beside that it writes the power loop alone. -/
theorem execFreezeBegin_of_trip {s : State} {p : Nat} (ht : s.spn.tripAt = some p) (z : s.spn.frozenAt = none) :
    ∃ f, execFreezeBegin s = .next ((s.stoppedFor p).updPwr f) := by
  simp only [execFreezeBegin, ht, State.frozen, z, Option.isSome_none, Bool.false_eq_true, if_false]
  split
  · exact ⟨_, rfl⟩
  · exact ⟨id, rfl⟩

/-- The condition under which the clocks restart: an alignment edge strictly after both the trip's clearing at `c` and the shortest freeze from
`f` on (R90, R565). -/
def State.mayThaw (s : State) (f c : Nat) : Bool :=
  s.pos % 100 == 0 && decide (f + freezeTicks < s.pos) && decide (c < s.pos) &&
    (match s.spn.tripAt with | some t => decide (t ≤ c) | none => true)

theorem State.mayThaw_iff (s : State) (f c : Nat) :
    s.mayThaw f c = true ↔ s.pos % 100 = 0 ∧ f + 200 < s.pos ∧ c < s.pos ∧ ∀ p, s.spn.tripAt = some p → p ≤ c := by
  simp only [State.mayThaw, Bool.and_eq_true, beq_iff_eq, decide_eq_true_eq, and_assoc]
  cases s.spn.tripAt <;> simp [freezeTicks]

/-- The state in which the clocks run again after a freeze from `f` on. -/
def State.thawed (s : State) (f : Nat) : State :=
  let s := (s.holdTimers (s.pos - f)).updSpn fun x => { x with frozenAt := none, tripAt := none, lastFreeze := min (2 ^ 32 - 1) (x.pos - f) }
  s.updPwr fun w => { w with lastLoop := max w.lastLoop (s.turn / 8) }

theorem execThaw_of_frozen {s : State} {f : Nat} (hf : s.spn.frozenAt = some f) (c : Nat) :
    execThaw s c = .next (if s.mayThaw f c then s.thawed f else s) := by
  simp only [execThaw, hf]
  by_cases h : s.mayThaw f c = true
  · rw [if_pos h]
    exact if_pos h
  · rw [if_neg h]
    exact if_neg h

/-! ### Refresh windows (R68) -/

theorem execRefreshWindow_of_window {s : State} {ddr : Bool} {u : Fin 16} {p : Nat} (z : s.frozen = false)
    (hu : u.val < (if ddr then 12 else 8))
    (hp : s.refreshAt (s.slotTable (if ddr then .ddrRefresh else .hbmRefresh) u.val) s.pos = some p) :
    execRefreshWindow ddr u s = .next (s.updSpn fun x => { x with refresh := Tab.put 0 x.refresh (if ddr then 8 + u.val else u.val) p }) := by
  have unit : ¬(s.frozen || (if ddr then decide (12 ≤ u.val) else decide (8 ≤ u.val))) = true := by
    cases ddr <;> simpa [z] using hu
  simp only [execRefreshWindow, if_neg unit, hp]

/-- Settles O32: each row is its one guarded effect; a freeze begins and ends in states of their own, and `State.mayThaw` says when it ends. -/
theorem sourcesRatiosAndFreezes : Obligations.SourcesRatiosAndFreezes := by
  refine ⟨fun s => execUpstreamLoss_of_followed, fun s => execHoldoverLimit_of_passed, fun s => execSpinClkLoss_of_master,
    fun s r b => execRatioSwitch_of_due, fun s p ht z => ?freezes, fun s f c hf ht hc he hp => ?thaws, fun s f c hf h => ?stays,
    fun s ddr u p => execRefreshWindow_of_window⟩
  case freezes =>
    obtain ⟨g, e⟩ := execFreezeBegin_of_trip ht z
    exact ⟨_, e, rfl, ht, rfl, rfl, rfl, rfl⟩
  case thaws =>
    refine ⟨s.thawed f, ?_, rfl, rfl, rfl, rfl, rfl, rfl, rfl⟩
    exact (execThaw_of_frozen hf c).trans (by rw [if_pos ((s.mayThaw_iff f c).2 ⟨he, hp, hc, ht⟩)])
  case stays =>
    have frozen : ¬s.mayThaw f c = true := by
      rw [State.mayThaw_iff]
      rintro ⟨he, hp, hc, ht⟩
      rcases h with h | h | h | ⟨p, hp', h⟩
      · exact h he
      · exact Nat.not_lt.2 h hp
      · exact Nat.not_lt.2 h hc
      · exact Nat.not_lt.2 (ht p hp') h
    exact (execThaw_of_frozen hf c).trans (by rw [if_neg frozen])

end Sys2Proof.Machine
end

section
/-! SUPPORT. A step on the front command or on an empty queue (R50, R64, R70, R199, R201, R424). -/

namespace Sys2Proof.Machine

open Sys2Proof

/-! ### What a step serves -/

theorem step_of_front {s : State} {c : Instr} {rest : List Instr} (h : s.pending = c :: rest) : step s = exec c { s with pending := rest } := by
  rw [step, h]

theorem step_of_empty {s : State} (h : s.pending = []) : step s = .next s.tick := by
  rw [step, h]

theorem State.tick_of_counting {s : State} (h : s.counting = true) :
    s.tick = State.serve { s with spn := { s.spn with pos := (s.spn.pos + 1) % 2 ^ 64 } } := if_pos h

theorem State.tick_of_still {s : State} (h : s.counting = false) : s.tick = s := by
  rw [State.tick, if_neg (by simp [h])]

/-! ### Where nothing waits, serving changes nothing -/

theorem State.drainFrames_of_none {s : State} (h : s.waiting = []) : s.drainFrames = s := by
  obtain ⟨⟩ := s
  obtain rfl := h
  rfl

theorem State.pumpLoads_of_none {s : State} (h : s.loads = []) : s.pumpLoads = s := by
  rw [State.pumpLoads, h]
  rfl

theorem State.pumpEvks_of_none {s : State} (h : s.ring.evkJobs = []) : s.pumpEvks = s := by
  rw [State.pumpEvks, h]
  rfl

theorem State.beginPrograms_of_begun {s : State} (h : ∀ r ∈ s.progs, r.begun = true) : s.beginPrograms = s := by
  have none : s.progs.filter (fun r => !r.begun) = [] := List.filter_eq_nil_iff.2 fun r hr => by simp [h r hr]
  rw [State.beginPrograms, none]
  rfl

/-- With no packet unsent, the most that an endpoint has to send is 0, so no endpoint has a turn. -/
theorem State.pumpAll_of_sent {s : State} (h : ∀ x ∈ s.fab.eps, ∀ m ∈ x.2.sends, m.unsent = []) : s.pumpAll = s := by
  have zero : ∀ l : List (Nat × Endpoint), (∀ x ∈ l, ∀ m ∈ x.2.sends, m.unsent = []) →
      (l.map fun x => (x.2.sends.map fun m => m.unsent.length).sum).foldl max 0 = 0 := by
    intro l hl
    induction l with
    | nil => rfl
    | cons x r ih =>
      have hx : (x.2.sends.map fun m => m.unsent.length).sum = 0 := by
        refine List.sum_eq_zero fun n hn => ?_
        obtain ⟨m, hm, rfl⟩ := List.mem_map.1 hn
        simp [hl x (List.mem_cons_self ..) m hm]
      rw [List.map_cons, List.foldl_cons, hx]
      exact ih fun y hy => hl y (List.mem_cons_of_mem _ hy)
  rw [State.pumpAll, zero _ fun x hx => h x (List.mem_filter.1 hx).1]
  rfl

theorem State.serve_of_idle {s : State} (hw : s.waiting = []) (hl : s.loads = []) (he : s.ring.evkJobs = [])
    (hp : ∀ r ∈ s.progs, r.begun = true) (hs : ∀ x ∈ s.fab.eps, ∀ m ∈ x.2.sends, m.unsent = []) : s.serve = s := by
  rw [State.serve, State.drainFrames_of_none hw, State.pumpAll_of_sent hs, State.pumpLoads_of_none hl, State.pumpEvks_of_none he,
    State.beginPrograms_of_begun hp]

/-- Settles O1: a step is `exec` or `State.tick`, and each part of `State.serve` has nothing to do where its list is empty. -/
theorem everyStepServesTheFrontOrLetsATickPass : Obligations.EveryStepServesTheFrontOrLetsATickPass :=
  ⟨fun _ _ _ => step_of_front,
    fun _ h hc => (step_of_empty h).trans (congrArg _ (State.tick_of_counting hc)),
    fun _ h hc => (step_of_empty h).trans (congrArg _ (State.tick_of_still hc)),
    fun _ => State.serve_of_idle⟩

end Sys2Proof.Machine
end

section
/-! SUPPORT. The fields of a register word, and what registers read in the state after reset (R18). -/

namespace Sys2Proof.Machine

open Sys2Proof

/-! ### The fields of a register word -/

/-- The fields of a word stand in ascending order from bit `n` on and do not meet. -/
def fieldsFrom (n : Nat) : List (Nat × Nat × Nat) → Bool
  | [] => true
  | (lo, w, _) :: r => decide (n ≤ lo) && fieldsFrom (lo + w) r

theorem pow_dvd_packFields {n : Nat} {l : List (Nat × Nat × Nat)} (h : fieldsFrom n l = true) : 2 ^ n ∣ packFields l := by
  induction l generalizing n with
  | nil => exact dvd_zero _
  | cons x r ih =>
    obtain ⟨lo, w, v⟩ := x
    simp only [fieldsFrom, Bool.and_eq_true, decide_eq_true_eq] at h
    obtain ⟨hn, hr⟩ := h
    exact dvd_add (Dvd.dvd.mul_left (pow_dvd_pow 2 hn) _) ((pow_dvd_pow 2 (by omega)).trans (ih hr))

theorem le_of_mem_fieldsFrom {n : Nat} {l : List (Nat × Nat × Nat)} (h : fieldsFrom n l = true) {x : Nat × Nat × Nat}
    (hx : x ∈ l) : n ≤ x.1 := by
  induction l generalizing n with
  | nil => cases hx
  | cons y r ih =>
    simp only [fieldsFrom, Bool.and_eq_true, decide_eq_true_eq] at h
    obtain ⟨hn, hr⟩ := h
    cases hx with
    | head => exact hn
    | tail _ hx => exact hn.trans ((Nat.le_add_right _ _).trans (ih hr hx))

/-- What lies below bit `m` does not show in a field from bit `m` on. -/
theorem bits_add_of_lt {a b m lo : Nat} (ha : a < 2 ^ m) (hb : 2 ^ m ∣ b) (hm : m ≤ lo) (w : Nat) : bits (a + b) lo w = bits b lo w := by
  obtain ⟨q, rfl⟩ := hb
  obtain ⟨k, rfl⟩ := Nat.exists_eq_add_of_le hm
  have drop : (a + 2 ^ m * q) / 2 ^ m = 2 ^ m * q / 2 ^ m := by
    rw [Nat.add_mul_div_left _ _ (Nat.two_pow_pos m), Nat.div_eq_of_lt ha, Nat.mul_div_cancel_left _ (Nat.two_pow_pos m), Nat.zero_add]
  simp only [bits, Nat.pow_add, ← Nat.div_div_eq_div_mul, drop]

/-- Each field of a word reads back. -/
theorem bits_packFields {n lo w v : Nat} {l : List (Nat × Nat × Nat)} (h : fieldsFrom n l = true) (hm : (lo, w, v) ∈ l) :
    bits (packFields l) lo w = v % 2 ^ w := by
  induction l generalizing n with
  | nil => cases hm
  | cons x r ih =>
    obtain ⟨lo', w', v'⟩ := x
    simp only [fieldsFrom, Bool.and_eq_true] at h
    obtain ⟨-, hr⟩ := h
    have above := pow_dvd_packFields hr
    rw [packFields]
    cases hm with
    | head =>
      obtain ⟨q, hq⟩ := above
      rw [hq, Nat.pow_add, Nat.mul_assoc, Nat.mul_comm (v % 2 ^ w), ← Nat.mul_add, bits, Nat.mul_div_cancel_left _ (Nat.two_pow_pos lo),
        Nat.add_mul_mod_self_left, Nat.mod_mod]
    | tail _ hm =>
      have below : v' % 2 ^ w' * 2 ^ lo' < 2 ^ (lo' + w') := by
        rw [Nat.pow_add, Nat.mul_comm]
        exact Nat.mul_lt_mul_of_pos_left (Nat.mod_lt _ (Nat.two_pow_pos w')) (Nat.two_pow_pos lo')
      rw [bits_add_of_lt below above (le_of_mem_fieldsFrom hr hm), ih hr hm]

/-- A field within the low 64 bits is read from them. -/
theorem bits_mod_word (x : Nat) {lo w : Nat} (h : lo + w ≤ 64) : bits (x % 2 ^ 64) lo w = bits x lo w := by
  rw [bits, show 2 ^ 64 = 2 ^ lo * 2 ^ (64 - lo) by rw [← Nat.pow_add, Nat.add_sub_cancel' (by omega)], Nat.mod_mul_right_div_self,
    Nat.mod_mod_of_dvd _ (pow_dvd_pow 2 (by omega)), bits]

/-- A register that reads as a word of fields gives its field `k`. -/
theorem State.bits_regValue {s : State} {fn i c : Nat} {r : Reg} {l : List (Nat × Nat × Nat)} (k : Nat) {lo w v : Nat}
    (hr : s.regValue fn r i c = packFields l % 2 ^ 64) (hl : fieldsFrom 0 l = true) (hk : l[k]? = some (lo, w, v))
    (hw : lo + w ≤ 64 := by decide) (hv : v < 2 ^ w := by decide) : bits (s.regValue fn r i c) lo w = v := by
  rw [hr, bits_mod_word _ hw, bits_packFields hl (List.mem_of_getElem? hk), Nat.mod_eq_of_lt hv]

/-! ### The state after reset -/

/-- No key entry is in use after reset. -/
theorem reset_freeKeys (lo hi : Nat) : (State.reset.freeKeys lo hi).length = hi - lo := by
  have free : ∀ i ∈ (List.range (hi - lo)).map (· + lo), ((State.reset.key i).type == 0) = true := fun _ _ => rfl
  rw [State.freeKeys, List.filter_eq_self.2 free, List.length_map, List.length_range]

/-- Every class of events is taken by every Shavings queue, DEVICE_MASK's included. -/
theorem reset_shvMask (q : Nat) : State.reset.shvMask q = 0xFFFFFFFF := by
  rw [State.shvMask]
  split <;> rfl

theorem reset_shvMask_field (q : Nat) : bits (State.reset.regValue 0 .dbgShvConfig q 0) 0 32 = 0xFFFFFFFF :=
  (State.bits_regValue 0 rfl rfl rfl (by decide) (by rw [reset_shvMask]; decide)).trans (reset_shvMask q)

theorem reset_freeKeys_field : bits (State.reset.regValue 0 .secKeyStatus 0 0) 0 10 = 960 := by
  have free : State.reset.freeTenantKeys.length = 960 := reset_freeKeys 0 960
  exact (State.bits_regValue 0 rfl rfl rfl (by decide) (by rw [free]; decide)).trans free

/-- Settles O7: each register is a word of fields, and each field named holds the value that the record's default gives. -/
theorem resetLeavesWhatTheSpecGives : Obligations.ResetLeavesWhatTheSpecGives := by
  refine ⟨⟨reset_ram_wf, nofun, rfl, rfl, rfl⟩, ?_⟩
  intro rd
  exact ⟨State.bits_regValue 6 rfl rfl rfl, State.bits_regValue 0 rfl rfl rfl, State.bits_regValue 0 rfl rfl rfl,
    State.bits_regValue 2 rfl rfl rfl, fun i _ => ⟨State.bits_regValue 0 rfl rfl rfl, State.bits_regValue 1 rfl rfl rfl⟩,
    fun i _ => ⟨reset_shvMask_field i, State.bits_regValue 2 rfl rfl rfl, State.bits_regValue 1 rfl rfl rfl⟩,
    rfl, fun i _ => ⟨State.bits_regValue 0 rfl rfl rfl, State.bits_regValue 1 rfl rfl rfl⟩,
    fun i _ => ⟨State.bits_regValue 0 rfl rfl rfl, State.bits_regValue 1 rfl rfl rfl, State.bits_regValue 2 rfl rfl rfl⟩,
    fun i _ => State.bits_regValue 5 rfl rfl rfl, fun c _ => State.bits_regValue 0 rfl rfl rfl, reset_freeKeys_field⟩

end Sys2Proof.Machine
end

section
/-! SUPPORT. Jig images, edits and live fields (R97 to R110, R119). -/

namespace Sys2Proof.Machine

open Sys2Proof

/-! ### JIG_LOAD: refusals and checks (R104, R105) -/

theorem execJigLoad_of_locked {s : State} {c : Cmd} (img : JigImage) (ha : s.accepts 0x01 c = true) (hl : s.loadLocked = true) :
    execJigLoad c img s = .next (s.endJig c .cfgLocked 0) := by
  simp only [execJigLoad, s.command_of_accepts _ c _ ha, hl, firstFail, if_true]

theorem execJigLoad_of_stage {s : State} {c : Cmd} (img : JigImage) (ha : s.accepts 0x01 c = true) (hl : s.loadLocked = false)
    (ho : s.sec.lifecycle ≠ .owned) (hp : s.sec.lifecycle ≠ .open_) : execJigLoad c img s = .next (s.endJig c .lifecycle 0) := by
  have stage : (s.sec.lifecycle != .owned && s.sec.lifecycle != .open_) = true := by simp [ho, hp]
  simp only [execJigLoad, s.command_of_accepts _ c _ ha, hl, stage, firstFail, Bool.false_eq_true, if_false, if_true]

/-- What a JIG_LOAD that may begin makes of its image: the end with the status of the first check that fails, or the wait for the effect. -/
theorem execJigLoad_of_image {s : State} {c : Cmd} {img : JigImage} {h : JigHeader} {l : List JigSection} {v : JigConfig}
    (ha : s.accepts 0x01 c = true) (hl : s.loadLocked = false) (hs : s.sec.lifecycle = .owned ∨ s.sec.lifecycle = .open_)
    (hb : s.blockFail 0 c.addr c.len (fun p => p.r) = none)
    (hr : readJig (s.readVA 0 c.addr (min c.len 4194304) c.host) img.cfg = (h, l, v)) :
    (∀ st, s.jigImageCheck h v img.sig c.len = some st → execJigLoad c img s = .next ((s.noteCheck none).endJig c st 0)) ∧
    (∀ k, s.jigImageCheck h v img.sig c.len = none → firstCheck (s.loadChecks h l v img.misshapen) = some k →
      execJigLoad c img s = .next ((s.noteCheck (some k)).endJig c .cfgMismatch 0)) ∧
    (s.jigImageCheck h v img.sig c.len = none → firstCheck (s.loadChecks h l v img.misshapen) = none →
      execJigLoad c img s = .next (s.updJig fun j => { j with
        loading := some (c, { header := h, lengths := sectionLengths l, cfg := v }, s.pos) })) := by
  have begins : firstFail [(s.loadLocked, .cfgLocked), (s.sec.lifecycle != .owned && s.sec.lifecycle != .open_, .lifecycle)] = none := by
    rcases hs with hs | hs <;> simp [firstFail, hl, hs]
  simp only [execJigLoad, s.command_of_accepts _ c _ ha, begins, hb, Nat.reducePow, hr]
  exact ⟨fun st hi => by rw [hi], fun k hi hk => by rw [hi, hk], fun hi hk => by rw [hi, hk]⟩

/-- The report of a failing check is written in JIG_CHECK; a free value may be drawn for its offset. -/
theorem State.noteCheck_some (s : State) (k : JigCheck) : ∃ off n,
    s.noteCheck (some k) = { s with
      jig := { s.jig with checkId := k.id, checkSection := k.type, checkInst := k.inst, checkOffset := off }, freeCtr := n } ∧
    ∀ m, k.off = some m → off = m % 2 ^ 24 := by
  obtain ⟨id, type, inst, bad, off⟩ := k
  cases off with
  | none => exact ⟨_, _, rfl, nofun⟩
  | some m => exact ⟨_, _, rfl, fun _ e => by cases e; rfl⟩

/-! ### Live fields (R119) -/

/-- The live fields are taken in the JIG block; beside that an event may be raised. -/
theorem State.takeLive_frame (s : State) (v : JigLive) (host thermal : Bool) (off n : Nat) : ∃ hif dbg,
    s.takeLive v host thermal off n = { s with jig := { s.jig with live := (liveTake s.jig.live v).1 }, hif := hif, dbg := dbg } := by
  unfold State.takeLive
  dsimp only
  split
  · rw [State.discarded, State.event_frame]
    exact ⟨_, _, rfl⟩
  · exact ⟨_, _, rfl⟩

/-- Whether a field is named and its new value out of range. -/
def liveRefused (old new : JigLive) (host thermal : Bool) : Bool := (host && (liveTake old new).2.1) || (thermal && (liveTake old new).2.2)

theorem State.takeLive_of_good {s : State} {v : JigLive} {host thermal : Bool} (h : liveRefused s.jig.live v host thermal = false) (off n : Nat) :
    s.takeLive v host thermal off n = s.updJig fun j => { j with live := (liveTake s.jig.live v).1 } :=
  if_neg (Bool.eq_false_iff.1 h)

theorem State.takeLive_of_bad {s : State} {v : JigLive} {host thermal : Bool} (h : liveRefused s.jig.live v host thermal = true) (off n : Nat) :
    s.takeLive v host thermal off n = (s.updJig fun j => { j with live := (liveTake s.jig.live v).1 }).discarded 0 off n :=
  if_pos h

theorem execLiveFieldWrite_host {s : State} (v : Word64) (h : s.sec.lifecycle ≠ .tampered) :
    execLiveFieldWrite 0 v s = .next (s.takeLive { s.jig.live with
      heartbeatMs := v.toNat % 4294967296, hostLostS := v.toNat / 4294967296 % 4294967296 } true false 0x00200100 v.toNat) := by
  simp [execLiveFieldWrite, s.ifWritable_of _ h, bits]

theorem execLiveFieldWrite_events {s : State} (v : Word64) (h : s.sec.lifecycle ≠ .tampered) :
    execLiveFieldWrite 1 v s = .next (s.updJig fun j => { j with live := { j.live with deviceMask := v.toNat % 4294967296 } }) := by
  have taken := State.takeLive_of_good (s := s) (v := { s.jig.live with deviceMask := v.toNat % 4294967296 }) (host := false)
    (thermal := false) rfl 0x00200108 v.toNat
  simpa [execLiveFieldWrite, s.ifWritable_of _ h, bits, liveTake, State.updJig] using taken

theorem execLiveFieldWrite_thermal {s : State} (v : Word64) (h : s.sec.lifecycle ≠ .tampered) :
    execLiveFieldWrite 2 v s = .next (s.takeLive { s.jig.live with tempWarnC := v.toNat % 256 } false true 0x00200110 v.toNat) := by
  simp [execLiveFieldWrite, s.ifWritable_of _ h, bits]

theorem execLiveFieldWrite_host_inRange {s : State} {v : Word64} (h : s.sec.lifecycle ≠ .tampered) (hb : 100 ≤ v.toNat % 4294967296)
    (hb' : v.toNat % 4294967296 ≤ 60000) (hl : 60 ≤ v.toNat / 4294967296 % 4294967296) (hl' : v.toNat / 4294967296 % 4294967296 ≤ 86400) :
    execLiveFieldWrite 0 v s = .next (s.updJig fun j => { j with live := { j.live with
      heartbeatMs := v.toNat % 4294967296, hostLostS := v.toNat / 4294967296 % 4294967296 } }) := by
  rw [execLiveFieldWrite_host v h, State.takeLive_of_good (by simp [liveRefused, liveTake, hb, hb', hl, hl'])]
  simp [State.updJig, liveTake, hb, hb', hl, hl']

theorem execLiveFieldWrite_host_outOfRange {s : State} {v : Word64} (h : s.sec.lifecycle ≠ .tampered)
    (hb : v.toNat % 4294967296 < 100 ∨ 60000 < v.toNat % 4294967296) :
    ∃ u : State, execLiveFieldWrite 0 v s = .next (u.discarded 0 0x00200100 v.toNat) ∧
      u.jig.live.heartbeatMs = s.jig.live.heartbeatMs ∧ u.jig.cfg = s.jig.cfg ∧ u.sec = s.sec := by
  have out : (decide (100 ≤ v.toNat % 4294967296) && decide (v.toNat % 4294967296 ≤ 60000)) = false := by
    simp only [Bool.and_eq_false_iff, decide_eq_false_iff_not]
    omega
  rw [execLiveFieldWrite_host v h, State.takeLive_of_bad (by simp [liveRefused, liveTake, out])]
  exact ⟨_, rfl, by simp [State.updJig, liveTake, out], rfl, rfl⟩

theorem execLiveFieldWrite_thermal_inRange {s : State} {v : Word64} (h : s.sec.lifecycle ≠ .tampered) (ht : 70 ≤ v.toNat % 256)
    (ht' : v.toNat % 256 ≤ 104) :
    execLiveFieldWrite 2 v s = .next (s.updJig fun j => { j with live := { j.live with tempWarnC := v.toNat % 256 } }) := by
  rw [execLiveFieldWrite_thermal v h, State.takeLive_of_good (by simp [liveRefused, liveTake, ht, ht'])]
  simp [State.updJig, liveTake, ht, ht']

theorem execLiveFieldWrite_thermal_outOfRange {s : State} {v : Word64} (h : s.sec.lifecycle ≠ .tampered)
    (ht : v.toNat % 256 < 70 ∨ 104 < v.toNat % 256) : execLiveFieldWrite 2 v s = .next (s.discarded 0 0x00200110 v.toNat) := by
  have out : (decide (70 ≤ v.toNat % 256) && decide (v.toNat % 256 ≤ 104)) = false := by
    simp only [Bool.and_eq_false_iff, decide_eq_false_iff_not]
    omega
  rw [execLiveFieldWrite_thermal v h, State.takeLive_of_bad (by simp [liveRefused, liveTake, out])]
  simp [State.updJig, liveTake, out]

/-! ### JIG_LOAD_EFFECT (R106) -/

theorem State.setRoles_frame (s : State) : ∃ fab, s.setRoles = { s with fab := fab } := by
  refine State.each_induct s (fun u => ∃ fab, u = { s with fab := fab }) _ _ (fun u p _ => ?_) ⟨s.fab, rfl⟩
  rintro ⟨fab, rfl⟩
  dsimp only
  split
  · exact ⟨_, rfl⟩
  · exact ⟨_, rfl⟩

theorem State.setQuotas_frame (s : State) : ∃ mem, s.setQuotas = { s with mem := mem } := by
  refine State.each_induct s (fun u => ∃ mem, u = { s with mem := mem }) _ _ (fun u t _ => ?_) ⟨s.mem, rfl⟩
  rintro ⟨mem, rfl⟩
  exact ⟨_, rfl⟩

theorem State.each_startClear_frame (s : State) (l : List Nat) : ∃ cells, s.each l State.startClear = { s with cells := cells } := by
  refine State.each_induct s (fun u => ∃ cells, u = { s with cells := cells }) _ _ (fun u c _ => ?_) ⟨s.cells, rfl⟩
  rintro ⟨cells, rfl⟩
  exact ⟨_, rfl⟩

/-- Keys are drawn into the key register. -/
theorem State.newKeys_frame (s : State) (owner lo hi : Nat) (l : List (Nat × Nat)) :
    ∃ sec n, (s.newKeys owner lo hi l).2 = { s with sec := sec, freeCtr := n } := by
  induction l generalizing s with
  | nil => exact ⟨_, _, rfl⟩
  | cons x r ih =>
    unfold State.newKeys
    dsimp only
    split
    · exact ⟨_, _, rfl⟩
    · next i _ _ =>
      obtain ⟨sec, n, e⟩ := ih (s.draw.2.setKey i { type := x.1, owner := owner, uses := x.2, value := s.draw.1 % 2 ^ 256 })
      exact ⟨sec, n, e⟩

theorem State.keysOfZero_frame (s : State) : ∃ sec mem n, s.keysOfZero = { s with sec := sec, mem := mem, freeCtr := n } := by
  unfold State.keysOfZero
  split
  · obtain ⟨sec, n, e⟩ := s.newKeys_frame 0 0 960 (memoryKeys false)
    obtain ⟨sec', n', e'⟩ := (s.newKeys 0 0 960 (memoryKeys false)).2.newKeys_frame 0 0 960 (memoryKeys true)
    unfold State.makeMemoryKeys
    dsimp only
    rw [e', e]
    exact ⟨_, _, _, rfl⟩
  · exact ⟨_, _, _, rfl⟩

/-- What a load puts in force beside the JIG block: roles, k, quotas, bands, tenant 0's keys and budgets. -/
theorem State.jigInForce_frame (s : State) : ∃ fab spn mem pwr sec n,
    s.setRoles.setSpindle.setQuotas.setBands.keysOfZero.refill false =
      { s with fab := fab, spn := spn, mem := mem, pwr := pwr, sec := sec, freeCtr := n } ∧ spn.k = s.jig.cfg.spindle.k := by
  obtain ⟨fab, hroles⟩ := s.setRoles_frame
  obtain ⟨mem, hquotas⟩ := s.setRoles.setSpindle.setQuotas_frame
  obtain ⟨sec, mem', n, hkeys⟩ := s.setRoles.setSpindle.setQuotas.setBands.keysOfZero_frame
  obtain ⟨dma, link, hrefill, -⟩ := s.setRoles.setSpindle.setQuotas.setBands.keysOfZero.refill_frame false
  rw [hrefill, hkeys, hquotas, hroles]
  exact ⟨_, _, _, _, _, _, rfl, rfl⟩

/-- Tenant 0 runs; its state and an event are all that is written. -/
theorem State.runZero_frame (s : State) : ∃ hif sec dbg,
    (if (s.tenant 0).state == .running then s else s.setTenantState 0 .running) = { s with hif := hif, sec := sec, dbg := dbg } ∧
      (Tab.look ({} : Tenant) sec.tenants 0).state = .running := by
  split
  · next h => exact ⟨s.hif, s.sec, s.dbg, rfl, eq_of_beq h⟩
  · have runs := s.tenant_setTenantState 0 .running
    rw [State.setTenantState, State.tenantEvent, State.event_frame] at runs ⊢
    exact ⟨_, _, _, rfl, congrArg Tenant.state runs⟩

/-- The JIG block when an image of member `me` takes effect. -/
def Jig.taking (j : Jig) (img : LoadedJig) (me : Nat) : Jig :=
  let cfg := { img.cfg with live := none }
  { j with
    loading := none, loaded := true, unsigned := bitAt img.header.flags 0, header := img.header, cfg := cfg, shadow := cfg,
    active := 0, activeShadow := 0, sectionLen := img.lengths, shadowBad := [], prev := none, serial := img.header.serial, me := me,
    alignDue := decide (2 ≤ cfg.bigE), checkId := 0, checkSection := 0, checkInst := 0, checkOffset := 0,
    measurement := jigMeasurement img.header img.header.serial cfg, shadowDigest := jigMeasurement img.header 0 cfg,
    live := img.cfg.live.elim j.live fun v => (liveTake j.live v).1 }

/-- At the position of its effect the image is in the JIG block and in force, tenant 0 runs, and the command completes. -/
theorem execJigLoadEffect_of_due {s : State} {c : Cmd} {img : LoadedJig} {p : Nat} (hl : s.jig.loading = some (c, img, p))
    (hd : s.due ((p / 65536 + 1) * 65536) = true) : ∃ (t : State) (me : Nat),
      execJigLoadEffect s = .next (t.endJigWith c .ok 0 (if s.onHost 0 c.addr c.len then 1 else 0)) ∧
      t.jig = s.jig.taking img me ∧ (t.tenant 0).state = .running ∧ t.spn.k = img.cfg.spindle.k ∧ t.ram = s.ram := by
  unfold execJigLoadEffect
  simp -zeta only [hl, Nat.reducePow, if_pos hd]
  extract_lets fromHost me old was given cfg changed cleared taken digested live inForce timed run
  have hdigested : digested.jig = { s.jig.taking img me with live := s.jig.live } ∧ digested.ram = s.ram := by
    obtain ⟨cells, e⟩ := s.each_startClear_frame changed
    simp only [digested, taken, cleared, e]
    exact ⟨rfl, rfl⟩
  obtain ⟨hjig, hram⟩ := hdigested
  have hlive : live.jig = s.jig.taking img me ∧ live.ram = s.ram := by
    unfold live
    split
    · next v h =>
      obtain ⟨hif, dbg, e⟩ := digested.takeLive_frame v true true 0x00200100 (v.heartbeatMs + v.hostLostS * 4294967296)
      have given : (liveTake s.jig.live v).1 = (s.jig.taking img me).live := by simp only [Jig.taking, h, Option.elim_some]
      rw [e]
      dsimp only
      rw [hjig, hram]
      exact ⟨congrArg (fun l => { s.jig.taking img me with live := l }) given, rfl⟩
    · next h =>
      have given : s.jig.live = (s.jig.taking img me).live := by simp only [Jig.taking, h, Option.elim_none]
      exact ⟨hjig.trans (congrArg (fun l => { s.jig.taking img me with live := l }) given), hram⟩
  obtain ⟨hjig', hram'⟩ := hlive
  clear_value live me
  have hforce : timed.jig = s.jig.taking img me ∧ timed.ram = s.ram ∧ timed.spn.k = img.cfg.spindle.k := by
    obtain ⟨fab, spn, mem, pwr, sec, n, e, hk⟩ := live.jigInForce_frame
    simp only [timed, inForce, e]
    exact ⟨hjig', hram', hk.trans (by rw [hjig']; rfl)⟩
  obtain ⟨hjig'', hram'', hk⟩ := hforce
  clear_value timed
  obtain ⟨hif, sec, dbg, e, hz⟩ := timed.runZero_frame
  refine ⟨run, me, rfl, ?_⟩
  rw [show run = _ from e]
  exact ⟨hjig'', hz, hk, hram''⟩

/-! ### JIG_EDIT (R107 to R110) -/

/-- A JIG_EDIT with a record that may not be is refused and leaves all as it was. -/
theorem execJigEdit_of_bad {s : State} {c : Cmd} {means : List EditMeaning} {st : Status} (ha : s.accepts 0x02 c = true)
    (hb : s.blockFail 0 c.addr c.len (fun p => p.r) = none) (hf : s.editFail (s.editRecords c means) = some st) :
    execJigEdit c means s = s.refuses c st := by
  simp only [execJigEdit, s.command_of_accepts _ c _ ha, hb, hf, State.refuses]

/-- The state that an edit's records leave, with the digest of its shadow. -/
def State.edited (s : State) (recs : List (EditRecord × EditMeaning)) : State :=
  (s.each recs State.applyRecord).updJig fun j => { j with shadowDigest := (s.each recs State.applyRecord).digestOfShadow }

theorem execJigEdit_of_good {s : State} {c : Cmd} {means : List EditMeaning} (ha : s.accepts 0x02 c = true)
    (hb : s.blockFail 0 c.addr c.len (fun p => p.r) = none) (hf : s.editFail (s.editRecords c means) = none) :
    execJigEdit c means s = .next ((s.edited (s.editRecords c means)).ok c) := by
  simp only [execJigEdit, s.command_of_accepts _ c _ ha, hb, hf, State.edited]

/-- A record writes the shadow and the live fields; an event may be raised. -/
theorem State.applyRecord_frame (s : State) (x : EditRecord × EditMeaning) : ∃ shadow bad live hif dbg,
    s.applyRecord x = { s with jig := { s.jig with shadow := shadow, shadowBad := bad, live := live }, hif := hif, dbg := dbg } := by
  unfold State.applyRecord
  dsimp only
  split
  · split
    · exact ⟨_, _, _, _, _, rfl⟩
    · exact ⟨_, _, _, _, _, rfl⟩
  · split
    · obtain ⟨hif, dbg, e⟩ := s.takeLive_frame _ true true _ _
      rw [e]
      exact ⟨_, _, _, _, _, rfl⟩
    · exact ⟨_, _, _, _, _, rfl⟩

theorem State.each_applyRecord_frame (s : State) (recs : List (EditRecord × EditMeaning)) : ∃ shadow bad live hif dbg,
    s.each recs State.applyRecord =
      { s with jig := { s.jig with shadow := shadow, shadowBad := bad, live := live }, hif := hif, dbg := dbg } := by
  refine State.each_induct s (fun u => ∃ shadow bad live hif dbg,
    u = { s with jig := { s.jig with shadow := shadow, shadowBad := bad, live := live }, hif := hif, dbg := dbg }) _ _
    (fun u x _ => ?_) ⟨_, _, _, _, _, rfl⟩
  rintro ⟨shadow, bad, live, hif, dbg, rfl⟩
  exact State.applyRecord_frame _ x

theorem State.edited_spec (s : State) (recs : List (EditRecord × EditMeaning)) : let t := s.edited recs
    t.jig.shadow = (recs.foldl State.applyRecord s).jig.shadow ∧ t.jig.live = (recs.foldl State.applyRecord s).jig.live ∧
      t.jig.cfg = s.jig.cfg ∧ t.jig.active = s.jig.active ∧ t.jig.shadowDigest = jigMeasurement s.jig.header 0 t.jig.shadow ∧
      t.mem = s.mem ∧ t.cells = s.cells ∧ t.sec = s.sec := by
  obtain ⟨shadow, bad, live, hif, dbg, e⟩ := s.each_applyRecord_frame recs
  refine ⟨rfl, rfl, ?_⟩
  unfold State.edited
  rw [e]
  exact ⟨rfl, rfl, rfl, rfl, rfl, rfl⟩

/-- A record of the SPINDLE section gives the shadow what its data means. -/
theorem State.applyRecord_spindle {s : State} {r : EditRecord} {m : EditMeaning} {v : JigSpindle} (ht : r.type = 2)
    (hr : recordResets r = false) (hm : m.value = .spindle v) :
    (s.applyRecord (r, m)).jig.shadow = { s.jig.shadow with spindle := v } := by
  have given : s.recordValue r m = (some (.spindle v), m.misshapen) := by simp only [State.recordValue, ht, hm, valueType, if_true]
  simp only [State.applyRecord, hr, Bool.false_eq_true, if_false, given, State.updJig, applyValue]

theorem State.applyRecord_resetAll {s : State} {r : EditRecord} (m : EditMeaning) (hr : recordResets r = true) (ht : r.type = 0xFFFF) :
    s.applyRecord (r, m) = s.updJig fun j => { j with shadow := j.cfg, shadowBad := [] } := by
  simp only [State.applyRecord, hr, ht, if_true]

/-! ### The obligation -/

/-- Settles O29: a JIG_LOAD ends with the status of its first failing check or waits, and `Jig.taking` is what its image leaves; the records of
a JIG_EDIT are applied where `State.editFail` finds no fault in any; a live field is taken as `liveTake` says. -/
theorem jigImagesAndEditsTakeEffectWhole : Obligations.JigImagesAndEditsTakeEffectWhole := by
  refine ⟨⟨fun s c img => execJigLoad_of_locked img, fun s c img => execJigLoad_of_stage img, fun s c img ha hl hs hb => ?image,
      fun s c img p hl hd => ?effect, fun s h => ?idle⟩,
    fun s c means ha hb => ?edit, fun s r m v _ ht hr hm => State.applyRecord_spindle ht hr hm,
    fun s r m hr ht => ?reset, fun s v h => ?live⟩
  case image =>
    intro r
    obtain ⟨refused, failed, waits⟩ := execJigLoad_of_image (img := img) ha hl hs hb (rfl : _ = (r.1, r.2.1, r.2.2))
    refine ⟨fun st hi => ⟨_, refused st hi, rfl, rfl, rfl, rfl, rfl⟩, fun k hi hk => ?_, waits⟩
    obtain ⟨off, n, e, ho⟩ := s.noteCheck_some k
    have ends := failed k hi hk
    rw [e] at ends
    exact ⟨_, ends, rfl, rfl, rfl, rfl, rfl, ho, rfl⟩
  case effect =>
    obtain ⟨t, me, e, hj, hz, hk, hr⟩ := execJigLoadEffect_of_due hl hd
    refine ⟨t, e, ?_⟩
    rw [hj]
    refine ⟨rfl, rfl, rfl, rfl, rfl, rfl, ?_, rfl, rfl, rfl, hz, hk, hr⟩
    cases h : img.cfg.live <;> simp only [Jig.taking, h, Option.elim_some, Option.elim_none]
  case idle =>
    change execJigLoadEffect s = _
    unfold execJigLoadEffect
    rw [h]
  case edit =>
    intro recs bad past locked
    have fail : s.editFail recs = firstFail [(bad, .cfgMismatch), (past, .bounds), (locked, .cfgLocked)] := rfl
    clear_value bad past locked
    refine ⟨fun hbad => execJigEdit_of_bad ha hb ?_, fun hbad hpast => execJigEdit_of_bad ha hb ?_,
      fun hbad hpast hlocked => execJigEdit_of_bad ha hb ?_, fun hbad hpast hlocked => ⟨_, execJigEdit_of_good ha hb ?_, s.edited_spec recs⟩⟩
    · rw [fail, hbad]; rfl
    · rw [fail, hbad, hpast]; rfl
    · rw [fail, hbad, hpast, hlocked]; rfl
    · rw [fail, hbad, hpast, hlocked]; rfl
  case reset =>
    rw [State.applyRecord_resetAll m hr ht]
    exact ⟨rfl, rfl⟩
  case live =>
    intro hb hl
    exact ⟨execLiveFieldWrite_host_inRange h, execLiveFieldWrite_host_outOfRange h, execLiveFieldWrite_events v h,
      execLiveFieldWrite_thermal_inRange h, execLiveFieldWrite_thermal_outOfRange h⟩

end Sys2Proof.Machine
end

section
/-! SUPPORT. Bindings: what ENABLE and its end do, and a batch or a stream that reaches its cell (R190, R264 to R267, R271, R289, R292). -/

namespace Sys2Proof.Machine

open Sys2Proof

/-! ### ENABLE (R265, R271) -/

section Enable

variable {s : State} {e : Fin 256}

theorem execAggBindEnable_of_enabled (hl : s.sec.lifecycle ≠ .tampered) (he : (s.bind e.val).enable = true) (v : Word64) :
    execAggBindEnable 0 e v s = .next (s.discarded 0 (bindOffset e.val) v.toNat) := by
  simp [execAggBindEnable, s.ifWritable_of _ hl, he]

theorem execAggBindEnable_of_fail {v : Word64} {st : Status} (hl : s.sec.lifecycle ≠ .tampered) (he : (s.bind e.val).enable = false)
    (hf : s.bindFail e.val ((s.bind e.val).ctl v.toNat) = some st) :
    execAggBindEnable 0 e v s = .next (s.setBind e.val { (s.bind e.val).ctl v.toNat with status := st }) := by
  simp [execAggBindEnable, s.ifWritable_of _ hl, he, hf]

/-- A binding of more than one tile is not resident, so that no tile is placed when it is put into effect (R265). -/
theorem execAggBindEnable_of_good {v : Word64} (hl : s.sec.lifecycle ≠ .tampered) (he : (s.bind e.val).enable = false)
    (hf : s.bindFail e.val ((s.bind e.val).ctl v.toNat) = none)
    (hr : (s.bind e.val).cohortCount ≠ 1 ∨ (s.bind e.val).chunkCount ≠ 1) :
    execAggBindEnable 0 e v s = .next (s.setBind e.val { (s.bind e.val).ctl v.toNat with
      enable := true, status := .ok, busy := false, resident := false, taken := false, streams := 0, delivered := 0, placed := 0,
      copies := [], current := none }) := by
  have hres : (((s.bind e.val).ctl v.toNat).cohortCount == 1 && ((s.bind e.val).ctl v.toNat).chunkCount == 1) = false := by
    simpa [Bind.ctl, ← not_and_or] using hr
  simp only [execAggBindEnable, s.ifWritable_of _ hl, he, hf, hres]
  rfl

theorem execAggBindDisable_of_disabled (he : (s.bind e.val).enable = false) : execAggBindDisable 0 e s = .next s := by
  simp [execAggBindDisable, State.ifWritable, he]

theorem execAggBindDisable_of_armed (hl : s.sec.lifecycle ≠ .tampered) (he : (s.bind e.val).enable = true)
    (hr : (s.round (s.bind e.val).round).state = .armed) :
    execAggBindDisable 0 e s = .next (s.setBind e.val { s.bind e.val with enable := false, placed := 0, resident := false }) := by
  simp [execAggBindDisable, s.ifWritable_of _ hl, he, hr]

theorem execAggBindDisable_of_late (hl : s.sec.lifecycle ≠ .tampered) (he : (s.bind e.val).enable = true)
    (hr : (s.round (s.bind e.val).round).state ≠ .armed) :
    execAggBindDisable 0 e s = .next (s.discarded 0 (bindOffset e.val) 0) := by
  simp [execAggBindDisable, s.ifWritable_of _ hl, he, hr]

end Enable

/-! ### Batches and streams (R264, R267, R289, R292) -/

theorem State.placeTile_of_placed {s : State} {e i : Nat} (h : (s.bind e).placed = i + 1) : s.placeTile e i = (s, none) := by
  simp [State.placeTile, h]

/-- A notice to a cell that does not wait, and whose token has room, raises the token and does nothing else (R211). -/
theorem State.signalToken_of_free {s : State} {c t : Nat} (hw : (s.cell c).waiting = .none) (ht : Tab.look 0 (s.cell c).tokens t < 65535) :
    s.signalToken c t 1 =
      s.setCell c { s.cell c with tokens := Tab.put 0 (s.cell c).tokens t (Tab.look 0 (s.cell c).tokens t + 1) } := by
  simp [State.signalToken, show Tab.look 0 (s.cell c).tokens t + 1 ≤ 65535 by omega, hw]

@[simp] theorem State.cell_setBind (s : State) (e c : Nat) (b : Bind) : (s.setBind e b).cell c = s.cell c := rfl
@[simp] theorem State.cell_setRound (s : State) (h c : Nat) (r : Round) : (s.setRound h r).cell c = s.cell c := rfl
@[simp] theorem State.bind_setCell (s : State) (c e : Nat) (x : Cell) : (s.setCell c x).bind e = s.bind e := rfl
@[simp] theorem State.bind_setRound (s : State) (h e : Nat) (r : Round) : (s.setRound h r).bind e = s.bind e := rfl
@[simp] theorem State.round_setCell (s : State) (c h : Nat) (x : Cell) : (s.setCell c x).round h = s.round h := rfl
@[simp] theorem State.round_setBind (s : State) (e h : Nat) (b : Bind) : (s.setBind e b).round h = s.round h := rfl
@[simp] theorem State.rounds_setBind (s : State) (e : Nat) (b : Bind) : (s.setBind e b).agg.rounds = s.agg.rounds := rfl

/-- The descriptors of a batch are written to the cell's descriptor block, unless the round has sealed it (R190, R264). -/
def Cell.takeBatch (y : Cell) (b : Bind) (ds : List (List Byte)) : Cell :=
  if y.sealedRange (b.desc * 64) ds.flatten.length none then y else y.write (b.desc * 64) ds.flatten

@[simp] theorem Cell.takeBatch_waiting (y : Cell) (b : Bind) (ds : List (List Byte)) : (y.takeBatch b ds).waiting = y.waiting := by
  unfold Cell.takeBatch; split <;> rfl
@[simp] theorem Cell.takeBatch_tokens (y : Cell) (b : Bind) (ds : List (List Byte)) : (y.takeBatch b ds).tokens = y.tokens := by
  unfold Cell.takeBatch; split <;> rfl

/-- The descriptors of a batch of a binding (R264). -/
def State.batchDescs (s : State) (b : Bind) (x : Bin) : List (List Byte) :=
  (List.range ((s.round b.round).binBytes / 2 ^ 20)).map (batchDescBytes (s.round b.round) b (s.rank b.cell) b.round x.idx)

/-- The batch `x` of binding `e` has left the round's list for the binding and its cell, which has no notice of it yet (R264). -/
def State.handBatch (s : State) (e : Nat) (x : Bin) : State :=
  let b := s.bind e
  let r := s.round b.round
  ((s.setBind e { b with busy := true, taken := false, copies := (s.batchDescs b x).map parseDesc, current := some x }).setRound b.round
    { r with batches := r.batches.erase x, batchCount := wrapAdd 24 r.batchCount 1 }).setCell b.cell
    ((s.cell b.cell).takeBatch b (s.batchDescs b x))

theorem execBatchDispatch_of_placed {s : State} {e : Fin 256} {x : Bin} (he : (s.bind e.val).enable = true)
    (hb : (s.bind e.val).busy = false) (hx : s.nextBatch e.val = some x) :
    let r := s.round (s.bind e.val).round
    let i := r.tileIndex s.jig.me x.cohort x.chunk
    s.mayIssue r.tenant .dma (s.bind e.val).engine = true → s.tileBudget e.val i = true → (s.bind e.val).placed = i + 1 →
    execBatchDispatch e s = .next ((s.handBatch e.val x).signalToken (s.bind e.val).cell (s.bind e.val).token 1) := by
  intro r i hm ht hp
  have ready : (s.mayIssue r.tenant .dma (s.bind e.val).engine && s.tileBudget e.val i) = true := by rw [hm, ht]; rfl
  simp only [execBatchDispatch, he, hb, Bool.not_false, Bool.and_self, if_true, hx]
  rw [if_pos ready, State.placeTile_of_placed hp]
  rfl

/-- Elements `l` of a binding's next stream are bound to its cell, which has no notice of them yet (R289, R292). -/
def State.handStream (s : State) (e : Nat) (l : List Nat) : State :=
  let b := s.bind e
  (s.setBind e { b with busy := true, taken := false, delivered := wrapAdd 32 b.delivered 1 }).setCell b.cell
    { s.cell b.cell with streams := Tab.put none (s.cell b.cell).streams 0 (some { elements := l }) }

theorem execStreamDelivery_of_placed {s : State} {e : Fin 256} {c j n : Nat} {st : MaskStream} {l : List Nat}
    (he : (s.bind e.val).enable = true) (hb : (s.bind e.val).busy = false) (hx : s.nextBatch e.val = none) :
    let r := s.round (s.bind e.val).round
    r.state = .unmasking → r.unmaskArmed = true → s.mayIssue r.tenant .dma (s.bind e.val).engine = true →
    nthStream r ((s.bind e.val).tiles r) (s.bind e.val).delivered = some (c, j, n) → (r.streamList c)[n]? = some st →
    s.streamChunk r c j st = some l → (s.bind e.val).placed = r.tileIndex s.jig.me c j + 1 →
    s.tileBudget e.val (r.tileIndex s.jig.me c j) = true →
    execStreamDelivery e s = .next ((s.handStream e.val l).signalToken (s.bind e.val).cell (s.bind e.val).token 1) := by
  intro r hs ha hm hn hst hl hp ht
  have bound : ((r.streamList c)[n]?).bind (s.streamChunk r c j) = some l := by rw [hst]; exact hl
  simp only [r] at hs ha hm hn bound hp ht
  simp only [execStreamDelivery, he, hb, hx]
  rw [if_neg (by simp [hs, ha, hm])]
  simp only [hn, bound, ht, State.placeTile_of_placed hp]
  rfl

/-! ### Sealed blocks of a round that has ended (R190) -/

/-- What a cell's clear of its sealed blocks leaves: the round's blocks read zero and are no longer sealed, the others stand. -/
theorem Cell.unsealed_spec (x : Cell) (h : Nat) :
    (∀ y ∈ (x.unsealed h).seals, y.2 ≠ h + 1) ∧
    ∀ a, Tab.look 0 (x.unsealed h).sram a = if Tab.look 0 x.seals (a / 4096) = h + 1 then 0 else Tab.look 0 x.sram a := by
  refine ⟨fun y hy => by simpa using (List.mem_filter.1 hy).2, fun a => ?_⟩
  rw [show (x.unsealed h).sram = x.sram.filter (fun c => !(Tab.look 0 x.seals (c.1 / 4096) == h + 1)) from rfl,
    Tab.look_filter (0 : Byte) x.sram (fun k => !(Tab.look 0 x.seals (k / 4096) == h + 1)) a]
  simp only [Bool.not_eq_true', beq_eq_false_iff_ne, ne_eq, ite_not]

theorem execSealedClear_of_free {s : State} {c : CellId} {h : Handle} (hc : c.val ∈ (s.round h.val).sealedCells)
    (hg : s.cellGroup c.val = 255) (z : s.frozen = false) :
    let l := (s.round h.val).sealedCells.filter (fun d => d != c.val)
    execSealedClear c h s = .next ((s.setCell c.val ((s.cell c.val).unsealed h.val)).setRound h.val { s.round h.val with
      sealedCells := l, clearedAt := if l.isEmpty then some s.pos else none }) := by
  simp [execSealedClear, hc, hg, z]

end Sys2Proof.Machine
end

section
/-! SUPPORT. The gate pass, the comparison of twins and the announcement of SUMMED (R43, R269, R294 to R296). -/

namespace Sys2Proof.Machine

open Sys2Proof

/-! ### What frames, reports and totals leave alone -/

/-- State `s`, reached from `s₀`, has kept its rounds and bindings, its page tables and its host interface. -/
structure GateKeeps (s₀ s : State) : Prop where
  agg : s.agg = s₀.agg
  mem : s.mem = s₀.mem
  hif : s.hif = s₀.hif

section GateKeeps

variable {s₀ s : State}

theorem GateKeeps.refl (s : State) : GateKeeps s s := ⟨rfl, rfl, rfl⟩

theorem GateKeeps.round (hk : GateKeeps s₀ s) (h : Nat) : s.round h = s₀.round h := by
  simp only [State.round, hk.agg]

theorem GateKeeps.upd (hk : GateKeeps s₀ s) {waiting slot0 spn cells ram fab out} :
    GateKeeps s₀ { s with waiting := waiting, slot0 := slot0, spn := spn, cells := cells, ram := ram, fab := fab, out := out } :=
  ⟨hk.agg, hk.mem, hk.hif⟩

theorem GateKeeps.ite {c : Prop} {_ : Decidable c} {t : State} (hk : GateKeeps s₀ s) (ht : GateKeeps s₀ t) :
    GateKeeps s₀ (if c then s else t) := by
  split
  · exact hk
  · exact ht

theorem GateKeeps.each (hk : GateKeeps s₀ s) {α : Type} {l : List α} {f : State → α → State}
    (hf : ∀ u a, GateKeeps s₀ u → GateKeeps s₀ (f u a)) : GateKeeps s₀ (s.each l f) :=
  State.each_induct s (GateKeeps s₀) f l (fun u a _ => hf u a) hk

theorem GateKeeps.numberFrame (hk : GateKeeps s₀ s) {p kind owner route dst len : Nat} :
    GateKeeps s₀ (s.numberFrame p kind owner route dst len) := .ite hk.upd hk

theorem GateKeeps.launch (hk : GateKeeps s₀ s) {f : PortFrame} : GateKeeps s₀ (s.launch f) :=
  (GateKeeps.numberFrame (.upd (.ite hk.upd hk))).upd

theorem GateKeeps.sendFrame (hk : GateKeeps s₀ s) {f : PortFrame} : GateKeeps s₀ (s.sendFrame f) :=
  .ite hk (.ite hk.upd (.ite hk.launch hk.upd))

theorem GateKeeps.sendTo (hk : GateKeeps s₀ s) {owner member n : Nat} {o : Nat → Out} : GateKeeps s₀ (s.sendTo owner member n o) := by
  unfold State.sendTo
  split
  · exact hk.sendFrame
  · exact hk

theorem GateKeeps.sendData (hk : GateKeeps s₀ s) {owner member : Nat} {bs : List Byte} {o : Nat → List Byte → Bool → Out} :
    GateKeeps s₀ (s.sendData owner member bs o) := hk.each fun _ _ hu => hu.sendTo

theorem GateKeeps.sendDevice (hk : GateKeeps s₀ s) {m : DeviceMsg} : GateKeeps s₀ (s.sendDevice m) := .ite hk.upd hk.upd

/-- A total goes to a cell, to device memory or to the host. -/
theorem GateKeeps.writeTotal (hk : GateKeeps s₀ s) {h : Nat} {x : Nat × List Nat} : GateKeeps s₀ (s.writeTotal h x) := by
  unfold State.writeTotal
  dsimp only
  split
  · exact hk
  split
  · exact hk.upd
  · rw [State.writeVA_frame]
    exact hk.upd

end GateKeeps

/-- A member's report touches the reports of its round, where it is the coordinator, and nothing else that `GateKeeps` names. -/
theorem State.reportGate_spec (s : State) (h : Nat) :
    (∃ reports turn, (s.reportGate h).round h = { s.round h with reports := reports, reportTurn := turn }) ∧
    (s.reportGate h).mem = s.mem ∧ (s.reportGate h).hif = s.hif := by
  have sent : GateKeeps s (s.sendDevice (.gateReport s.jig.me (Fin.ofNat 64 h) (s.round h).shardStatus)) := (GateKeeps.refl s).sendDevice
  unfold State.reportGate
  dsimp only
  split
  · exact ⟨⟨_, _, by rw [State.updRound_eq, State.round_setRound, sent.round]⟩, sent.mem, sent.hif⟩
  · exact ⟨⟨_, _, sent.round h⟩, sent.mem, sent.hif⟩

/-! ### GATE_PASS (R43, R294, R295) -/

/-- The digests of this member's tiles of round `h`, in the gate's order (R294). -/
def State.gateDigests (s : State) (h : Nat) : List Digest :=
  (List.range (s.round h).sizes.length).flatMap (fun c => ((s.round h).chunksOf s.jig.me c).map (fun j => s.tileDigest h c j))

/-- The totals of this member's chunks of round `h` (R294). -/
def State.gateTotals (s : State) (h : Nat) : List (Nat × List Nat) :=
  ((s.round h).myChunks s.jig.me).map (fun j => (j, s.chunkTotal h j))

/-- This member has no twin that lives to compare its digests with (R43). -/
def State.gateAlone (s : State) (h : Nat) : Bool := (s.round h).r != 2 || (s.twin (s.round h)).isNone

/-- State `s` once the gate has read the tiles of round `h` and written their totals, before it reports or asks its twin (R294, R295). -/
def State.gated (s : State) (h : Nat) : State :=
  ((s.chargeGate h (s.gateDigests h).length).each (s.gateTotals h) (fun s x => s.writeTotal h x)).updRound h fun r => { r with
    gateDone := true, digests := s.gateDigests h, totals := s.gateTotals h, replicaOk := s.gateAlone h,
    unverified := r.unverified || s.gateAlone h }

theorem State.gated_spec (s : State) (h : Nat) :
    (s.gated h).round h = { s.round h with
      gateDone := true, digests := s.gateDigests h, totals := s.gateTotals h, replicaOk := s.gateAlone h,
      unverified := (s.round h).unverified || s.gateAlone h } ∧
    (s.gated h).mem = s.mem ∧ (s.gated h).hif = s.hif := by
  have written : GateKeeps s ((s.chargeGate h (s.gateDigests h).length).each (s.gateTotals h) (fun s x => s.writeTotal h x)) :=
    (GateKeeps.refl s).upd.each fun _ _ hu => hu.writeTotal
  exact ⟨by rw [State.gated, State.updRound_eq, State.round_setRound, written.round], written.mem, written.hif⟩

section GatePass

variable {s : State} {h : Handle} (hs : (s.round h.val).state = .unmasking) (hd : (s.round h.val).gateDone = false) (z : s.frozen = false)
  (hc : (s.round h.val).cohortsDone = true)

include hs hd z hc

theorem execGatePass_of_failed (hf : (s.round h.val).shardStatus ≠ .ok) : execGatePass h s =
    .next ((s.updRound h.val fun r => { r with gateDone := true, replicaOk := true }).reportGate h.val) := by
  simp [execGatePass, hs, hd, z, hc, hf]

/-- Where the bindings have delivered, the gate leaves its digests and totals, and reports alone or sends its digests to its twin. -/
theorem execGatePass_of_delivered (ho : (s.round h.val).shardStatus = .ok) (hb : s.bindsDone h.val = true) (hg : s.gateSlot h.val = true)
    (hr : (s.round h.val).robust = false) :
    execGatePass h s = .next ((s.gated h.val).reportGate h.val) ∨
    ∃ k bs o, execGatePass h s = .next ((s.gated h.val).sendData (s.round h.val).tenant k bs o) := by
  have own (l : List (Nat × List Nat)) : s.robustTotals h.val l = l := by simp [State.robustTotals, hr]
  rw [execGatePass, if_neg (by simp [hs, hd, z, hc]), if_neg (by simp [ho]), if_neg (by simp [hb, hg])]
  simp only [own]
  split
  · exact .inl rfl
  · exact .inr ⟨_, _, _, rfl⟩

end GatePass

/-- Alone or with a twin, the round holds the digests and totals that the gate has taken. -/
theorem execGatePass_spec {s : State} {h : Handle} (hs : (s.round h.val).state = .unmasking) (hd : (s.round h.val).gateDone = false)
    (z : s.frozen = false) (hc : (s.round h.val).cohortsDone = true) (ho : (s.round h.val).shardStatus = .ok) (hb : s.bindsDone h.val = true)
    (hg : s.gateSlot h.val = true) (hr : (s.round h.val).robust = false) :
    ∃ u, execGatePass h s = .next u ∧ (u.round h.val).gateDone = true ∧ (u.round h.val).totals = s.gateTotals h.val ∧
      (u.round h.val).digests = s.gateDigests h.val ∧ (u.round h.val).state = .unmasking ∧ u.mem = s.mem ∧ u.hif = s.hif := by
  obtain ⟨round, mem, hif⟩ := s.gated_spec h.val
  rcases execGatePass_of_delivered hs hd z hc ho hb hg hr with e | ⟨k, bs, o, e⟩
  · obtain ⟨⟨reports, turn, reported⟩, rmem, rhif⟩ := (s.gated h.val).reportGate_spec h.val
    refine ⟨_, e, ?_⟩
    rw [reported, round, rmem, rhif, mem, hif]
    exact ⟨rfl, rfl, rfl, hs, rfl, rfl⟩
  · have sent : GateKeeps (s.gated h.val) ((s.gated h.val).sendData (s.round h.val).tenant k bs o) := (GateKeeps.refl _).sendData
    refine ⟨_, e, ?_⟩
    rw [sent.round, round, sent.mem, sent.hif, mem, hif]
    exact ⟨rfl, rfl, rfl, hs, rfl, rfl⟩

/-! ### Twins and SUMMED (R43, R295, R296) -/

section Compare

variable {s : State} {h : Handle} (hs : (s.round h.val).state = .unmasking) (hd : (s.round h.val).gateDone = true)
  (hn : (s.round h.val).replicaOk = false) (ho : (s.round h.val).shardStatus = .ok)

include hs hd hn ho

theorem execReplicaCompare_of_equal : execReplicaCompare h (s.round h.val).digests s =
    .next ((s.updRound h.val fun r => { r with replicaOk := true }).reportGate h.val) := by
  simp [execReplicaCompare, hs, hd, hn, ho]

theorem execReplicaCompare_of_different {l : List Digest} (hl : l ≠ (s.round h.val).digests) : execReplicaCompare h l s =
    .next ((s.updRound h.val fun r => { r with shardStatus := .replicaMismatch }).reportGate h.val) := by
  simp [execReplicaCompare, State.shardFail, hs, hd, hn, ho, hl]

end Compare

theorem execSummedAnnounce_of_reported {s : State} {h : Handle} (hs : (s.round h.val).state = .unmasking) (hd : s.decides = true)
    (ha : (s.round h.val).announced = false) (hc : (s.round h.val).change = none) (h0 : s.slotOf s.pos = 0)
    (ht : (s.round h.val).reportTurn < s.turn) (z : s.frozen = false)
    (hr : ∀ m, m < max s.bigE 1 → s.takesPart (s.round h.val) m = true → ∃ st, (m, st) ∈ (s.round h.val).reports) :
    execSummedAnnounce h s = .next ((s.updRound h.val fun r => { r with
      announced := true, change := some (s.boundaryAfter s.pos, .summed) }).emit (.device (.summed h))) := by
  have all : ((List.range (max s.bigE 1)).all fun m =>
      !s.takesPart (s.round h.val) m || (s.round h.val).reports.any (fun x => x.1 == m)) = true := by
    refine List.all_eq_true.2 fun m hm => ?_
    cases hp : s.takesPart (s.round h.val) m with
    | false => rfl
    | true =>
      obtain ⟨st, hst⟩ := hr m (List.mem_range.1 hm) hp
      exact List.any_eq_true.2 ⟨_, hst, beq_self_eq_true m⟩
  rw [execSummedAnnounce, if_pos (by simp [hs, hd, all, ha, h0, ht, z])]
  simp only [State.updRound_eq, hc]
  exact congrArg Host.Outcome.next (State.sendDevice_of_slot0 (s := s.setRound h.val _) h0 _)

end Sys2Proof.Machine
end

section
/-! The obligation on bindings and the gate. -/

namespace Sys2Proof.Machine

open Sys2Proof

/-- Settles O43: each row is its one guarded effect; a batch and a stream are handed to the cell before its token is raised, and what the gate
writes and sends leaves the rounds alone. -/
theorem bindingsDispatchDeliverAndTheGateAnnounces : Obligations.BindingsDispatchDeliverAndTheGateAnnounces := by
  refine ⟨⟨fun s e v hl => ⟨fun he =>
        ⟨execAggBindEnable_of_enabled hl he v, execAggBindDisable_of_armed hl he, execAggBindDisable_of_late hl he⟩,
      fun he => ⟨execAggBindDisable_of_disabled he, fun _ => execAggBindEnable_of_fail hl he, execAggBindEnable_of_good hl he⟩⟩,
    ?batch, ?stream, ?sealed⟩,
    fun s h hs hd z hc => ⟨execGatePass_of_failed hs hd z hc, fun ho hb hg hr => execGatePass_spec hs hd z hc ho hb hg hr⟩,
    fun s h l hs hd hn ho => ⟨?equal, execReplicaCompare_of_different hs hd hn ho⟩,
    fun s h hs hd ha hc h0 ht z hr => execSummedAnnounce_of_reported hs hd ha hc h0 ht z hr⟩
  case equal =>
    rintro rfl
    exact execReplicaCompare_of_equal hs hd hn ho
  case batch =>
    intro s e x he hb hx r i hm ht hp hw hk
    refine ⟨_, execBatchDispatch_of_placed he hb hx hm ht hp, ?_⟩
    rw [State.signalToken_of_free (by simpa [State.handBatch] using hw) (by simpa [State.handBatch] using hk)]
    simp [State.handBatch, State.batchDescs, wrapAdd, r]
  case stream =>
    intro s e c j n st l he hb r hs ha hx hm hn hst hl hp ht hw hk
    refine ⟨_, execStreamDelivery_of_placed he hb hx hs ha hm hn hst hl hp ht, ?_⟩
    rw [State.signalToken_of_free (by simpa [State.handStream] using hw) (by simpa [State.handStream] using hk)]
    simp [State.handStream, wrapAdd]
  case sealed =>
    intro s c h hc hg z
    obtain ⟨hseals, hsram⟩ := (s.cell c.val).unsealed_spec h.val
    refine ⟨_, execSealedClear_of_free hc hg z, ?_⟩
    simp only [State.cell_setRound, State.cell_setCell]
    refine ⟨hseals, fun a ha => by rw [hsram, if_pos ha], fun a ha => by rw [hsram, if_neg ha], by simp, fun k hk => ?_, rfl, rfl⟩
    exact s.cell_setCell_other c.val k _ hk

end Sys2Proof.Machine
end

section
/-! SUPPORT. Accumulator planes and their modular sums (R128, R136, R138, R154, R156), and the events of an FX64 term (R169, R173 to R176). -/

namespace Sys2Proof.Machine

open Sys2Proof

/-! ### A plane of the accumulator file, PE by PE (R138) -/

/-- Values of a whole register, or of a half one (R138). -/
def accSize (whole : Bool) : Nat := if whole then 18446744073709551616 else 4294967296

theorem Cell.accGet_accSet_same (x : Cell) (w : Bool) (h p v : Nat) : (x.accSet w h p v).accGet w h p = v % accSize w := by
  cases w with
  | false => exact x.accGet_accSet_half h p v
  | true => exact x.accGet_accSet_whole h p v

/-- The other half of a PE's register is left alone (R138). -/
theorem Cell.accGet_accSet_otherHalf (x : Cell) {h j : Nat} (p v : Nat) (hj : j / 2 = h / 2) (hne : j ≠ h) :
    (x.accSet false h p v).accGet false j p = x.accGet false j p := by
  simp only [Cell.accGet, Cell.accSet, hj, Tab.look_put_same, bits]
  have hw : (Tab.look 0 x.acc (1024 * (h / 2) + p)).toNat < 2 ^ 64 := (Tab.look 0 x.acc (1024 * (h / 2) + p)).isLt
  generalize (Tab.look 0 x.acc (1024 * (h / 2) + p)).toNat = w at hw
  rcases Nat.mod_two_eq_zero_or_one h with e | e
  · have ej : j % 2 = 1 := by omega
    simp [e, ej]
    omega
  · have ej : j % 2 = 0 := by omega
    simp [e, ej]

/-- A change of a plane changes the accumulator file and nothing else of the cell. -/
theorem Cell.mapPlane_frame (x : Cell) (w : Bool) (h : Nat) (f : Nat → Nat → Nat) : ∃ acc, x.mapPlane w h f = { x with acc := acc } := by
  unfold Cell.mapPlane
  generalize List.range 1024 = l
  induction l generalizing x with
  | nil => exact ⟨_, rfl⟩
  | cons p l ih => exact ih (x.accSet w h p (f p (x.accGet w h p)))

/-- A reading that no write to the plane touches is the same after the plane's change. -/
theorem Cell.accGet_mapPlane_keeps {x : Cell} {w w' : Bool} {h j p : Nat} (f : Nat → Nat → Nat)
    (keeps : ∀ (y : Cell) (q v : Nat), q < 1024 → (y.accSet w h q v).accGet w' j p = y.accGet w' j p) :
    (x.mapPlane w h f).accGet w' j p = x.accGet w' j p := by
  have steps : ∀ (l : List Nat) (y : Cell), (∀ q ∈ l, q < 1024) →
      (l.foldl (fun y q => y.accSet w h q (f q (y.accGet w h q))) y).accGet w' j p = y.accGet w' j p := by
    intro l
    induction l with
    | nil => exact fun y _ => rfl
    | cons q l ih =>
      intro y hq
      obtain ⟨h1, hl⟩ := List.forall_mem_cons.1 hq
      rw [List.foldl_cons, ih _ hl, keeps y q _ h1]
  exact steps _ x fun q hq => List.mem_range.1 hq

theorem Cell.accGet_mapPlane_other (x : Cell) {w w' : Bool} {h j p : Nat} (f : Nat → Nat → Nat) (hp : p < 1024) (hne : j / 2 ≠ h / 2) :
    (x.mapPlane w h f).accGet w' j p = x.accGet w' j p :=
  Cell.accGet_mapPlane_keeps f fun y q v hq => y.accGet_accSet_other w w' h j q p v hq hp (.inl (Ne.symm hne))

theorem Cell.accGet_mapPlane_otherHalf (x : Cell) {h j p : Nat} (f : Nat → Nat → Nat) (hp : p < 1024) (hj : j / 2 = h / 2) (hne : j ≠ h) :
    (x.mapPlane false h f).accGet false j p = x.accGet false j p := by
  refine Cell.accGet_mapPlane_keeps f fun y q v hq => ?_
  by_cases e : q = p
  · subst e
    exact y.accGet_accSet_otherHalf q v hj hne
  · exact y.accGet_accSet_other false false h j q p v hq hp (.inr e)

/-- Of a plane that is changed each PE's register holds its change of what it held. -/
theorem Cell.accGet_mapPlane_same (x : Cell) (w : Bool) (h : Nat) (f : Nat → Nat → Nat) {p : Nat} (hp : p < 1024) :
    (x.mapPlane w h f).accGet w h p = f p (x.accGet w h p) % accSize w := by
  have upTo : ∀ n ≤ 1024, ((List.range n).foldl (fun y q => y.accSet w h q (f q (y.accGet w h q))) x).accGet w h p =
      if p < n then f p (x.accGet w h p) % accSize w else x.accGet w h p := by
    intro n
    induction n with
    | zero => exact fun _ => rfl
    | succ n ih =>
      intro hn
      rw [List.range_succ, List.foldl_append, List.foldl_cons, List.foldl_nil]
      by_cases e : p = n
      · subst e
        rw [Cell.accGet_accSet_same, ih (by omega), if_neg (Nat.lt_irrefl p), if_pos (Nat.lt_succ_self p)]
      · rw [Cell.accGet_accSet_other _ _ _ _ _ _ _ _ (by omega) hp (.inr (Ne.symm e)), ih (by omega)]
        simp only [show p < n + 1 ↔ p < n by omega]
  exact (upTo 1024 le_rfl).trans (if_pos hp)

/-! ### Counters of a cell (R153) -/

theorem satAdd_sixteen_eq_min (a n : Nat) : satAdd 16 a n = min 65535 (a + n) := by
  unfold satAdd
  split <;> omega

theorem Cell.countArith_frame (x : Cell) (f n : Nat) : ∃ arith, x.countArith f n = { x with arith := arith } := by
  unfold Cell.countArith
  split
  · exact ⟨_, rfl⟩
  · exact ⟨_, rfl⟩

/-! ### Modular sums (R128, R136, R154, R156) -/

section AddModular

variable (x : Cell) (gi tile slot terms : Nat) (add : Nat → Int)

/-- A modular sum is a change of its slot's plane, but for a counter and the group's count of terms. -/
theorem Cell.addModular_eq : ∃ arith, let g := x.group gi
    x.addModular gi tile slot terms add =
      (({ x with arith := arith } : Cell).mapPlane g.whole (g.half tile slot) fun p v =>
        (((residue (x.groupModulus g) g.format v : Int) + add p) % (x.groupModulus g : Int)).toNat).setGroup gi
        { g with terms := Tab.put 0 g.terms (16 * tile + slot) (Tab.look 0 g.terms (16 * tile + slot) + terms) } := by
  obtain ⟨arith, ha⟩ := x.countArith_frame arithZqRange (x.planeReplaced (x.group gi) (x.groupModulus (x.group gi)) ((x.group gi).half tile slot))
  exact ⟨arith, by rw [Cell.addModular, ha]⟩

/-- Each PE's register of the slot holds its residue plus the amount, modulo the group's modulus, which the register can hold. -/
theorem Cell.accGet_addModular_same {p : Nat} (hp : p < 1024) : let g := x.group gi
    0 < x.groupModulus g → x.groupModulus g ≤ accSize g.whole →
    ((x.addModular gi tile slot terms add).accGet g.whole (g.half tile slot) p : Int) =
      ((residue (x.groupModulus g) g.format (x.accGet g.whole (g.half tile slot) p) : Int) + add p) % x.groupModulus g := by
  intro g hm hsize
  obtain ⟨arith, ha⟩ := x.addModular_eq gi tile slot terms add
  rw [ha, Cell.accGet_setGroup, Cell.accGet_mapPlane_same _ _ _ _ hp]
  have hm' : (0 : Int) < x.groupModulus g := by exact_mod_cast hm
  have low := Int.emod_nonneg ((residue (x.groupModulus g) g.format (x.accGet g.whole (g.half tile slot) p) : Int) + add p) hm'.ne'
  have high := Int.emod_lt_of_pos ((residue (x.groupModulus g) g.format (x.accGet g.whole (g.half tile slot) p) : Int) + add p) hm'
  rw [Nat.mod_eq_of_lt (by have := (Int.toNat_lt low).2 high; exact lt_of_lt_of_le this hsize)]
  exact Int.toNat_of_nonneg low

theorem Cell.accGet_addModular_other {w : Bool} {j p : Nat} (hp : p < 1024) (hne : j / 2 ≠ (x.group gi).half tile slot / 2) :
    (x.addModular gi tile slot terms add).accGet w j p = x.accGet w j p := by
  obtain ⟨arith, ha⟩ := x.addModular_eq gi tile slot terms add
  rw [ha, Cell.accGet_setGroup, Cell.accGet_mapPlane_other _ _ hp hne]
  rfl

theorem Cell.accGet_addModular_otherHalf {j p : Nat} (hw : (x.group gi).whole = false) (hp : p < 1024)
    (hj : j / 2 = (x.group gi).half tile slot / 2) (hne : j ≠ (x.group gi).half tile slot) :
    (x.addModular gi tile slot terms add).accGet false j p = x.accGet false j p := by
  obtain ⟨arith, ha⟩ := x.addModular_eq gi tile slot terms add
  rw [ha, Cell.accGet_setGroup, hw, Cell.accGet_mapPlane_otherHalf _ _ hp hj hne]
  rfl

/-- The slot counts its terms, and SRAM is as before. -/
theorem Cell.addModular_counts :
    Tab.look 0 ((x.addModular gi tile slot terms add).group gi).terms (16 * tile + slot) =
      Tab.look 0 (x.group gi).terms (16 * tile + slot) + terms ∧
    (x.addModular gi tile slot terms add).sram = x.sram := by
  obtain ⟨arith, ha⟩ := x.addModular_eq gi tile slot terms add
  obtain ⟨acc, hf⟩ := Cell.mapPlane_frame { x with arith := arith } (x.group gi).whole ((x.group gi).half tile slot) fun p v =>
    (((residue (x.groupModulus (x.group gi)) (x.group gi).format v : Int) + add p) % (x.groupModulus (x.group gi) : Int)).toNat
  rw [ha, hf]
  exact ⟨by simp, rfl⟩

end AddModular

/-! ### One term of an FX64 output (R169, R173 to R176) -/

theorem fxFits_iff (v : Int) : fxFits v = true ↔ -9223372036854775808 ≤ v ∧ v < 9223372036854775808 := by
  rw [fxFits, Bool.and_eq_true, decide_eq_true_eq, decide_eq_true_eq, fxLow, fxHigh]
  omega

theorem fxClamp_eq (v : Int) : fxClamp v = if v < 0 then -9223372036854775808 else 9223372036854775807 := rfl

/-- Where the sums are no top-k output, no term's position matters to the shift (R179). -/
theorem Cell.fxShift_of_sums (x : Cell) {g : AccGroup} (ht : g.topk = false) (kept kept' : Nat → Nat) : x.fxShift g kept = x.fxShift g kept' := by
  simp only [Cell.fxShift, ht, Bool.false_eq_true, if_false]

section FxTerm

variable {x : Cell} {gi : Nat} (pos n : Nat) {val : Cell → Int → FxOut → Int} {o : FxOut} (ht : (x.group gi).topk = false)

include ht

theorem Cell.fxTerm_of_fits (hv : fxFits (val x (x.group gi).e o) = true) :
    Cell.fxTerm gi pos val (n + 1) [o] x = (x.fxSet o (val x (x.group gi).e o), false) := by
  simp [Cell.fxTerm, hv, Cell.fxPlace, ht]

theorem Cell.fxTerm_of_saturated (hv : fxFits (val x (x.group gi).e o) = false) (hs : (x.group gi).saturated = true) :
    Cell.fxTerm gi pos val (n + 1) [o] x = (x.fxSet o (fxClamp (val x (x.group gi).e o)), false) := by
  simp [Cell.fxTerm, hv, hs, Cell.fxPlace, ht]

omit ht in
/-- The group starts again from zero at E plus 8 (R174). -/
theorem Cell.fxTerm_of_repeat (hv : fxFits (val x (x.group gi).e o) = false) (hs : (x.group gi).saturated = false)
    (hw : (x.group gi).windowOpen = true) (hr : (x.group gi).repeats < 3) (he : (x.group gi).e + 8 ≤ 511) :
    Cell.fxTerm gi pos val (n + 1) [o] x = ((x.zeroGroup (x.group gi)).setGroup gi { x.group gi with
      e := (x.group gi).e + 8, repeats := (x.group gi).repeats + 1, terms := [], operandBytes := 0 }, true) := by
  simp [Cell.fxTerm, hv, hs, hw, hr, he]

/-- The group is saturated, and the term is tried again: its sum is clamped where it still leaves the range (R175). -/
theorem Cell.fxTerm_of_exhausted {v : Int} (hval : ∀ y e, val y e o = v) (hv : fxFits v = false) (hs : (x.group gi).saturated = false)
    (hx : (x.group gi).windowOpen = true ∧ 3 ≤ (x.group gi).repeats ∨ 511 < (x.group gi).e + 8) :
    Cell.fxTerm gi pos val (n + 2) [o] x = ((x.setGroup gi { x.group gi with saturated := true }).fxSet o (fxClamp v), false) := by
  have norepeat : ((x.group gi).windowOpen && decide ((x.group gi).repeats < 3) && decide ((x.group gi).e + 8 ≤ 511)) = false := by
    rcases hx with ⟨-, hr⟩ | he
    · simp [Nat.not_lt.2 hr]
    · simp [Int.not_le.2 he]
  have noshift : ((x.group gi).windowOpen || decide (511 < (x.group gi).e + 8)) = true := by
    rcases hx with ⟨hw, -⟩ | he
    · simp [hw]
    · simp [he]
  have again := Cell.fxTerm_of_saturated (x := x.setGroup gi { x.group gi with saturated := true }) (gi := gi) (val := val) (o := o) pos n
    (by simpa using ht) (by rw [hval]; exact hv) (by simp)
  rw [hval] at again
  rw [← again, Cell.fxTerm]
  simp [hval, hv, hs, norepeat, noshift]

/-- Every sum is shifted right by 8, E rises by 8, and the term is tried again (R173, R176). -/
theorem Cell.fxTerm_of_shift (hv : fxFits (val x (x.group gi).e o) = false) (hs : (x.group gi).saturated = false)
    (hw : (x.group gi).windowOpen = false) (he : (x.group gi).e + 8 ≤ 511) :
    Cell.fxTerm gi pos val (n + 1) [o] x = Cell.fxTerm gi pos val n [o] ((x.fxShift (x.group gi) fun _ => 0).setGroup gi { x.group gi with
      e := (x.group gi).e + 8, inplace := satAdd 8 (x.group gi).inplace 1 }) := by
  rw [Cell.fxTerm]
  simp [hv, hs, hw, Int.not_lt.2 he, x.fxShift_of_sums ht _ fun _ => 0]

end FxTerm

end Sys2Proof.Machine
end

section
/-! SUPPORT. What an instruction meets besides: corrected errors, and writes of other ports in the same work cycle (R140, R142, R144, R153). -/

namespace Sys2Proof.Machine

open Sys2Proof

/-! ### Counts (R153) -/

/-- A count of 16 bits after `n` more events: it stays at its largest value. -/
def counted16 (a n : Nat) : Nat := if n = 0 then a else min 65535 (a + n)

theorem Cell.countErr_frame (x : Cell) (f n : Nat) : ∃ err, x.countErr f n = { x with err := err } := by
  unfold Cell.countErr
  split
  · exact ⟨_, rfl⟩
  · exact ⟨_, rfl⟩

/-- The counts of corrected SRAM and accumulator errors have 16 bits. -/
theorem Cell.err_countErr (x : Cell) {f : Nat} (hf : f ≤ 1) (n j : Nat) :
    Tab.look 0 (x.countErr f n).err j = if j = f then counted16 (Tab.look 0 x.err f) n else Tab.look 0 x.err j := by
  have bits16 : (if f ≤ errAccCe then 16 else 8) = 16 := if_pos hf
  unfold Cell.countErr counted16
  by_cases hn : n = 0
  · simp only [hn, if_true]
    exact (ite_eq_right_iff.2 fun e => by rw [e]).symm
  · simp only [hn, if_false, bits16, satAdd_sixteen_eq_min, Tab.look_put]

theorem Cell.arith_countArith (x : Cell) (f n j : Nat) :
    Tab.look 0 (x.countArith f n).arith j = if j = f then counted16 (Tab.look 0 x.arith f) n else Tab.look 0 x.arith j := by
  unfold Cell.countArith counted16
  by_cases hn : n = 0
  · simp only [hn, if_true]
    exact (ite_eq_right_iff.2 fun e => by rw [e]).symm
  · simp only [hn, if_false, satAdd_sixteen_eq_min, Tab.look_put]

/-! ### Writes that meet (R142) -/

/-- Word `w` of cell `y`, written to cell `x`, stands there and changes no other byte. -/
theorem Cell.write_word_look (x y : Cell) (w : Nat) {k : Nat} (hk : k < 4194304) :
    Tab.look 0 (x.write (8 * w % sramBytes) (y.read (8 * w) 8)).sram k =
      if w % 524288 = k / 8 then Tab.look 0 y.sram k else Tab.look 0 x.sram k := by
  have size : sramBytes = 4194304 := rfl
  have len : (y.read (8 * w) 8).length = 8 := by simp [Cell.read]
  have start : 8 * w % sramBytes < sramBytes := Nat.mod_lt _ (by decide)
  split
  · have place : (8 * w % sramBytes + k % 8) % sramBytes = k := by rw [size]; omega
    have source : (8 * w + k % 8) % sramBytes = k := by rw [size]; omega
    have byte : (y.read (8 * w) 8).getD (k % 8) 0 = Tab.look 0 y.sram k := by
      simp [Cell.read, List.getElem?_range (Nat.mod_lt k (show 0 < 8 by decide)), source]
    have back := Cell.write_look x _ (k % 8) (y.read (8 * w) 8) start (by omega) (by omega)
    rwa [place, byte] at back
  · exact Cell.write_look_other x _ _ _ start (by omega) fun i hi => by rw [size]; omega

/-- Words of cell `y`, one after another, written to cell `x`. -/
theorem Cell.write_words_look (y : Cell) (l : List Nat) (x : Cell) {k : Nat} (hk : k < 4194304) :
    Tab.look 0 (l.foldl (fun x w => x.write (8 * w % sramBytes) (y.read (8 * w) 8)) x).sram k =
      if (l.any fun w => w % 524288 == k / 8) then Tab.look 0 y.sram k else Tab.look 0 x.sram k := by
  induction l generalizing x with
  | nil => rfl
  | cons w l ih =>
    rw [List.foldl_cons, ih, List.any_cons, Cell.write_word_look x y w hk]
    by_cases hw : w % 524288 = k / 8
    · simp [hw]
    · simp [hw]

theorem Cell.write_words_frame (y : Cell) (l : List Nat) (x : Cell) : ∃ sram,
    l.foldl (fun x w => x.write (8 * w % sramBytes) (y.read (8 * w) 8)) x = { x with sram := sram } := by
  induction l generalizing x with
  | nil => exact ⟨_, rfl⟩
  | cons w l ih => exact ih (x.write (8 * w % sramBytes) (y.read (8 * w) 8))

/-- Writes of the accumulator port come first, so they lose to none (R142). -/
def lostWrites (port : Nat) (m : Met) : List Nat := if port ≤ 1 then [] else m.lost

/-- What met writes leave: the earlier port's words stand, each discarded write counts, and the rest of the cell is as before. -/
theorem Cell.collide_spec (x before : Cell) (port : Nat) (m : Met) : let u := x.collide before port m
    (u.err = x.err ∧ u.acc = x.acc ∧ u.vregs = x.vregs ∧ u.errAddr = x.errAddr) ∧
    (∀ k, k < 4194304 → Tab.look 0 u.sram k =
      if ((lostWrites port m).any fun w => w % 524288 == k / 8) then Tab.look 0 before.sram k else Tab.look 0 x.sram k) ∧
    ∀ f, Tab.look 0 u.arith f =
      if f = 3 then counted16 (Tab.look 0 x.arith 3) ((lostWrites port m).length + m.beaten) else Tab.look 0 x.arith f := by
  intro u
  obtain ⟨sram, hw⟩ := Cell.write_words_frame before (lostWrites port m) x
  obtain ⟨arith, hc⟩ := Cell.countArith_frame { x with sram := sram } arithCollision ((lostWrites port m).length + m.beaten)
  have eq : u = ({ x with sram := sram } : Cell).countArith arithCollision ((lostWrites port m).length + m.beaten) :=
    congrArg (Cell.countArith · arithCollision _) hw
  refine ⟨?_, fun k hk => ?_, fun f => ?_⟩
  · rw [eq, hc]
    exact ⟨rfl, rfl, rfl, rfl⟩
  · rw [eq, hc, ← Cell.write_words_look before (lostWrites port m) x hk, hw]
  · rw [eq, Cell.arith_countArith]
    rfl

theorem Cell.collide_of_none (x before : Cell) (port : Nat) {m : Met} (hl : m.lost = []) (hb : m.beaten = 0) :
    x.collide before port m = x := by
  simp [Cell.collide, Cell.countArith, hl, hb]

/-! ### What an instruction meets (R140, R142, R144) -/

/-- The corrected errors of what an instruction reads, counted. -/
def Cell.countCorrected (x : Cell) (o : UnitOp) (m : Met) : Cell :=
  (x.countErr errSramCe (if o.sram then m.sramCe else 0)).countErr errAccCe (if o.acc then m.accCe else 0)

theorem Cell.countCorrected_spec (x : Cell) (o : UnitOp) (m : Met) : let u := x.countCorrected o m
    (u.arith = x.arith ∧ u.sram = x.sram ∧ u.acc = x.acc ∧ u.vregs = x.vregs ∧ u.errAddr = x.errAddr) ∧
    ∀ f, Tab.look 0 u.err f =
      if f = 1 then counted16 (Tab.look 0 x.err 1) (if o.acc then m.accCe else 0)
      else if f = 0 then counted16 (Tab.look 0 x.err 0) (if o.sram then m.sramCe else 0) else Tab.look 0 x.err f := by
  intro u
  obtain ⟨err, hs⟩ := x.countErr_frame errSramCe (if o.sram then m.sramCe else 0)
  obtain ⟨err', ha⟩ := Cell.countErr_frame { x with err := err } errAccCe (if o.acc then m.accCe else 0)
  have eq : u = { x with err := err' } := (congrArg (Cell.countErr · errAccCe _) hs).trans ha
  refine ⟨by rw [eq]; exact ⟨rfl, rfl, rfl, rfl, rfl⟩, fun f => ?_⟩
  rw [show u = (x.countErr errSramCe _).countErr errAccCe _ from rfl, Cell.err_countErr _ (by decide),
    Cell.err_countErr _ (by decide), Cell.err_countErr _ (by decide)]
  rfl

/-- The cell of an instruction that writes no other cell meets what it meets, and no other cell does. -/
theorem State.cell_settle (s b : State) (c : Nat) {o : UnitOp} (m : Met) (ht : o.target = none) :
    (s.settle b c o m).cell c = ((s.cell c).countCorrected o m).collide (b.cell c) o.port m ∧
    ∀ k, k ≠ c → (s.settle b c o m).cell k = s.cell k := by
  unfold State.settle
  simp only [ht, Option.getD_none, State.updCell_eq, State.cell_setCell]
  split
  · rename_i hm
    simp only [Bool.and_eq_true, List.isEmpty_iff, decide_eq_true_eq] at hm
    obtain ⟨hl, hb⟩ := hm
    refine ⟨?_, fun k hk => s.cell_setCell_other c k _ hk⟩
    rw [State.cell_setCell, Cell.collide_of_none _ _ _ hl hb]
    rfl
  · refine ⟨State.cell_setCell _ c _, fun k hk => ?_⟩
    rw [State.cell_setCell_other _ c k _ hk, State.cell_setCell_other _ c k _ hk]

end Sys2Proof.Machine
end

section
/-! The obligation on sums, writes and what instructions meet. -/

namespace Sys2Proof.Machine

open Sys2Proof

/-- Settles O51: a term's event is one of five, a modular sum changes one plane of the file, and what an instruction meets is counts and whole
words of SRAM. -/
theorem sumsAreModularOrRescaledAndWritesReadBack : Obligations.SumsAreModularOrRescaledAndWritesReadBack := by
  refine ⟨?term, ⟨?sum, ?write⟩, ?met⟩
  case term =>
    intro x gi pos n val o ht g v sat up
    refine ⟨fun hv => Cell.fxTerm_of_fits pos _ ht ((fxFits_iff v).2 hv), fun hv => ?_⟩
    have past : fxFits v = false := by
      rw [← Bool.not_eq_true, fxFits_iff]
      omega
    exact ⟨Cell.fxTerm_of_saturated pos _ ht past, Cell.fxTerm_of_repeat pos _ past,
      fun hs hx hval => Cell.fxTerm_of_exhausted pos n ht hval past hs hx, Cell.fxTerm_of_shift pos _ ht past⟩
  case sum =>
    intro x gi tile slot terms add g m h hm hsize
    exact ⟨fun p hp => x.accGet_addModular_same gi tile slot terms add hp hm hsize,
      fun w j p hp hj => x.accGet_addModular_other gi tile slot terms add hp hj,
      fun hw j p hj hne hp => x.accGet_addModular_otherHalf gi tile slot terms add hw hp hj hne,
      x.addModular_counts gi tile slot terms add⟩
  case write =>
    intro x a bs ha hn
    exact ⟨fun i hi => x.write_look a i bs ha hn hi, fun b hb hout => x.write_look_other a b bs ha hb hout, rfl, rfl, rfl⟩
  case met =>
    intro s b c o m ht x u count lost
    obtain ⟨hc, others⟩ := s.cell_settle b c m ht
    obtain ⟨⟨arith, sram, acc, vregs, errAddr⟩, counts⟩ := x.countCorrected_spec o m
    obtain ⟨⟨uerr, uacc, uvregs, uerrAddr⟩, words, collisions⟩ := (x.countCorrected o m).collide_spec (b.cell c) o.port m
    rw [← hc] at uerr uacc uvregs uerrAddr words collisions
    rw [sram] at words
    rw [arith] at collisions
    have errs (f : Nat) : Tab.look 0 u.err f = _ := (congrArg (Tab.look 0 · f) uerr).trans (counts f)
    exact ⟨errs 0, errs 1, fun f hf => by rw [errs, if_neg (by omega), if_neg (by omega)], collisions 3,
      fun f hf => (collisions f).trans (if_neg hf), words, uacc.trans acc, uvregs.trans vregs, uerrAddr.trans errAddr, others⟩

end Sys2Proof.Machine
end

section
/-! SUPPORT. Control flow of cell programs: where a program goes on, how it waits, signals and halts, and the instructions of the CTL unit (R202,
R203, R211 to R215, R218, R219, R222). -/

namespace Sys2Proof.Machine

-- One declaration at a time, as in the tests, here and in the sections below: the whole text stands near the memory limit when many
-- are elaborated at once.
set_option Elab.async false

open Sys2Proof

/-! ### What counting work and writing cells leave alone -/

section AddWork

variable (x : Cell) (unit cost lat : Nat)

@[simp] theorem Cell.addWork_running : (x.addWork unit cost lat).running = x.running := rfl
@[simp] theorem Cell.addWork_pc : (x.addWork unit cost lat).pc = x.pc := rfl
@[simp] theorem Cell.addWork_tokens : (x.addWork unit cost lat).tokens = x.tokens := rfl
@[simp] theorem Cell.addWork_waiting : (x.addWork unit cost lat).waiting = x.waiting := rfl
@[simp] theorem Cell.addWork_sreg (r : Nat) : (x.addWork unit cost lat).sreg r = x.sreg r := rfl

end AddWork

@[simp] theorem Cell.setSreg_running (x : Cell) (r : Nat) (v : Word64) : (x.setSreg r v).running = x.running := by
  unfold Cell.setSreg; split <;> rfl
@[simp] theorem Cell.setSreg_pc (x : Cell) (r : Nat) (v : Word64) : (x.setSreg r v).pc = x.pc := by
  unfold Cell.setSreg; split <;> rfl

@[simp] theorem State.rank_setCell (s : State) (c k : Nat) (x : Cell) : (s.setCell c x).rank k = s.rank k := rfl
@[simp] theorem State.cellGroup_setCell (s : State) (c k : Nat) (x : Cell) : (s.setCell c x).cellGroup k = s.cellGroup k := rfl
@[simp] theorem State.groupCells_setCell (s : State) (c g : Nat) (x : Cell) : (s.setCell c x).groupCells g = s.groupCells g := rfl
@[simp] theorem State.busyBinds_setCell (s : State) (c k : Nat) (x : Cell) : (s.setCell c x).busyBinds k = s.busyBinds k := rfl

/-! ### Halting (R203, R204) -/

/-- The end of a cell's program changes no cell but its own. -/
theorem State.haltCell_cells (s : State) (c : Nat) (st : Status) : (s.haltCell c st).cells = (s.updCell c fun x => { x with
    running := false, haltedErr := st != .ok, lastStatus := st, waiting := .none, halting := false, loops := [] }).cells := by
  unfold State.haltCell
  refine State.each_keeps _ State.cells _ _ fun u e _ => ?_
  dsimp only
  split <;> rfl

/-- A cell that does not run still does not when the program of a cell ends, whichever cell it is; that cell itself does not run. -/
theorem State.haltCell_stopped (s : State) {c d : Nat} (st : Status) (h : d = c ∨ (s.cell d).running = false) :
    ((s.haltCell c st).cell d).running = false := by
  rw [State.cell, State.haltCell_cells]
  by_cases hd : d = c
  · subst hd
    exact congrArg Cell.running (State.cell_setCell s d _)
  · exact (congrArg Cell.running (State.cell_setCell_other s c d _ hd)).trans (h.resolve_left hd)

theorem State.endRun_cells (s : State) (g : Nat) : (s.endRun g).cells = s.cells := by
  unfold State.endRun
  split
  · rfl
  · dsimp only
    split
    · rfl
    · split <;> rw [State.complete_cells]

/-- A cell whose instruction has failed does not run (R204). -/
theorem State.failCell_stopped (s : State) (c idx : Nat) (st : Status) (unit detail : Nat) :
    ((s.failCell c idx st unit detail).cell c).running = false := by
  unfold State.failCell
  rw [State.cell, State.endRun_cells]
  refine State.each_induct _ (fun u => (u.cell c).running = false) _ _ (fun u d hd h => ?_) (State.haltCell_stopped _ st (.inl rfl))
  refine State.haltCell_stopped _ st (.inr ?_)
  have hne : c ≠ d := by
    rintro rfl
    simp at hd
  rwa [State.updCell_eq, State.cell_setCell_other _ _ _ _ hne]

/-! ### Where a program goes on (R203, R222) -/

theorem backEdge_nil (p : Nat) : backEdge [] p = (p, []) := rfl

theorem backEdge_again {f e n : Nat} (r : List (Nat × Nat × Nat)) (h : 1 < n) :
    backEdge ((f, e, n) :: r) (e + 1) = (f, (f, e, n - 1) :: r) := by
  simp [backEdge, h]

theorem backEdge_done {f e n : Nat} (r : List (Nat × Nat × Nat)) (h : n ≤ 1) : backEdge ((f, e, n) :: r) (e + 1) = backEdge r (e + 1) := by
  simp [backEdge, Nat.not_lt.2 h]

theorem State.goTo_of_inside {s : State} {c p q : Nat} {l : List (Nat × Nat × Nat)} (hb : backEdge (s.cell c).loops p = (q, l))
    (h : q < (s.cell c).store.length) : s.goTo c p = s.updCell c fun x => { x with pc := q, loops := l } := by
  unfold State.goTo
  simp only [hb, if_pos h]

theorem State.goTo_of_past {s : State} {c p q : Nat} {l : List (Nat × Nat × Nat)} (hb : backEdge (s.cell c).loops p = (q, l))
    (h : (s.cell c).store.length ≤ q) :
    s.goTo c p = (s.updCell c fun x => { x with pc := q % 4096, loops := l }).failCell c (q % 4096) .instrIllegal 0 10 := by
  unfold State.goTo
  simp only [hb, if_neg (Nat.not_lt.2 h)]

/-! ### Waits and signals (R211, R213, R264) -/

section Tokens

variable {s : State} {c t n : Nat}

/-- With no batch dispatched to the cell, the count is subtracted and the program goes on, and nothing else happens (R213, R264). -/
theorem State.takeToken_of_idle (hi : s.busyBinds c = []) :
    s.takeToken c t n = (s.updCell c fun x => { x with
      tokens := Tab.put 0 x.tokens t (Tab.look 0 x.tokens t - n), waiting := .none }).goTo c ((s.cell c).pc + 1) := by
  simp [State.takeToken, hi]

/-- The cell as its WAIT on token `t` begins; a VARIABLE token makes the program VARIED (R76, R213). -/
def Cell.beginsWait (x : Cell) (t : Nat) : Cell :=
  { x with lastToken := t, waitTurns := 0, flags := Nat.lor x.flags (if 48 ≤ t then flagVaried else 0) }

/-- With no batch dispatched to the cell, a WAIT begins and looks at its token's count. -/
theorem State.waitFor_of_idle (hi : s.busyBinds c = []) :
    s.waitFor c t n = if n ≤ Tab.look 0 (s.cell c).tokens t then (s.updCell c (Cell.beginsWait · t)).takeToken c t n
      else (s.updCell c (Cell.beginsWait · t)).updCell c fun x => { x with waiting := .token t n } := by
  have begun : s.waitBegins c t = s := by simp [State.waitBegins, hi]
  simp only [State.waitFor, begun, State.updCell_eq, State.cell_setCell]
  rfl

/-- A cell that does not wait takes a signal for which its token has room (R211). -/
theorem State.signalToken_of_room (hw : (s.cell c).waiting = .none) (h : Tab.look 0 (s.cell c).tokens t + n ≤ 65535) :
    s.signalToken c t n = s.updCell c fun x => { x with tokens := Tab.put 0 x.tokens t (Tab.look 0 x.tokens t + n) } := by
  simp [State.signalToken, h, hw]

/-- A signal past 65,535 ends a running program (R211). -/
theorem State.signalToken_of_overflow (hr : (s.cell c).running = true) (h : 65535 < Tab.look 0 (s.cell c).tokens t + n) :
    s.signalToken c t n =
      (s.updCell c fun x => { x with tokens := Tab.put 0 x.tokens t 65535 }).failCell c (s.cell c).pc .instrIllegal 0 9 := by
  simp [State.signalToken, Nat.not_le.2 h, hr]

end Tokens

/-! ### Instructions of the CTL unit (R203, R218, R219) -/

/-- A cell that issues runs, and does not wait. -/
theorem State.issues_runs {s : State} {c first : Nat} {w : InstrWord} (h : s.issues c w first = true) :
    (s.cell c).running = true ∧ (s.cell c).waiting = .none := by
  simp only [State.issues, Bool.and_eq_true, beq_iff_eq] at h
  obtain ⟨⟨⟨⟨⟨⟨hr, -⟩, hw⟩, -⟩, -⟩, -⟩, -⟩ := h
  exact ⟨hr, hw⟩

/-- The state in which a CTL instruction of a cell has its effect: its work cycles are counted (R210). -/
def State.worked (s : State) (c cost : Nat) : State := s.updCell c fun x => x.addWork 0 cost 0

@[simp] theorem State.cell_worked (s : State) (c cost : Nat) : (s.worked c cost).cell c = (s.cell c).addWork 0 cost 0 := by
  simp [State.worked]
@[simp] theorem State.rank_worked (s : State) (c cost k : Nat) : (s.worked c cost).rank k = s.rank k := rfl
@[simp] theorem State.cellGroup_worked (s : State) (c cost k : Nat) : (s.worked c cost).cellGroup k = s.cellGroup k := rfl
@[simp] theorem State.groupCells_worked (s : State) (c cost g : Nat) : (s.worked c cost).groupCells g = s.groupCells g := rfl
@[simp] theorem State.busyBinds_worked (s : State) (c cost k : Nat) : (s.worked c cost).busyBinds k = s.busyBinds k := rfl

/-- The comparisons of BRANK (R219). -/
theorem brankTaken_eq (cmp : Fin 4) (r v : Nat) : brankTaken cmp r v =
    decide ((cmp = 0 ∧ r = v) ∨ (cmp = 1 ∧ r ≠ v) ∨ (cmp = 2 ∧ r < v) ∨ (cmp = 3 ∧ v ≤ r)) := by
  match cmp with
  | 0 => simp [brankTaken, beq_eq_decide]
  | 1 => simp [brankTaken, bne, beq_eq_decide]
  | 2 => simp [brankTaken]
  | 3 => simp [brankTaken]

section Issue

variable {s : State} {a : CellAt} (hb : s.beginDue (s.cellGroup a.cell.val) = s)
include hb

/-- An issued CTL instruction whose body cannot fail has its effect. -/
theorem State.issue_ctl {w : InstrWord} {cost : Nat} (h : s.issues a.cell.val w (min cost stepCycles) = true) (f : State → State) :
    s.issue a w 0 cost 0 (fun u => .ok (f u)) = f (s.worked a.cell.val cost) :=
  (s.issue_runs a w 0 cost 0 _ hb h).1 _ rfl

/-- An issued CTL instruction whose effect leaves its program where it is goes on at the next instruction. -/
theorem State.ctlInstr_goes_on {w : InstrWord} {cost : Nat} (h : s.issues a.cell.val w (min cost stepCycles) = true) {f : State → State}
    (hr : ((f (s.worked a.cell.val cost)).cell a.cell.val).running = true)
    (hp : ((f (s.worked a.cell.val cost)).cell a.cell.val).pc = (s.cell a.cell.val).pc) :
    s.ctlInstr a w cost f = (f (s.worked a.cell.val cost)).goTo a.cell.val ((s.cell a.cell.val).pc + 1) := by
  refine (State.issue_ctl hb h _).trans ?_
  simp only [hr, hp, if_true]

/-- An issued CTL instruction whose effect ends its program is the last. -/
theorem State.ctlInstr_ends {w : InstrWord} {cost : Nat} (h : s.issues a.cell.val w (min cost stepCycles) = true) {f : State → State}
    (hr : ((f (s.worked a.cell.val cost)).cell a.cell.val).running = false) :
    s.ctlInstr a w cost f = f (s.worked a.cell.val cost) := by
  refine (State.issue_ctl hb h _).trans ?_
  simp [hr]

/-- A CTL instruction that changes its cell by `f`, which leaves the program where it is. -/
theorem State.ctlInstr_updCell {w : InstrWord} (h : s.issues a.cell.val w 1 = true) (f : State → Cell → Cell) {y : Cell}
    (hf : f (s.worked a.cell.val 1) ((s.cell a.cell.val).addWork 0 1 0) = y) (hr : y.running = (s.cell a.cell.val).running)
    (hp : y.pc = (s.cell a.cell.val).pc) :
    s.ctlInstr a w 1 (fun u => u.updCell a.cell.val (f u)) =
      ((s.worked a.cell.val 1).setCell a.cell.val y).goTo a.cell.val ((s.cell a.cell.val).pc + 1) := by
  obtain ⟨running, -⟩ := State.issues_runs h
  refine (State.ctlInstr_goes_on hb h ?_ ?_).trans ?_ <;> simp [hf, hr, hp, running]

theorem execNop_of_issued {n : Nat} (h : s.issues a.cell.val (cellWord a false 0x00 [(16, 16, n)]) (min (1 + n) 256) = true) :
    execNop a n s = .next ((s.worked a.cell.val (1 + n)).goTo a.cell.val ((s.cell a.cell.val).pc + 1)) := by
  obtain ⟨running, -⟩ := State.issues_runs h
  exact congrArg _ (State.ctlInstr_goes_on hb h (by simpa using running) (by simp))

theorem execHalt_of_issued (h : s.issues a.cell.val (cellWord a false 0x01 []) 1 = true) :
    execHalt a s = .next (((s.worked a.cell.val 1).updCell a.cell.val fun x => { x with halting := true }).tryHalt a.cell.val) :=
  congrArg _ (State.issue_ctl hb h _)

theorem execJump_of_issued {t : Nat} (h : s.issues a.cell.val (cellWord a false 0x02 [(16, 12, t)]) 1 = true) :
    execJump a t s = .next ((s.worked a.cell.val 1).goTo a.cell.val t) :=
  congrArg _ (State.issue_ctl hb h _)

/-- A LOOP of no passes goes on behind its last instruction, another starts its first pass (R222). -/
theorem execLoop_of_issued {l i n : Nat} {r : Fin 16}
    (h : s.issues a.cell.val (cellWord a false 0x03 [(16, 12, l), (28, 4, r.val), (32, 32, i)]) 1 = true)
    (hn : (if r = 0 then i else ((s.cell a.cell.val).sreg r.val).toNat) = n) :
    (n = 0 → execLoop a l r i s = .next ((s.worked a.cell.val 1).goTo a.cell.val (l + 1))) ∧
    (n ≠ 0 → execLoop a l r i s = .next (((s.worked a.cell.val 1).updCell a.cell.val fun y => { y with
      loops := (y.pc + 1, l, n) :: y.loops }).goTo a.cell.val ((s.cell a.cell.val).pc + 1))) := by
  have run := State.issue_ctl hb (cost := 1) h fun u =>
    let x := u.cell a.cell.val
    let n := if r = 0 then i else (x.sreg r.val).toNat
    if n = 0 then u.goTo a.cell.val (l + 1)
    else (u.updCell a.cell.val fun x => { x with loops := (x.pc + 1, l, n) :: x.loops }).goTo a.cell.val (x.pc + 1)
  simp only [State.cell_worked, Cell.addWork_sreg, Cell.addWork_pc, hn] at run
  constructor
  · intro hz
    rw [if_pos hz] at run
    exact congrArg _ run
  · intro hz
    rw [if_neg hz] at run
    exact congrArg _ run

theorem execBrank_of_issued {t v : Nat} {cmp : Fin 4}
    (h : s.issues a.cell.val (cellWord a false 0x04 [(16, 12, t), (28, 2, cmp.val), (32, 6, v)]) 1 = true) :
    execBrank a t cmp v s = .next ((s.worked a.cell.val 1).goTo a.cell.val
      (if brankTaken cmp (s.rank a.cell.val) v then t else (s.cell a.cell.val).pc + 1)) := by
  refine congrArg _ ((State.issue_ctl hb h _).trans ?_)
  simp only [State.cell_worked, State.rank_worked, Cell.addWork_pc]

/-- A WAIT of a cell to which no batch is dispatched (R213). -/
theorem execWait_of_issued {v : Bool} {t : Fin 64} {n : Nat} (h : s.issues a.cell.val (cellWord a v 0x05 [(16, 6, t.val), (32, 16, n)]) 1 = true)
    (hi : s.busyBinds a.cell.val = []) : let y := (s.worked a.cell.val 1).updCell a.cell.val (Cell.beginsWait · t.val)
    (n ≤ Tab.look 0 (s.cell a.cell.val).tokens t.val → execWait a v t n s = .next ((y.updCell a.cell.val fun x => { x with
      tokens := Tab.put 0 x.tokens t.val (Tab.look 0 x.tokens t.val - n), waiting := .none }).goTo a.cell.val ((s.cell a.cell.val).pc + 1))) ∧
    (Tab.look 0 (s.cell a.cell.val).tokens t.val < n → execWait a v t n s =
      .next (y.updCell a.cell.val fun x => { x with waiting := .token t.val n })) := by
  intro y
  have run := (State.issue_ctl hb (cost := 1) h fun u => u.waitFor a.cell.val t.val n).trans (State.waitFor_of_idle hi)
  simp only [State.cell_worked, Cell.addWork_tokens] at run
  have pc : (y.cell a.cell.val).pc = (s.cell a.cell.val).pc := by simp [y, Cell.beginsWait]
  constructor
  · intro hn
    rw [if_pos hn] at run
    rw [← pc]
    exact congrArg _ (run.trans (State.takeToken_of_idle (s := y) hi))
  · intro hn
    rw [if_neg (Nat.not_le.2 hn)] at run
    exact congrArg _ run

/-- A SIGNAL goes on where the token has room, and ends the program where it has not (R211). -/
theorem execSignal_of_issued {t : Fin 64} {n : Nat} (h : s.issues a.cell.val (cellWord a false 0x06 [(16, 6, t.val), (32, 16, n)]) 1 = true) :
    let x := s.cell a.cell.val
    (Tab.look 0 x.tokens t.val + n ≤ 65535 → execSignal a t n s = .next (((s.worked a.cell.val 1).updCell a.cell.val fun x => { x with
      tokens := Tab.put 0 x.tokens t.val (Tab.look 0 x.tokens t.val + n) }).goTo a.cell.val (x.pc + 1))) ∧
    (65535 < Tab.look 0 x.tokens t.val + n → execSignal a t n s = .next (((s.worked a.cell.val 1).updCell a.cell.val fun x => { x with
      tokens := Tab.put 0 x.tokens t.val 65535 }).failCell a.cell.val x.pc .instrIllegal 0 9)) := by
  intro x
  obtain ⟨running, idle⟩ := State.issues_runs h
  constructor
  · intro hn
    have signalled := State.signalToken_of_room (s := s.worked a.cell.val 1) (c := a.cell.val) (t := t.val) (n := n)
      (by simpa using idle) (by simpa using hn)
    rw [← signalled]
    exact congrArg _ (State.ctlInstr_goes_on hb h (by simp [signalled, running]) (by simp [signalled]))
  · intro hn
    have signalled := State.signalToken_of_overflow (s := s.worked a.cell.val 1) (c := a.cell.val) (t := t.val) (n := n)
      (by simpa using running) (by simpa using hn)
    rw [State.cell_worked, Cell.addWork_pc] at signalled
    rw [← signalled]
    exact congrArg _ (State.ctlInstr_ends hb h (by rw [signalled]; exact State.failCell_stopped ..))

theorem execGsync_of_issued (h : s.issues a.cell.val (cellWord a false 0x07 []) 1 = true) :
    execGsync a s = .next (((s.worked a.cell.val 1).updCell a.cell.val fun x => { x with
      gsyncs := x.gsyncs + 1, waiting := .gsync, waitTurns := 0 }).releaseGsync (s.cellGroup a.cell.val)) :=
  congrArg _ (State.issue_ctl hb h _)

theorem execSmovi_of_issued {d : Fin 16} {v : Word64}
    (h : s.issues a.cell.val (cellWord a false 0x10 [(16, 4, d.val), (64, 64, v.toNat)]) 1 = true) :
    execSmovi a d v s = .next (((s.worked a.cell.val 1).updCell a.cell.val fun x => x.setSreg d.val v).goTo a.cell.val
      ((s.cell a.cell.val).pc + 1)) := by
  rw [State.updCell_eq, State.cell_worked]
  exact congrArg _ (State.ctlInstr_updCell hb h (fun _ x => x.setSreg d.val v) rfl (by simp) (by simp))

theorem execSalu_of_issued {d p q f : Fin 16} {u : Bool} {v : Word64} (h : s.issues a.cell.val (cellWord a false 0x11
      [(16, 4, d.val), (20, 4, p.val), (24, 4, q.val), (28, 4, f.val), (32, 1, b2n u), (64, 64, v.toNat)]) 1 = true) :
    execSalu a d p q f u v s = .next (((s.worked a.cell.val 1).updCell a.cell.val fun x => x.setSreg d.val
      (saluResult f ((s.cell a.cell.val).sreg p.val) (if u then v else (s.cell a.cell.val).sreg q.val))).goTo a.cell.val
      ((s.cell a.cell.val).pc + 1)) := by
  rw [State.updCell_eq, State.cell_worked]
  exact congrArg _ (State.ctlInstr_updCell hb h
    (fun _ x => x.setSreg d.val (saluResult f (x.sreg p.val) (if u then v else x.sreg q.val))) rfl (by simp) (by simp))

theorem execSrank_of_issued {d : Fin 16} {b : Bool} (h : s.issues a.cell.val (cellWord a false 0x12 [(16, 4, d.val), (20, 1, b2n b)]) 1 = true) :
    execSrank a d b s = .next (((s.worked a.cell.val 1).updCell a.cell.val fun x => x.setSreg d.val (BitVec.ofNat 64
      (if b then (s.groupCells (s.cellGroup a.cell.val)).length else s.rank a.cell.val))).goTo a.cell.val ((s.cell a.cell.val).pc + 1)) := by
  rw [State.updCell_eq, State.cell_worked]
  exact congrArg _ (State.ctlInstr_updCell hb h (fun u x => x.setSreg d.val (BitVec.ofNat 64
    (if b then (u.groupCells (u.cellGroup a.cell.val)).length else u.rank a.cell.val))) rfl (by simp) (by simp))

end Issue

/-- The functions of SALU, by number (R219). -/
theorem saluResult_values (x y : Word64) : saluResult 0 x y = x + y ∧ saluResult 1 x y = x - y ∧ saluResult 2 x y = x * y ∧
    saluResult 3 x y = x &&& y ∧ saluResult 4 x y = x ||| y ∧ saluResult 5 x y = x ^^^ y :=
  ⟨rfl, rfl, rfl, rfl, rfl, rfl⟩

theorem saluResult_shl {y : Word64} (x : Word64) (h : y.toNat < 64) : saluResult 6 x y = x <<< y.toNat := by
  have shift : saluResult 6 x y = BitVec.ofNat 64 (shifted "shl" 64 x.toNat y.toNat (x.toNat * 2 ^ y.toNat)) := rfl
  rw [shift, shifted, if_pos h]
  apply BitVec.eq_of_toNat_eq
  rw [BitVec.toNat_ofNat, BitVec.toNat_shiftLeft, Nat.shiftLeft_eq]

theorem saluResult_shr {y : Word64} (x : Word64) (h : y.toNat < 64) : saluResult 7 x y = x >>> y.toNat := by
  have shift : saluResult 7 x y = BitVec.ofNat 64 (shifted "shr" 64 x.toNat y.toNat (x.toNat / 2 ^ y.toNat)) := rfl
  rw [shift, shifted, if_pos h]
  apply BitVec.eq_of_toNat_eq
  rw [BitVec.toNat_ofNat, BitVec.toNat_ushiftRight, Nat.shiftRight_eq_div_pow]
  exact Nat.mod_eq_of_lt (Nat.lt_of_le_of_lt (Nat.div_le_self ..) x.isLt)

end Sys2Proof.Machine
end

section
/-! The obligation on the instructions of the CTL unit. -/

namespace Sys2Proof.Machine

set_option Elab.async false

open Sys2Proof

/-- Settles O48: an issued instruction is its body on the state with its cycles counted, and goes on, jumps, holds or ends as the body says. -/
theorem controlInstructionsAndLoopsRun : Obligations.ControlInstructionsAndLoopsRun := by
  refine ⟨⟨?idle, ?issued, ?expired⟩, ?inside, ?again, ?done, ?past, ?registers⟩
  case idle =>
    intro s a n h
    exact congrArg _ (s.issue_idle a _ 0 (1 + n) 0 _ h)
  case issued =>
    intro s a w hb c on x
    refine ⟨?nop, fun h => ⟨?halt, ?jump, ?loop, ?loopRegister, ?brank, ?wait, ?signal, ?gsync, ?smovi, ?salu, ?srank⟩⟩
    case nop =>
      rintro n rfl h
      exact execNop_of_issued hb h
    case halt =>
      rintro rfl
      exact execHalt_of_issued hb h
    case jump =>
      rintro t rfl
      exact execJump_of_issued hb h
    case loop =>
      rintro l i rfl
      obtain ⟨skips, starts⟩ := execLoop_of_issued hb (r := 0) h (if_pos rfl)
      exact ⟨skips, fun hi => starts hi.ne'⟩
    case loopRegister =>
      rintro l r i hr rfl
      obtain ⟨skips, starts⟩ := execLoop_of_issued hb h (if_neg hr)
      have zero : (x.sreg r.val).toNat = 0 ↔ x.sreg r.val = 0 := BitVec.toNat_inj (y := 0)
      exact ⟨fun hz => skips (zero.2 hz), fun hz => starts (mt zero.1 hz)⟩
    case brank =>
      rintro t cmp v rfl taken
      have decided : taken = brankTaken cmp (s.rank c) v := (brankTaken_eq cmp (s.rank c) v).symm
      rw [decided]
      exact execBrank_of_issued hb h
    case wait =>
      rintro v t n rfl hi
      exact execWait_of_issued hb h hi
    case signal =>
      rintro t n rfl
      exact execSignal_of_issued hb h
    case gsync =>
      rintro rfl
      exact execGsync_of_issued hb h
    case smovi =>
      rintro d v rfl
      exact execSmovi_of_issued hb h
    case salu =>
      rintro d p q f u v rfl l r to_
      have run : exec (.salu a d p q f u v) s = to_ (saluResult f l r) := execSalu_of_issued hb h
      obtain ⟨add, sub, mul, and, or, xor⟩ := saluResult_values l r
      refine ⟨?_, ?_, ?_, ?_, ?_, ?_, ?_, ?_, _, run⟩
      · rintro rfl; rw [run, add]
      · rintro rfl; rw [run, sub]
      · rintro rfl; rw [run, mul]
      · rintro rfl; rw [run, and]
      · rintro rfl; rw [run, or]
      · rintro rfl; rw [run, xor]
      · rintro rfl hr; rw [run, saluResult_shl l hr]
      · rintro rfl hr; rw [run, saluResult_shr l hr]
    case srank =>
      rintro d b rfl
      exact execSrank_of_issued hb h
  case expired =>
    intro s c hr hw hl ht z
    exact congrArg _ (if_pos (by simp [hr, hw, hl, ht, z]))
  case inside =>
    intro s c p hl h
    exact State.goTo_of_inside (by rw [hl, backEdge_nil]) h
  case again =>
    intro s c f e n r hl hn h
    exact State.goTo_of_inside (by rw [hl, backEdge_again r hn]) h
  case done =>
    intro s c f e n hl hn h
    exact State.goTo_of_inside (by rw [hl, backEdge_done [] hn, backEdge_nil]) h
  case past =>
    intro s c p hl h
    exact State.goTo_of_past (by rw [hl, backEdge_nil]) h
  case registers =>
    intro x r q v
    refine ⟨x.sreg_zero, x.setSreg_zero v, fun hr => ?_, fun hq => ?_⟩
    · rw [x.sreg_setSreg r r v hr, if_pos rfl]
    · by_cases hr : r = 0
      · rw [hr, x.setSreg_zero]
      · rw [x.sreg_setSreg r q v hr, if_neg hq]

end Sys2Proof.Machine
end

section
/-! SUPPORT. The loading of programs (R197 to R199): the pages of an image while they are locked, what a load that passes its checks does, and the
refusals of PROG_LOAD and PROG_START (R200, R201). -/

namespace Sys2Proof.Machine

set_option Elab.async false

open Sys2Proof

/-! ### Folds -/

/-- A fold establishes what its step at one of the elements establishes and every step keeps. -/
theorem State.each_establishes {α : Type} (s : State) (P : State → Prop) {f : State → α → State} {l : List α} {a : α} (ha : a ∈ l)
    (hset : ∀ u, P (f u a)) (hkeep : ∀ u b, P u → P (f u b)) : P (s.each l f) := by
  induction l generalizing s with
  | nil => cases ha
  | cons b r ih =>
    rw [State.each_cons]
    rcases List.mem_cons.1 ha with rfl | hr
    · exact State.each_induct _ P f r (fun u b _ => hkeep u b) (hset s)
    · exact ih (f s b) hr

/-- What a fold leaves of a part of the state depends on that part alone, where that is so of each of its steps. -/
theorem State.each_congr {α β : Type} (g : State → β) {f : State → α → State} (h : ∀ u v a, g u = g v → g (f u a) = g (f v a))
    {s t : State} (l : List α) (e : g s = g t) : g (s.each l f) = g (t.each l f) := by
  induction l generalizing s t with
  | nil => exact e
  | cons a r ih => exact ih (h s t a e)

/-! ### Locked pages (R400) -/

/-- Locks lie in the memory block. -/
theorem State.lockPages_frame (s : State) (t va n : Nat) (lock : Bool) :
    s.lockPages t va n lock = { s with mem := (s.lockPages t va n lock).mem } := by
  unfold State.lockPages
  refine State.each_induct s (fun u => u = { s with mem := u.mem }) _ _ (fun u k _ e => ?_) rfl
  rw [e]
  rfl

theorem State.lockPages_mem_congr {s u : State} (e : s.mem = u.mem) (t va n : Nat) (lock : Bool) :
    (s.lockPages t va n lock).mem = (u.lockPages t va n lock).mem := by
  have keys : s.pageAt t = u.pageAt t := by
    funext a
    simp only [State.pageAt, e]
  unfold State.lockPages
  rw [keys]
  refine State.each_congr State.mem (fun v w k h => ?_) _ e
  simp only [State.updPage, h]

/-- What locking leaves, of a state whose memory block is that of `v`. -/
theorem State.lockPages_of_mem {u v : State} (e : u.mem = v.mem) (t va n : Nat) (lock : Bool) :
    u.lockPages t va n lock = { u with mem := (v.lockPages t va n lock).mem } := by
  rw [State.lockPages_frame, State.lockPages_mem_congr e]

/-- The leaf entries of `u` are those of `s` but for their locks. -/
def State.PagesButLocks (s u : State) : Prop :=
  ∀ k, ∃ n, Tab.look ({} : Page) u.mem.pages k = { Tab.look ({} : Page) s.mem.pages k with locks := n }

theorem State.lockPages_pages (s : State) (t va n : Nat) (lock : Bool) : s.PagesButLocks (s.lockPages t va n lock) := by
  refine State.each_induct s s.PagesButLocks _ _ (fun u j _ h k => ?_) fun k => ⟨_, rfl⟩
  obtain ⟨m, e⟩ := h k
  by_cases hk : k = j
  · subst hk
    simp only [State.updPage, Tab.look_put_same, e]
    exact ⟨_, rfl⟩
  · simp only [State.updPage, Tab.look_put_other _ _ _ _ _ hk, e]
    exact ⟨_, rfl⟩

/-- Translation does not depend on locks. -/
theorem State.PagesButLocks.page {s u : State} (h : s.PagesButLocks u) (t va : Nat) :
    ∃ n, u.page t va = { s.page t va with locks := n } := by
  obtain ⟨m, small⟩ := h (pageKey t va)
  obtain ⟨m', large⟩ := h (pageKey t (va / 2 ^ 21 * 2 ^ 21))
  simp only [State.page, small, large]
  split
  · exact ⟨_, rfl⟩
  · split <;> exact ⟨_, rfl⟩

/-- What a tenant's space holds does not depend on locks. -/
theorem State.PagesButLocks.readVA {s u : State} (h : s.PagesButLocks u) (hr : u.ram = s.ram) (t va n : Nat) (host : List Byte) :
    u.readVA t va n host = s.readVA t va n host := by
  refine List.map_congr_left fun i _ => ?_
  obtain ⟨m, e⟩ := h.page t (va + i)
  simp only [State.vaByte, e, State.ramByte, hr]
  rfl

/-! ### What a load leaves in the cells (R194, R196, R199) -/

/-- The cell holds the program of an image, with its measurement. -/
def Cell.Holds (x : Cell) (p : ProgImage) (m : Digest) : Prop :=
  x.store = p.code ∧ x.loaded = true ∧ x.entry = p.entry ∧ x.waitLimit = p.waitLimit ∧ x.measurement = m ∧ x.buildId = p.buildId

theorem State.loadImage_holds (s : State) (p : ProgImage) (m : Digest) {g k : Nat} (hk : k ∈ s.groupCells g) :
    ((s.loadImage p m g).cell k).Holds p m := by
  unfold State.loadImage
  refine State.each_establishes s (fun u => (u.cell k).Holds p m) hk (fun u => ?_) fun u b h => ?_
  · dsimp only
    rw [State.updCell_eq, State.cell_setCell]
    exact ⟨rfl, rfl, rfl, rfl, rfl, rfl⟩
  · dsimp only
    rw [State.updCell_eq]
    by_cases hb : k = b
    · subst hb
      rw [State.cell_setCell]
      exact ⟨rfl, rfl, rfl, rfl, rfl, rfl⟩
    · rwa [State.cell_setCell_other _ _ _ _ hb]

theorem State.loadImage_other (s : State) (p : ProgImage) (m : Digest) {g k : Nat} (hk : k ∉ s.groupCells g) :
    (s.loadImage p m g).cell k = s.cell k := by
  refine State.each_keeps s (fun u => u.cell k) _ _ fun u b hb => ?_
  exact State.cell_setCell_other _ _ _ _ fun e => hk (e ▸ hb)

/-- A load writes its image in the cells alone. -/
theorem State.loadImage_frame (s : State) (p : ProgImage) (m : Digest) (g : Nat) :
    s.loadImage p m g = { s with cells := (s.loadImage p m g).cells } := by
  unfold State.loadImage
  refine State.each_induct s (fun u => u = { s with cells := u.cells }) _ _ (fun u k _ e => ?_) rfl
  dsimp only
  rw [e]
  rfl

/-! ### A load goes on (R199) -/

/-- The run of slots from a position depends on the jig and the Spindle alone (R65). -/
theorem State.runTicks_congr {s u : State} (hj : s.jig = u.jig) (hs : s.spn = u.spn) (c : ResClass) (i who fuel p : Nat) :
    s.runTicks c i who fuel p = u.runTicks c i who fuel p := by
  induction fuel generalizing p with
  | zero => rfl
  | succ fuel ih =>
    have owner (n : Nat) : s.slotOwner c i n = u.slotOwner c i n := by simp only [State.slotOwner, State.slotEntry, State.slotTable, hj]
    have slot (n : Nat) : s.slotOf n = u.slotOf n := by simp only [State.slotOf, hs]
    rw [State.runTicks, State.runTicks]
    simp only [ih, owner, slot, hs]

/-- What a load may move at once depends on the jig, the Spindle, the tenants and the power grants (R69, R70). -/
theorem State.feedMoves_congr {s u : State} (hj : s.jig = u.jig) (hs : s.spn = u.spn) (hsec : s.sec = u.sec) (hp : s.pwr = u.pwr)
    (g t n : Nat) : s.feedMoves g t n = u.feedMoves g t n := by
  have feeds (d : Nat) : s.dmaFeeds d = u.dmaFeeds d := by simp only [State.dmaFeeds, State.part, hj]
  have issue (d : Nat) : s.mayIssue t .dma d = u.mayIssue t .dma d := by
    simp only [State.mayIssue, State.issuing, State.tenant, State.frozen, State.realigning, State.granted, State.inSlot, State.slotOwner,
      State.slotEntry, State.slotTable, State.slotOf, State.pos, hj, hs, hsec, hp]
  have run (d : Nat) : s.runCycles .dma d t = u.runCycles .dma d t := by
    simp only [State.runCycles, State.runTicks_congr hj hs, State.pos, hs]
  have budget : s.dmaBudget t = u.dmaBudget t := by simp only [State.dmaBudget, hs]
  rw [State.feedMoves, State.feedMoves]
  simp only [feeds, issue, run, budget]

section PumpLoad

variable {s : State} {l : LoadJob} (z : s.frozen = false) (ho : s.groupOwner l.group = l.tenant) (hm : l.moved = 0)
include z ho hm

/-- A new load that cannot end at once has moved what this moment allows. -/
theorem State.pumpLoad_of_more (h : s.feedMoves l.group l.tenant l.cmd.len < l.cmd.len) :
    let n := s.feedMoves l.group l.tenant l.cmd.len
    s.pumpLoad l = { s.chargeDma l.tenant n with loads := s.loads.map fun q => if q == l then { l with moved := n } else q } := by
  simp only [State.pumpLoad, z, ho, hm, bne_self_eq_false, Bool.false_eq_true, if_false, Nat.sub_zero, Nat.zero_add, if_pos h]
  rfl

/-- A new load that ends at once leaves the list, unlocks its pages and takes effect. -/
theorem State.pumpLoad_of_all (h : s.feedMoves l.group l.tenant l.cmd.len = l.cmd.len) :
    let c := l.cmd
    let charged := s.chargeDma l.tenant c.len
    let b := charged.readVA l.tenant c.addr c.len c.host
    let unlocked := ({ charged with loads := s.loads.erase l } : State).lockPages l.tenant c.addr c.len false
    ∃ f, s.pumpLoad l = (unlocked.loadImage (readImage b) (Config.digest "program" b) l.group).complete c .ok 0 0 f := by
  simp only [State.pumpLoad, z, ho, hm, bne_self_eq_false, Bool.false_eq_true, if_false, Nat.sub_zero, Nat.zero_add, h, Nat.lt_irrefl]
  exact ⟨_, rfl⟩

end PumpLoad

/-! ### PROG_LOAD (R197 to R199) -/

/-- A command that passes the checks of all commands finds the engine not frozen (R90). -/
theorem State.unfrozen_of_accepts {s : State} {op : Nat} {c : Cmd} (ha : s.accepts op c = true) : s.frozen = false := by
  simp only [State.accepts, Bool.and_eq_true, Bool.not_eq_true'] at ha
  exact ha.2

/-- A group that is not busy has no load. -/
theorem State.no_load_of_idle {s : State} {g : Nat} (h : s.groupBusy g = false) {l : LoadJob} (hl : l.group = g) : l ∉ s.loads := by
  intro hm
  simp only [State.groupBusy, Bool.or_eq_false_iff, List.any_eq_false, beq_iff_eq] at h
  exact h.2 l hm hl

/-- What refuses a PROG_LOAD before its image is looked at (R197). -/
def State.loadRefusals (s : State) (c : Cmd) : List (Bool × Status) :=
  [(s.notOwner c c.a0, .rights), ((s.groupCells c.a0).isEmpty, .cfgMismatch),
   (s.ringGroup c.a0 || s.groupBusy c.a0 || s.groupAwaited c.a0, .cfgLocked), (!s.canFeed c.a0 (s.groupOwner c.a0), .budget)]

/-- The load as which a PROG_LOAD goes on, nothing of it moved. -/
def State.newLoad (s : State) (c : Cmd) : LoadJob := { cmd := c, group := c.a0, tenant := s.groupOwner c.a0, moved := 0 }

theorem State.newLoad_cmd (s : State) (c : Cmd) : (s.newLoad c).cmd = c := rfl
theorem State.newLoad_group (s : State) (c : Cmd) : (s.newLoad c).group = c.a0 := rfl
theorem State.newLoad_tenant (s : State) (c : Cmd) : (s.newLoad c).tenant = s.groupOwner c.a0 := rfl

/-- The state in which a load begins: its pages are locked, and it stands last in the list. -/
def State.beginsLoad (s : State) (c : Cmd) : State :=
  { s.lockPages (s.groupOwner c.a0) c.addr c.len true with loads := s.loads ++ [s.newLoad c] }

section ProgLoad

variable {s : State} {c : Cmd} (ha : s.accepts 0x40 c = true)
include ha

theorem execProgLoad_of_refusal {st : Status} (h : firstFail (s.loadRefusals c) = some st) : execProgLoad c s = s.refuses c st := by
  unfold State.loadRefusals at h
  simp only [execProgLoad, s.command_of_accepts _ _ _ ha, h]
  rfl

section Image

variable (hr : firstFail (s.loadRefusals c) = none)
include hr

theorem execProgLoad_of_unmapped (hm : s.mapped (s.groupOwner c.a0) c.addr c.len = false) :
    execProgLoad c s = .next (s.loadFails c c.a0 1 .xlateFault 0) := by
  unfold State.loadRefusals at hr
  simp only [execProgLoad, s.command_of_accepts _ _ _ ha, hr, hm]
  rfl

variable (hm : s.mapped (s.groupOwner c.a0) c.addr c.len = true)
include hm

theorem execProgLoad_of_notExecutable (hx : s.allPages (s.groupOwner c.a0) c.addr c.len (fun p => p.x) = false) :
    execProgLoad c s = .next (s.loadFails c c.a0 2 .rights 0) := by
  unfold State.loadRefusals at hr
  simp only [execProgLoad, s.command_of_accepts _ _ _ ha, hr, hm, hx]
  rfl

variable (hx : s.allPages (s.groupOwner c.a0) c.addr c.len (fun p => p.x) = true)
  (hu : s.allPages (s.groupOwner c.a0) c.addr c.len (fun p => !p.broken) = true)
include hx hu

theorem execProgLoad_of_badImage {o : Nat} {st : Status} {i : Nat}
    (hi : s.imageCheck (readImage (s.readVA (s.groupOwner c.a0) c.addr c.len c.host)) c.len c.a0 = some (o, st, i)) :
    execProgLoad c s = .next (s.loadFails c c.a0 o st i) := by
  unfold State.loadRefusals at hr
  simp only [execProgLoad, s.command_of_accepts _ _ _ ha, hr, hm, hx, hu, hi]
  rfl

theorem execProgLoad_of_goodImage (hi : s.imageCheck (readImage (s.readVA (s.groupOwner c.a0) c.addr c.len c.host)) c.len c.a0 = none) :
    execProgLoad c s = .next ((s.beginsLoad c).pumpLoad (s.newLoad c)) := by
  unfold State.loadRefusals at hr
  simp only [execProgLoad, s.command_of_accepts _ _ _ ha, hr, hm, hx, hu, hi, Bool.not_true, Bool.false_eq_true, if_false]
  rfl

end Image

end ProgLoad

section BeginsLoad

variable (s : State) (c : Cmd)

theorem State.beginsLoad_frame : s.beginsLoad c =
    { s with mem := (s.lockPages (s.groupOwner c.a0) c.addr c.len true).mem, loads := s.loads ++ [s.newLoad c] } := by
  unfold State.beginsLoad
  rw [State.lockPages_frame]

/-- Locking pages takes nothing of what a load may move. -/
theorem State.beginsLoad_feedMoves (g t n : Nat) : (s.beginsLoad c).feedMoves g t n = s.feedMoves g t n := by
  rw [State.beginsLoad_frame]
  exact State.feedMoves_congr (by rfl) (by rfl) (by rfl) (by rfl) g t n

theorem State.beginsLoad_groupOwner (g : Nat) : (s.beginsLoad c).groupOwner g = s.groupOwner g := by
  rw [State.beginsLoad_frame]
  rfl

theorem State.beginsLoad_charged (t n : Nat) : (s.beginsLoad c).chargeDma t n =
    { s with
      spn := (s.chargeDma t n).spn, mem := (s.lockPages (s.groupOwner c.a0) c.addr c.len true).mem, loads := s.loads ++ [s.newLoad c] } := by
  rw [State.beginsLoad_frame]
  rfl

theorem State.beginsLoad_frozen : (s.beginsLoad c).frozen = s.frozen := by
  rw [State.beginsLoad_frame]
  rfl

end BeginsLoad

section NewLoad

variable {s : State} {c : Cmd} (z : s.frozen = false) (hn : s.newLoad c ∉ s.loads)
include z hn

/-- A load that cannot end at once has moved what this moment allows, and holds its pages locked. -/
theorem State.beginsLoad_goesOn (h : s.feedMoves c.a0 (s.groupOwner c.a0) c.len < c.len) : ∃ spn,
    (s.beginsLoad c).pumpLoad (s.newLoad c) =
      { s with
        spn := spn, mem := (s.lockPages (s.groupOwner c.a0) c.addr c.len true).mem,
        loads := s.loads ++ [{ s.newLoad c with moved := s.feedMoves c.a0 (s.groupOwner c.a0) c.len }] } := by
  have moves := s.beginsLoad_feedMoves c c.a0 (s.groupOwner c.a0) c.len
  have more := State.pumpLoad_of_more ((s.beginsLoad_frozen c).trans z) (s.beginsLoad_groupOwner c (s.newLoad c).group) rfl
    (moves.trans_lt h)
  rw [State.newLoad_group, State.newLoad_tenant, State.newLoad_cmd, moves] at more
  have loads (l' : LoadJob) : (s.beginsLoad c).loads.map (fun q => if q == s.newLoad c then l' else q) = s.loads ++ [l'] := by
    have others : s.loads.map (fun q => if q == s.newLoad c then l' else q) = s.loads := by
      refine (List.map_congr_left fun q hq => if_neg ?_).trans s.loads.map_id
      rw [beq_iff_eq]
      rintro rfl
      exact hn hq
    rw [State.beginsLoad_frame, List.map_append, others]
    simp
  rw [more, loads, State.beginsLoad_charged]
  exact ⟨_, rfl⟩

/-- A load that ends at once leaves its image in the cells of its group, and its pages as unlocked as before. -/
theorem State.beginsLoad_ends (h : s.feedMoves c.a0 (s.groupOwner c.a0) c.len = c.len) :
    let t := s.groupOwner c.a0
    let b := s.readVA t c.addr c.len c.host
    ∃ spn f, (s.beginsLoad c).pumpLoad (s.newLoad c) =
      (State.loadImage { s with
        spn := spn, mem := ((s.lockPages t c.addr c.len true).lockPages t c.addr c.len false).mem } (readImage b)
        (Config.digest "program" b) c.a0).complete c .ok 0 0 f := by
  intro t b
  obtain ⟨f, all⟩ := State.pumpLoad_of_all ((s.beginsLoad_frozen c).trans z) (s.beginsLoad_groupOwner c (s.newLoad c).group) rfl
    ((s.beginsLoad_feedMoves c c.a0 t c.len).trans h)
  rw [State.newLoad_group, State.newLoad_tenant, State.newLoad_cmd] at all
  have erased : (s.beginsLoad c).loads.erase (s.newLoad c) = s.loads := by
    rw [State.beginsLoad_frame, List.erase_append_right _ hn]
    simp
  have unlocked : State.lockPages { (s.beginsLoad c).chargeDma t c.len with loads := (s.beginsLoad c).loads.erase (s.newLoad c) }
      t c.addr c.len false =
      { s with
        spn := (s.chargeDma t c.len).spn, mem := ((s.lockPages t c.addr c.len true).lockPages t c.addr c.len false).mem } := by
    rw [erased, State.beginsLoad_charged]
    exact State.lockPages_of_mem (v := s.lockPages t c.addr c.len true) (by rfl) t c.addr c.len false
  have read : ((s.beginsLoad c).chargeDma t c.len).readVA t c.addr c.len c.host = b := by
    rw [State.beginsLoad_charged]
    refine State.PagesButLocks.readVA (s := s) ?_ (by rfl) t c.addr c.len c.host
    exact s.lockPages_pages t c.addr c.len true
  rw [all, unlocked, read]
  exact ⟨_, f, rfl⟩

end NewLoad

/-! ### PROG_START (R200, R201) -/

/-- What refuses a PROG_START of entry `e` of group `g` (R200). -/
def State.startRefusals (s : State) (c : Cmd) (g e : Nat) : List (Bool × Status) :=
  [(s.notOwner c g, .rights), (s.ringGroup g || s.groupBusy g, .cfgLocked), (s.noProgram g e, .instrIllegal),
   (!s.ownsSlot .cellGroup g (s.groupOwner g), .budget)]

section ProgStart

variable {s : State} {c : Cmd} (ha : s.accepts 0x41 c = true)
include ha

theorem execProgStart_of_refusal {st : Status} (h : firstFail (s.startRefusals c (c.a0 % 65536) (c.a0 / 65536 % 65536)) = some st) :
    execProgStart c s = s.refuses c st := by
  have low : bits c.a0 0 16 = c.a0 % 65536 := by simp [bits]
  have high : bits c.a0 16 16 = c.a0 / 65536 % 65536 := rfl
  unfold State.startRefusals at h
  simp only [execProgStart, s.command_of_accepts _ _ _ ha, low, high, h]
  rfl

theorem execProgStart_of_good (h : firstFail (s.startRefusals c (c.a0 % 65536) (c.a0 / 65536 % 65536)) = none) :
    execProgStart c s = .next { s with progs := s.progs ++ [
      { group := c.a0 % 65536, entry := s.entryOf (c.a0 % 65536) (c.a0 / 65536 % 65536), args := [c.a1, c.a2, c.a3, c.a4], cmd := c,
        begun := false, at_ := s.pos }] } := by
  have low : bits c.a0 0 16 = c.a0 % 65536 := by simp [bits]
  have high : bits c.a0 16 16 = c.a0 / 65536 % 65536 := rfl
  unfold State.startRefusals at h
  simp only [execProgStart, s.command_of_accepts _ _ _ ha, low, high, h]

end ProgStart

end Sys2Proof.Machine
end

section
/-! SUPPORT. Barriers: what BARRIER_ARM refuses and arms, and what becomes of a barrier two ticks past its position (R84 to R88). -/

namespace Sys2Proof.Machine

set_option Elab.async false

open Sys2Proof

/-! ### BARRIER_ARM (R85, R88) -/

/-- The work block of a BARRIER_ARM. -/
def State.armBlock (s : State) (c : Cmd) : List Byte := s.readVA (cmdActs c) c.addr 96 c.host

/-- The barrier of a BARRIER_ARM. -/
def State.armedBy (s : State) (c : Cmd) : Barrier := parseBarrier c.a0 (cmdActs c) (s.armBlock c) (some c) c.cid

/-- Some named member has no program to start, as this member sees itself and as the others answer (R88). -/
def State.lacksProgram (s : State) (b : Barrier) (unloaded : List Nat) : Bool :=
  b.kind == 0 && b.members.any (fun m => if m = s.jig.me then s.noProgram b.group b.entry else unloaded.contains m)

theorem State.lacksProgram_iff (s : State) (b : Barrier) (l : List Nat) : s.lacksProgram b l = true ↔
    b.kind = 0 ∧ ∃ m ∈ b.members, (if m = s.jig.me then s.noProgram b.group b.entry else l.contains m) = true := by
  simp only [State.lacksProgram, Bool.and_eq_true, beq_iff_eq, List.any_eq_true]

/-- What refuses a BARRIER_ARM whose work block can be read (R85, R88). -/
def State.armRefusals (s : State) (c : Cmd) (unloaded : List Nat) : List (Bool × Status) :=
  [(!barrierFieldsOk (s.armBlock c) s.bigE, .bounds), (!s.barrierOwned (s.armedBy c), .rights),
   (s.lacksProgram (s.armedBy c) unloaded, .instrIllegal), (decide (c.a0 < s.pos + 2 * s.turnTicks), .barrierTimeout),
   (decide (maxBarriers ≤ s.spn.barriers.length), .budget), (!barrierSlots s.jig.cfg s.spn.k (s.armedBy c), .budget)]

/-- Of a barrier whose fields and owner are good, the programs are looked at before its position and its slots (R85, R88; DEDUCED:
notes/assumptions/27.md). -/
theorem State.firstFail_armRefusals {s : State} {c : Cmd} (hf : barrierFieldsOk (s.armBlock c) s.bigE = true)
    (ho : s.barrierOwned (s.armedBy c) = true) (l : List Nat) :
    firstFail (s.armRefusals c l) = if s.lacksProgram (s.armedBy c) l then some .instrIllegal
      else firstFail [(decide (c.a0 < s.pos + 2 * s.turnTicks), .barrierTimeout),
        (decide (maxBarriers ≤ s.spn.barriers.length), .budget), (!barrierSlots s.jig.cfg s.spn.k (s.armedBy c), .budget)] := by
  rw [State.armRefusals, hf, ho]
  rfl

section BarrierArm

variable {s : State} {c : Cmd} {l : List Nat} (ha : s.accepts 0x42 c = true) (hj : s.jig.loaded = true) (hc : s.bigE ≤ 1 ∨ s.isCoord = true)
  (hl : c.len = 96) (hb : s.blockFail (cmdActs c) c.addr 96 (fun p => p.r) = none)

include hj hc hl in
/-- An engine alone, or the coordinator, takes the command. -/
theorem State.armable : firstFail [(!s.jig.loaded || (decide (2 ≤ s.bigE) && !s.isCoord), .cfgLocked), (c.len != 96, .bounds)] = none := by
  rw [firstFail_none_iff]
  rcases hc with he | hk
  · simp [hj, hl, Nat.not_le.2 (Nat.lt_succ_of_le he)]
  · simp [hj, hl, hk]

include ha hj hc hl hb

theorem execBarrierArm_of_refusal {st : Status} (h : firstFail (s.armRefusals c l) = some st) : execBarrierArm c s l = s.refuses c st := by
  refine congrArg _ ((s.command_of_accepts _ _ _ ha).trans ?_)
  simp only [State.armable hj hc hl, hb]
  split
  · next st' e => cases e.symm.trans h; rfl
  · next e => cases e.symm.trans h

theorem execBarrierArm_of_good (h : firstFail (s.armRefusals c l) = none) :
    let u : State := { s with spn := { s.spn with barriers := s.spn.barriers ++ [s.armedBy c] } }
    execBarrierArm c s l = .next (if s.bigE ≤ 1 then u
      else u.sendDevice (.barrier c.a0 (Fin.ofNat 8 (cmdActs c)) (s.armBlock c) c.cid)) := by
  refine congrArg _ ((s.command_of_accepts _ _ _ ha).trans ?_)
  simp only [State.armable hj hc hl, hb]
  split
  · next st e => cases e.symm.trans h
  · rfl

end BarrierArm

/-! ### BARRIER_START (R84, R87, R88) -/

theorem execBarrierStart_of_early {s : State} (h : ∀ b ∈ s.spn.barriers, s.pos < b.pos + 2) (l : List Nat) : execBarrierStart l s = .next s := by
  have none_due : s.spn.barriers.find? (fun b => decide (b.pos + 2 ≤ s.pos)) = none := by
    simpa using h
  simp only [execBarrierStart, none_due]

/-- The start of a barrier's work leaves the jig in force. -/
theorem State.startWork_jig (s : State) (b : Barrier) : (s.startWork b).jig = s.jig := by
  unfold State.startWork
  dsimp only
  split
  · split
    · exact State.fail_jig ..
    · split
      · exact State.fail_jig ..
      · exact State.each_keeps _ State.jig _ _ fun _ _ _ => rfl
  · split
    · exact State.fail_jig ..
    · rfl

/-- The state with these barriers armed. -/
def State.withBarriers (s : State) (r : List Barrier) : State := { s with spn := { s.spn with barriers := r } }

/-- The state in which a member has missed a barrier (R87). -/
def State.missedOne (s : State) : State := { s with spn := { s.spn with missed := satAdd 16 s.spn.missed 1, ceased := true } }

section BarrierStart

variable {s : State} {b : Barrier} {r : List Barrier} {c : Cmd} (hb : s.spn.barriers = b :: r) (hp : b.pos + 2 = s.pos) (hc : b.cmd = some c)
  (hm : s.jig.me ∈ b.members)
include hb hp hc hm

/-- A named member that can start the work does so; the others' misses are then seen to. -/
theorem execBarrierStart_of_start (hs : s.cannotStart b = false) (l : List Nat) :
    let gone := l.filter fun m => b.members.contains m && m != s.jig.me
    execBarrierStart l s = .next ((((s.withBarriers r).startWork b).each gone State.declareLost).fail c
      (if gone.isEmpty then .ok else .barrierTimeout)) := by
  have due : s.spn.barriers.find? (fun b => decide (b.pos + 2 ≤ s.pos)) = some b := by simp [hb, hp]
  have rest : s.spn.barriers.erase b = r := by rw [hb, List.erase_cons_head]
  have start : (s.withBarriers r).cannotStart b = false := hs
  have me : ((s.withBarriers r).startWork b).jig.me = s.jig.me := congrArg Jig.me (State.startWork_jig _ _)
  unfold State.withBarriers at start me
  simp only [execBarrierStart, due, rest, hc, List.contains_iff_mem.2 hm, start, Bool.and_false, Bool.false_eq_true, if_false, if_true, me,
    Bool.false_or, State.withBarriers]
  cases l.filter (fun m => b.members.contains m && m != s.jig.me) <;> rfl

/-- A named member that cannot start the work counts a miss and reports it (R45, R87). -/
theorem execBarrierStart_of_miss (hs : s.cannotStart b = true) :
    execBarrierStart [] s = .next ((if s.inAssembly then (s.withBarriers r).missedOne.sendDevice (.timeout s.jig.me)
      else (s.withBarriers r).missedOne).fail c .barrierTimeout) := by
  have due : s.spn.barriers.find? (fun b => decide (b.pos + 2 ≤ s.pos)) = some b := by simp [hb, hp]
  have rest : s.spn.barriers.erase b = r := by rw [hb, List.erase_cons_head]
  have miss : (s.withBarriers r).cannotStart b = true := hs
  unfold State.withBarriers at miss
  simp only [execBarrierStart, due, rest, hc, List.contains_iff_mem.2 hm, miss, Bool.and_true, if_true, Bool.true_or, List.filter_nil,
    State.each_nil]
  rfl

end BarrierStart

/-- A member that is neither frozen nor in holdover, has not stopped, and whose group is free starts in time (R87, R201). -/
theorem State.cannotStart_of_ready {s : State} {b : Barrier} (hp : b.pos + 2 = s.pos) (z : s.frozen = false) (hh : s.spn.source ≠ .holdover)
    (hs : s.spn.stopped = false) (hg : b.kind = 0 → ∀ k ∈ s.groupCells b.group, (s.cell k).running = false) : s.cannotStart b = false := by
  simp only [State.cannotStart, Bool.or_eq_false_iff, Bool.and_eq_false_iff, z, hs, hp, bne_self_eq_false, beq_eq_false_iff_ne, ne_eq, hh,
    not_false_eq_true, and_self, true_and, List.any_eq_false, Bool.not_eq_true]
  exact or_iff_not_imp_left.2 fun hk => hg (not_not.1 hk)

theorem State.cannotStart_of_held {s : State} (b : Barrier) (h : s.frozen = true ∨ s.spn.source = .holdover ∨ s.spn.stopped = true) :
    s.cannotStart b = true := by
  rcases h with h | h | h <;> simp [State.cannotStart, h]

end Sys2Proof.Machine
end

section
/-! The obligation on the loading and starting of programs and on barriers. -/

namespace Sys2Proof.Machine

set_option Elab.async false

open Sys2Proof

/-- Settles O37: each command is refused with its first failing check, and otherwise loads, starts or arms; a barrier that is due is started by a
member that can and missed by one that cannot. -/
theorem programsLoadStartAndBarriersArm : Obligations.ProgramsLoadStartAndBarriersArm := by
  refine ⟨⟨fun s c ha => ?load, fun s c ha => ?start⟩, fun s c l ha hj hc hl hb => ?arm, fun s l h => ?early, fun s b r c hb hp hc hm => ?due⟩
  case load =>
    refine ⟨fun ho => ?rights, fun ho hg => ?noGroup, fun ho hg hl => ?busy, fun ho hg hl hf => ?starved, fun ho hg hl hf => ?passed⟩
    case rights => exact execProgLoad_of_refusal ha (by simp [State.loadRefusals, firstFail, ho])
    case noGroup => exact execProgLoad_of_refusal ha (by simp [State.loadRefusals, firstFail, ho, hg])
    case busy => exact execProgLoad_of_refusal ha (by rw [State.loadRefusals, hl]; simp [firstFail, ho, hg])
    case starved => exact execProgLoad_of_refusal ha (by rw [State.loadRefusals, hl]; simp [firstFail, ho, hg, hf])
    case passed =>
      have passed : firstFail (s.loadRefusals c) = none := by rw [State.loadRefusals, hl]; simp [firstFail, ho, hg, hf]
      have z := State.unfrozen_of_accepts ha
      have idle : s.groupBusy c.a0 = false := by
        simp only [Bool.or_eq_false_iff] at hl
        obtain ⟨⟨-, idle⟩, -⟩ := hl
        exact idle
      have fresh : s.newLoad c ∉ s.loads := State.no_load_of_idle idle rfl
      refine ⟨execProgLoad_of_unmapped ha passed, execProgLoad_of_notExecutable ha passed, fun hm hx hu =>
        ⟨fun o st i => execProgLoad_of_badImage ha passed hm hx hu, fun hi hn => ?goesOn, fun hi hn => ?ends⟩⟩
      case goesOn =>
        obtain ⟨spn, moved⟩ := State.beginsLoad_goesOn z fresh hn
        exact ⟨_, (execProgLoad_of_goodImage ha passed hm hx hu hi).trans (congrArg _ moved), rfl, rfl, rfl, rfl, rfl, rfl⟩
      case ends =>
        obtain ⟨spn, f, ended⟩ := State.beginsLoad_ends z fresh hn
        refine ⟨_, f, (execProgLoad_of_goodImage ha passed hm hx hu hi).trans (congrArg _ ended), fun k hk => State.loadImage_holds _ _ _ hk,
          fun k hk => State.loadImage_other _ _ _ hk, ?_, ?_, ?_, ?_⟩
        all_goals rw [State.loadImage_frame]
  case start =>
    refine ⟨fun ho => ?foreign, fun ho hl => ?taken, fun ho hl hn => ?noProgram, fun ho hl hn hs => ?slotless, fun ho hl hn hs => ?accepted⟩
    case foreign => exact execProgStart_of_refusal ha (by simp [State.startRefusals, firstFail, ho])
    case taken => exact execProgStart_of_refusal ha (by rw [State.startRefusals, hl]; simp [firstFail, ho])
    case noProgram => exact execProgStart_of_refusal ha (by rw [State.startRefusals, hl]; simp [firstFail, ho, hn])
    case slotless => exact execProgStart_of_refusal ha (by rw [State.startRefusals, hl]; simp [firstFail, ho, hn, hs])
    case accepted => exact execProgStart_of_good ha (by rw [State.startRefusals, hl]; simp [firstFail, ho, hn, hs])
  case arm =>
    intro blk b hf ho
    refine ⟨fun m hm hk hn => ?lacking, fun hn => ?loaded⟩
    case lacking =>
      have lacks : s.lacksProgram b l = true := (s.lacksProgram_iff b l).2 ⟨hk, m, hm, hn⟩
      exact execBarrierArm_of_refusal ha hj hc hl hb ((State.firstFail_armRefusals hf ho l).trans (if_pos lacks))
    case loaded =>
      have complete : ¬ s.lacksProgram b l = true := by
        rw [State.lacksProgram_iff]
        rintro ⟨hk, m, hm, h⟩
        exact Bool.false_ne_true ((hn hk m hm).symm.trans h)
      have later := (State.firstFail_armRefusals hf ho l).trans (if_neg complete)
      refine ⟨fun hp => ?near, fun hp hr hs => ?armed⟩
      case near =>
        have near : decide (c.a0 < s.pos + 2 * s.turnTicks) = true := decide_eq_true hp
        exact execBarrierArm_of_refusal ha hj hc hl hb (later.trans (by rw [near]; rfl))
      case armed =>
        have far := decide_eq_false (Nat.not_lt.2 hp)
        have room := decide_eq_false (Nat.not_le.2 hr)
        refine execBarrierArm_of_good ha hj hc hl hb (later.trans ((firstFail_none_iff _).2 ?_))
        simpa [State.turnTicks, maxBarriers] using ⟨far, room, hs⟩
  case early => exact execBarrierStart_of_early h l
  case due =>
    refine ⟨fun z hh hs hg => ⟨?started, fun m hmb hme => ?lost⟩, fun h => ⟨fun ha => ?alone, fun ha => ?reported⟩⟩
    case started => exact execBarrierStart_of_start hb hp hc hm (State.cannotStart_of_ready hp z hh hs hg) []
    case lost =>
      have start := execBarrierStart_of_start hb hp hc hm (State.cannotStart_of_ready hp z hh hs hg) [m]
      rwa [List.filter_cons_of_pos (by simp [hmb, hme]), List.filter_nil] at start
    case alone =>
      have miss := execBarrierStart_of_miss hb hp hc hm (State.cannotStart_of_held b h)
      rw [ha] at miss
      exact miss
    case reported =>
      have miss := execBarrierStart_of_miss hb hp hc hm (State.cannotStart_of_held b h)
      rw [ha] at miss
      exact miss

end Sys2Proof.Machine
end

section
/-! SUPPORT. The deadlines of a round, its collection and its freeze (R240, R242, R250, R260, R262, R266), and what the phases write and send leaves
alone. -/

namespace Sys2Proof.Machine

set_option Elab.async false

open Sys2Proof

/-! ### What frames, statements and directories leave alone -/

/-- State `s`, reached from `s₀` by sending frames, has kept its rounds and bindings, its cells, its page tables and device memory. -/
structure Sent (s₀ s : State) : Prop where
  agg : s.agg = s₀.agg
  cells : s.cells = s₀.cells
  mem : s.mem = s₀.mem
  ram : s.ram = s₀.ram

section Sent

variable {s₀ s : State}

theorem Sent.refl (s : State) : Sent s s := ⟨rfl, rfl, rfl, rfl⟩

theorem Sent.round (hk : Sent s₀ s) (h : Nat) : s.round h = s₀.round h := by
  simp only [State.round, hk.agg]

theorem Sent.upd (hk : Sent s₀ s) {waiting spn fab out} : Sent s₀ { s with waiting := waiting, spn := spn, fab := fab, out := out } :=
  ⟨hk.agg, hk.cells, hk.mem, hk.ram⟩

theorem Sent.ite {c : Prop} {_ : Decidable c} {t : State} (hk : Sent s₀ s) (ht : Sent s₀ t) : Sent s₀ (if c then s else t) := by
  split
  · exact hk
  · exact ht

theorem Sent.each (hk : Sent s₀ s) {α : Type} {l : List α} {f : State → α → State} (hf : ∀ u a, Sent s₀ u → Sent s₀ (f u a)) :
    Sent s₀ (s.each l f) :=
  State.each_induct s (Sent s₀) f l (fun u a _ => hf u a) hk

theorem Sent.numberFrame (hk : Sent s₀ s) {p kind owner route dst len : Nat} : Sent s₀ (s.numberFrame p kind owner route dst len) :=
  .ite hk.upd hk

theorem Sent.launch (hk : Sent s₀ s) {f : PortFrame} : Sent s₀ (s.launch f) :=
  (Sent.numberFrame (.upd (.ite hk.upd hk))).upd

theorem Sent.sendFrame (hk : Sent s₀ s) {f : PortFrame} : Sent s₀ (s.sendFrame f) := .ite hk (.ite hk.upd (.ite hk.launch hk.upd))

theorem Sent.sendTo (hk : Sent s₀ s) {owner member n : Nat} {o : Nat → Out} : Sent s₀ (s.sendTo owner member n o) := by
  unfold State.sendTo
  split
  · exact hk.sendFrame
  · exact hk

theorem Sent.sendData (hk : Sent s₀ s) {owner member : Nat} {bs : List Byte} {o : Nat → List Byte → Bool → Out} :
    Sent s₀ (s.sendData owner member bs o) := hk.each fun _ _ hu => hu.sendTo

/-- What the freeze exchange sends (R260). -/
theorem Sent.sendFreeze (hk : Sent s₀ s) {h : Nat} : Sent s₀ (s.sendFreeze h) := by
  refine hk.each fun u c hu => ?_
  split
  · exact hu
  · exact .ite (hu.each fun _ _ hv => hv.sendData) hu.sendData

end Sent

section Writes

variable (s : State) (t va n h : Nat) (bs : List Byte)

@[simp] theorem State.writeVA_agg : (s.writeVA t va bs n).agg = s.agg := by rw [State.writeVA_frame]
@[simp] theorem State.writeVA_cells : (s.writeVA t va bs n).cells = s.cells := by rw [State.writeVA_frame]
@[simp] theorem State.writeVA_mem : (s.writeVA t va bs n).mem = s.mem := by rw [State.writeVA_frame]
@[simp] theorem State.writeVA_hif : (s.writeVA t va bs n).hif = s.hif := by rw [State.writeVA_frame]

/-- Signing takes uses of keys and a draw, and the block is written through the tenant's space (R477). -/
theorem State.writeSigned_spec :
    (s.writeSigned t va bs).agg = s.agg ∧ (s.writeSigned t va bs).cells = s.cells ∧ (s.writeSigned t va bs).mem = s.mem :=
  ⟨State.writeVA_agg .., State.writeVA_cells .., State.writeVA_mem ..⟩

theorem State.writeStatement_spec :
    (s.writeStatement h).agg = s.agg ∧ (s.writeStatement h).cells = s.cells ∧ (s.writeStatement h).mem = s.mem := by
  unfold State.writeStatement
  dsimp only
  split
  · exact State.writeSigned_spec ..
  · exact ⟨rfl, rfl, rfl⟩

theorem State.writeDirectories_spec : (s.writeDirectories h).agg = s.agg ∧ (s.writeDirectories h).cells = s.cells ∧
    (s.writeDirectories h).mem = s.mem ∧ (s.writeDirectories h).hif = s.hif := by
  unfold State.writeDirectories
  dsimp only
  split
  · exact ⟨rfl, rfl, rfl, rfl⟩
  · refine ⟨State.each_keeps _ State.agg _ _ ?_, State.each_keeps _ State.cells _ _ ?_, State.each_keeps _ State.mem _ _ ?_,
      State.each_keeps _ State.hif _ _ ?_⟩ <;> simp

end Writes

/-! ### ROUND_SET_DEADLINE and DEADLINE_CHANGE (R242) -/

/-- What refuses a ROUND_SET_DEADLINE (R242). -/
def State.deadlineRefusals (s : State) (c : Cmd) : List (Bool × Status) :=
  [(!(s.round c.a0).state.early, .roundClosed),
   (c.a1 % s.turnTicks != 0 || decide (c.a1 ≤ (s.round c.a0).lastDeadline), .bounds),
   (decide (c.a1 < s.pos + 150000 + 2 ^ (s.spn.k + 1)), .barrierTimeout)]

section SetDeadline

variable {s : State} {c : Cmd} (ha : s.accepts 0x51 c = true) (hk : s.coordCmd c = none)
include ha hk

theorem execRoundSetDeadline_of_refusal {st : Status} (h : firstFail (s.deadlineRefusals c) = some st) :
    execRoundSetDeadline c s = s.refuses c st := by
  refine congrArg _ ((s.command_of_accepts _ _ _ ha).trans ?_)
  unfold State.deadlineRefusals at h
  simp only [hk, h]

theorem execRoundSetDeadline_of_good (h : firstFail (s.deadlineRefusals c) = none) :
    let b := s.boundaryFrom (s.pos + 150000)
    let u := s.updRound c.a0 fun r => { r with newDeadlines := r.newDeadlines ++ [(b, c.a1, some c)] }
    execRoundSetDeadline c s = .next (if 2 ≤ s.bigE then u.sendDevice (.deadlineNotice (Fin.ofNat 64 c.a0) c.a1 b) else u) := by
  refine congrArg _ ((s.command_of_accepts _ _ _ ha).trans ?_)
  unfold State.deadlineRefusals at h
  simp only [hk, h]

end SetDeadline

section DeadlineChange

variable {s : State} {h : Handle} {b d : Nat} {c : Cmd} {rest : List (Nat × Nat × Option Cmd)}
  (hn : (s.round h.val).newDeadlines = (b, d, some c) :: rest) (hd : s.due b = true)
include hn hd

/-- While the round is ARMED or COLLECTING the change applies, and the statement is written again with REVISION raised. -/
theorem execDeadlineChange_of_early (he : (s.round h.val).state.early = true) :
    ∃ u : State, execDeadlineChange h s = .next (u.ok c) ∧
      u.round h.val = { s.round h.val with
        newDeadlines := rest, pShareEnd := (s.round h.val).pShareEnd + (d - (s.round h.val).pDeadline), pDeadline := d,
        revision := ((s.round h.val).revision + 1) % 256 } ∧ u.cells = s.cells ∧ u.mem = s.mem := by
  simp only [execDeadlineChange, hn, hd, if_true, State.updRound_eq, State.round_setRound, he]
  obtain ⟨agg, cells, mem⟩ := State.writeStatement_spec ((s.setRound h.val _).setRound h.val _) h.val
  exact ⟨_, rfl, by rw [State.round, agg]; exact State.round_setRound .., cells, mem⟩

theorem execDeadlineChange_of_late (he : (s.round h.val).state.early = false) :
    execDeadlineChange h s = .next ((s.updRound h.val fun r => { r with newDeadlines := rest }).fail c .roundClosed) := by
  simp only [execDeadlineChange, hn, hd, if_true, State.updRound_eq, State.round_setRound, he]
  rfl

end DeadlineChange

/-! ### COLLECT_START and DEADLINE (R240, R250, R262, R266) -/

section CollectStart

variable {s : State} {h : Handle} (hs : (s.round h.val).state = .armed) (hd : s.due (s.round h.val).pCollect = true)
include hs hd

theorem execCollectStart_of_covered (hc : s.covered h.val = true) :
    ∃ u, execCollectStart h true s = .next u ∧ u.round h.val = { s.round h.val with state := .collecting } ∧
      u.cells = s.cells ∧ u.mem = s.mem ∧ u.hif = s.hif := by
  obtain ⟨agg, cells, mem, hif⟩ := s.writeDirectories_spec h.val
  refine ⟨_, (if_pos (by simp [hs, hd])).trans (if_pos (by simp [hc])), ?_, cells, mem, hif⟩
  rw [State.updRound_eq, State.round_setRound, State.round, agg]
  rfl

theorem execCollectStart_of_uncovered {peers : Bool} (hc : (s.covered h.val && peers) = false) :
    execCollectStart h peers s = .next (s.abortRound h.val .cfgMismatch true) :=
  (if_pos (by simp [hs, hd])).trans (if_neg (by simp [hc]))

end CollectStart

theorem execDeadline_of_collecting {s : State} {h : Handle} (hs : (s.round h.val).state = .collecting)
    (hd : s.due (s.round h.val).pDeadline = true) :
    execDeadline h s = .next (s.updRound h.val fun r => { r with
      state := .frozen, batches := r.batches ++ r.bins, bins := [], drained := r.mirrorQueue.isEmpty }) :=
  if_pos (by simp [hs, hd])

/-! ### Cohort by cohort -/

/-- A round with another table of cohorts. -/
def Round.withCohorts (r : Round) (cs : Tab CohortRec) : Round := { r with cohorts := cs }

theorem Round.cohort_setCohort_other (r : Round) {c k : Nat} (v : CohortRec) (h : k ≠ c) : (r.setCohort c v).cohort k = r.cohort k :=
  Tab.look_put_other _ _ _ _ _ h

/-- A step of a pass over the cohorts of a round writes its own cohort, or nothing. -/
def CohortStep (f : Round → Nat → Round) : Prop := ∀ r c, f r c = r ∨ ∃ v, f r c = r.setCohort c v

section CohortStep

variable {f : Round → Nat → Round} (hf : CohortStep f)
include hf

theorem CohortStep.withCohorts (r : Round) (c : Nat) : ∃ cs, f r c = r.withCohorts cs := by
  rcases hf r c with e | ⟨v, e⟩
  · exact ⟨r.cohorts, e⟩
  · exact ⟨_, e⟩

theorem CohortStep.other (r : Round) {c k : Nat} (h : k ≠ c) : (f r c).cohort k = r.cohort k := by
  rcases hf r c with e | ⟨v, e⟩
  · rw [e]
  · rw [e, Round.cohort_setCohort_other r v h]

/-- A pass leaves all of the round but its cohorts. -/
theorem CohortStep.foldl_withCohorts (l : List Nat) (r : Round) : ∃ cs, l.foldl f r = r.withCohorts cs := by
  induction l generalizing r with
  | nil => exact ⟨r.cohorts, rfl⟩
  | cons a l ih =>
    obtain ⟨cs, e⟩ := hf.withCohorts r a
    rw [List.foldl_cons, e]
    exact ih (r.withCohorts cs)

theorem CohortStep.foldl_other {l : List Nat} {k : Nat} (h : k ∉ l) (r : Round) : (l.foldl f r).cohort k = r.cohort k := by
  induction l generalizing r with
  | nil => rfl
  | cons a l ih =>
    obtain ⟨ha, hl⟩ := List.ne_and_not_mem_of_not_mem_cons h
    rw [List.foldl_cons, ih hl, hf.other r ha]

/-- A pass over different cohorts leaves in each what its own step does, from a round in which that cohort is as it was. -/
theorem CohortStep.foldl_own {l : List Nat} (hl : l.Nodup) {k : Nat} (hk : k ∈ l) (r : Round) :
    ∃ cs, (r.withCohorts cs).cohort k = r.cohort k ∧ (l.foldl f r).cohort k = (f (r.withCohorts cs) k).cohort k := by
  induction l generalizing r with
  | nil => cases hk
  | cons a l ih =>
    obtain ⟨ha, hl⟩ := List.nodup_cons.1 hl
    rw [List.foldl_cons]
    rcases List.mem_cons.1 hk with rfl | hm
    · exact ⟨r.cohorts, rfl, hf.foldl_other ha (f r k)⟩
    · obtain ⟨cs, e⟩ := hf.withCohorts r a
      obtain ⟨ds, same, own⟩ := ih hl hm (f r a)
      rw [e] at same own ⊢
      refine ⟨ds, same.trans ?_, own⟩
      rw [← e, hf.other r fun h : k = a => ha (h ▸ hm)]

end CohortStep

/-! ### FREEZE_EXCHANGE (R49, R260, R262, R288) -/

/-- Round `r` with every open bin a batch, its mirrors drained, and another table of cohorts: as a freeze leaves it (R260, R262). -/
def Round.frozenWith (r : Round) (cs : Tab CohortRec) : Round :=
  { r with batches := r.batches ++ r.bins, bins := [], drained := true, cohorts := cs }

/-- The freeze of one cohort, as `State.freezeAll` does it (R260, R288). -/
def State.freezeStep (s : State) (l m : List Nat) (homes : List HomeSets) (x : Round) (c : Nat) : Round :=
  match s.home x c with
  | none => x.setCohort c { x.cohort c with published := true, reason := if (x.cohort c).reason = 0 then 5 else (x.cohort c).reason }
  | some k =>
    if k = s.jig.me then x.freeze s.jig.me c l m
    else match homes.find? (fun y => y.cohort == c) with | some y => x.takeSets y | none => x

section Freeze

variable (s : State) (r : Round) (l m : List Nat) (homes : List HomeSets)

/-- The sets are worked out from chunks, bits and keys, which a freeze leaves alone. -/
theorem Round.freezeSets_frozenWith (cs : Tab CohortRec) (me c : Nat) :
    (r.frozenWith cs).freezeSets me c l m = r.freezeSets me c l m := rfl

theorem State.home_frozenWith (cs : Tab CohortRec) (c : Nat) : s.home (r.frozenWith cs) c = s.home r c := rfl

theorem State.freezeAll_eq : s.freezeAll r l m homes =
    (List.range r.sizes.length).foldl (s.freezeStep l m homes) (r.frozenWith r.cohorts) := rfl

theorem Round.freeze_cohortStep (me : Nat) : CohortStep fun x c => x.freeze me c l m := fun x c => by
  unfold Round.freeze
  dsimp only
  split <;> exact .inr ⟨_, rfl⟩

theorem State.freezeStep_cohortStep : CohortStep (s.freezeStep l m homes) := fun x c => by
  unfold State.freezeStep
  split
  · exact .inr ⟨_, rfl⟩
  split
  · exact Round.freeze_cohortStep l m s.jig.me x c
  split
  · next y hy =>
    have own : y.cohort = c := by simpa using List.find?_some hy
    subst own
    exact .inr ⟨_, rfl⟩
  · exact .inl rfl

theorem State.freezeAll_frame : ∃ cs, s.freezeAll r l m homes = r.frozenWith cs := by
  rw [State.freezeAll_eq]
  exact (s.freezeStep_cohortStep l m homes).foldl_withCohorts _ (r.frozenWith r.cohorts)

variable {r} {c : Nat} (hc : c < r.sizes.length)
include hc

/-- What the freeze leaves of a cohort is what its own step makes of it. -/
theorem State.freezeAll_own : ∃ cs, (r.frozenWith cs).cohort c = r.cohort c ∧
    (s.freezeAll r l m homes).cohort c = (s.freezeStep l m homes (r.frozenWith cs) c).cohort c := by
  rw [State.freezeAll_eq]
  exact (s.freezeStep_cohortStep l m homes).foldl_own List.nodup_range (List.mem_range.2 hc) (r.frozenWith r.cohorts)

theorem State.freezeAll_of_home (hh : s.home r c = some s.jig.me) (hr : r.repair = false) :
    (s.freezeAll r l m homes).cohort c = { r.cohort c with
      s := (r.freezeSets s.jig.me c l m).1, d := (r.freezeSets s.jig.me c l m).2.1, published := true,
      reason := if (r.freezeSets s.jig.me c l m).2.2 then 2 else 0 } := by
  obtain ⟨cs, same, own⟩ := s.freezeAll_own l m homes hc
  have own_sets : (r.frozenWith cs).repair = false := hr
  simp only [own, State.freezeStep, State.home_frozenWith, hh, if_true, Round.freeze, own_sets, Round.freezeSets_frozenWith,
    Bool.false_eq_true, if_false, Round.cohort_setCohort, same]
  rfl

theorem State.freezeAll_of_other {k : Nat} (hh : s.home r c = some k) (hk : k ≠ s.jig.me) (hr : r.repair = false) {x : HomeSets}
    (hx : homes.find? (fun y => y.cohort == c) = some x) :
    (s.freezeAll r l m homes).cohort c = { r.cohort c with
      s := x.survivors, d := x.dropped, published := true,
      reason := if (r.cohort c).reason = 0 then x.reason else (r.cohort c).reason } := by
  obtain ⟨cs, same, own⟩ := s.freezeAll_own l m homes hc
  have names : x.cohort = c := by simpa using List.find?_some hx
  have own_sets : (r.frozenWith cs).repair = false := hr
  simp only [own, State.freezeStep, State.home_frozenWith, hh, if_neg hk, hx, Round.takeSets, names, own_sets, Bool.false_eq_true, if_false,
    Round.cohort_setCohort, same]

theorem State.freezeAll_of_homeless (hh : s.home r c = none) :
    (s.freezeAll r l m homes).cohort c = { r.cohort c with
      published := true, reason := if (r.cohort c).reason = 0 then 5 else (r.cohort c).reason } := by
  obtain ⟨cs, same, own⟩ := s.freezeAll_own l m homes hc
  simp only [own, State.freezeStep, State.home_frozenWith, hh, Round.cohort_setCohort, same]

end Freeze

/-- Once the mirrors are empty and the other home engines have published, the sets of every cohort are published (R260). -/
theorem execFreezeExchange_of_ready {s : State} {h : Handle} {dr : Bool} {l m : List Nat} {hs : List HomeSets}
    (hf : (s.round h.val).state = .frozen) (hd : s.due ((s.round h.val).pDeadline + 2 ^ (s.spn.k + 2)) = true)
    (hq : (s.round h.val).mirrorQueue = []) (ht : dr = true ∨ s.twin (s.round h.val) = none)
    (hp : ((s.round h.val).cohort 0).published = false)
    (hh : ∀ c k, c < (s.round h.val).sizes.length → s.home (s.round h.val) c = some k → k ≠ s.jig.me →
      hs.any (fun x => x.cohort == c) = true) :
    execFreezeExchange h l m s dr hs =
      .next ((s.setRound h.val (s.freezeAll (s.round h.val) l m hs)).sendFreeze h.val) := by
  have known : ((List.range (s.round h.val).sizes.length).all fun c => match s.home (s.round h.val) c with
      | some k => k == s.jig.me || hs.any (fun x => x.cohort == c)
      | none => true) = true := by
    refine List.all_eq_true.2 fun c hc => ?_
    split
    · next k e =>
      by_cases hk : k = s.jig.me
      · simp [hk]
      · rw [hh c k (List.mem_range.1 hc) e hk, Bool.or_true]
    · rfl
  have alone : (dr || (s.twin (s.round h.val)).isNone) = true := by simpa using ht
  refine if_pos ?_
  simp only [hf, hd, hq, alone, hp]
  exact known

end Sys2Proof.Machine
end

section
/-! SUPPORT. UNMASKING entry and the end of the shares (R240, R280, R284, R290, R372). -/

namespace Sys2Proof.Machine

set_option Elab.async false

open Sys2Proof

/-! ### Writes of round memory (R261, R372) -/

section RoundMemory

variable (s : State) (t va n k : Nat) (bs : List Byte)

@[simp] theorem State.zeroVA_agg : (s.zeroVA t va n).agg = s.agg := State.each_keeps _ State.agg _ _ fun _ _ _ => rfl
@[simp] theorem State.zeroVA_cells : (s.zeroVA t va n).cells = s.cells := State.each_keeps _ State.cells _ _ fun _ _ _ => rfl
@[simp] theorem State.zeroVA_mem : (s.zeroVA t va n).mem = s.mem := State.each_keeps _ State.mem _ _ fun _ _ _ => rfl

@[simp] theorem State.round_zeroVA : (s.zeroVA t va n).round k = s.round k := by
  simp only [State.round, State.zeroVA_agg]

@[simp] theorem State.round_writeVA : (s.writeVA t va bs n).round k = s.round k := by
  simp only [State.round, State.writeVA_agg]

end RoundMemory

/-! ### UNMASKING_ENTRY (R240, R280, R290) -/

/-- The phase of round `h`, with the cells and the page tables. -/
def State.phase (s : State) (h : Nat) : RoundState × Tab Cell × Mem := ((s.round h).state, s.cells, s.mem)

/-- A write of bindings moves no phase. -/
theorem State.each_setBind_phase (s : State) (h : Nat) (l : List (Nat × Bind)) (f : Nat × Bind → Bind) :
    (s.each l fun u e => u.setBind e.1 (f e)).phase h = s.phase h :=
  State.each_keeps s (State.phase · h) _ l fun _ _ _ => rfl

/-- Gathering held chunks into batches writes round memory and lists the batches (R372). -/
theorem State.gatherHeld_phase (s : State) (h : Nat) : (s.gatherHeld h).phase h = s.phase h := by
  have batch (u : State) (c j : Nat) (l : List (List Nat)) : (u.gatherBatch h c j l).phase h = u.phase h := by
    simp [State.gatherBatch, State.phase]
  unfold State.gatherHeld
  dsimp only
  split
  · rfl
  · exact State.each_keeps s (State.phase · h) _ _ fun u c _ => State.each_keeps u (State.phase · h) _ _ fun v j _ =>
      State.each_keeps v (State.phase · h) _ _ fun w l _ => batch w c j l

/-- A coordinator that is in HOST_LOST arms delivery with its event; that moves no phase (R512). -/
theorem State.armDelivery_event_phase (s : State) (h q cls status source detail : Nat) :
    ((s.armDelivery h).event q cls status source detail).phase h = s.phase h := by
  have kept (u : State) : (u.event q cls status source detail).phase h = u.phase h := by simp [State.phase, State.round]
  rw [kept]
  simp [State.armDelivery, State.phase]

theorem execUnmaskingEntry_of_published {s : State} {h : Handle} (hs : (s.round h.val).state = .frozen)
    (hp : ((s.round h.val).cohort 0).published = true) (hd : s.due ((s.round h.val).pDeadline + 2 ^ (s.spn.k + 4)) = true)
    (hv : s.verdictsIn (s.round h.val) = true) :
    ∃ u, execUnmaskingEntry h s = .next u ∧ u.phase h.val = (.unmasking, s.cells, s.mem) := by
  refine ⟨_, if_pos (by simp [hs, hp, hd, hv]), ?_⟩
  -- The round is UNMASKING once its cohorts have been entered; what follows moves no phase.
  have entered (r : Round) (l : List (Nat × Bind)) (f : Nat × Bind → Bind) :
      ((s.setRound h.val { r with state := .unmasking }).each l (fun u e => u.setBind e.1 (f e))).phase h.val =
        (.unmasking, s.cells, s.mem) := by
    rw [State.each_setBind_phase]
    simp [State.phase]
  split
  · rw [State.armDelivery_event_phase, State.gatherHeld_phase]
    exact entered _ _ _
  · rw [State.gatherHeld_phase]
    exact entered _ _ _

/-! ### SHARE_END (R284) -/

theorem Round.settle_cohortStep : CohortStep Round.settle := fun r c => by
  unfold Round.settle
  dsimp only
  split
  · exact .inl rfl
  · exact .inr ⟨_, rfl⟩

theorem Round.settled_settle {r : Round} {c : Nat} (h : (r.cohort c).reason = 0) : ((r.settle c).cohort c).settled = true := by
  simp [Round.settle, CohortRec.discarded, h]

/-- Every kept cohort of the round settles, and nothing else is written (R284). -/
theorem Round.settleAll_spec (r : Round) :
    (∀ c, c < r.sizes.length → (r.cohort c).reason = 0 →
      (((List.range r.sizes.length).foldl Round.settle r).cohort c).settled = true) ∧
    (∀ c, r.sizes.length ≤ c → ((List.range r.sizes.length).foldl Round.settle r).cohort c = r.cohort c) := by
  refine ⟨fun c hc hr => ?_, fun c hc => Round.settle_cohortStep.foldl_other (by simpa using hc) r⟩
  obtain ⟨cs, same, own⟩ := Round.settle_cohortStep.foldl_own List.nodup_range (List.mem_range.2 hc) r
  rw [own]
  exact Round.settled_settle (by rw [same, hr])

theorem execShareEnd_of_due {s : State} {h : Handle} (hs : (s.round h.val).state = .unmasking)
    (hd : s.due (s.round h.val).pShareEnd = true) : execShareEnd h s =
      .next (s.setRound h.val ((List.range (s.round h.val).sizes.length).foldl Round.settle (s.round h.val))) :=
  if_pos (by simp [hs, hd])

end Sys2Proof.Machine
end

section
/-! The obligation on the phases of a round. -/

namespace Sys2Proof.Machine

set_option Elab.async false

open Sys2Proof

/-- Settles O39: each phase is its one guarded effect; a freeze and a settlement go cohort by cohort, each step writing its own cohort alone. -/
theorem roundPhasesFollowTheirPositions : Obligations.RoundPhasesFollowTheirPositions := by
  refine ⟨fun s c ha hk he => ?setDeadline,
    fun s h b d c rest hn hd => ⟨execDeadlineChange_of_early hn hd, execDeadlineChange_of_late hn hd⟩,
    fun s h hs hd => ⟨execCollectStart_of_covered hs hd, fun hc => execCollectStart_of_uncovered hs hd (by simp [hc]),
      execCollectStart_of_uncovered hs hd (Bool.and_false _)⟩,
    fun s h => execDeadline_of_collecting, fun s h dr l m hs hf hd hq ht hp hr hh => ?freeze, fun s h hs hp hd hv => ?unmasking,
    fun s h hs hd => ⟨_, execShareEnd_of_due hs hd, rfl, rfl, rfl, ?shareEnd⟩⟩
  case setDeadline =>
    refine ⟨fun hb => ?bounds, fun hm hl => ⟨fun hp => ?near, fun hp => ?accepted⟩⟩
    case bounds =>
      have out : (c.a1 % s.turnTicks != 0 || decide (c.a1 ≤ (s.round c.a0).lastDeadline)) = true := by simpa [State.turnTicks] using hb
      exact execRoundSetDeadline_of_refusal ha hk (by simp [State.deadlineRefusals, firstFail, he, out])
    all_goals
      have inside : (c.a1 % s.turnTicks != 0 || decide (c.a1 ≤ (s.round c.a0).lastDeadline)) = false := by
        simpa [State.turnTicks, hm] using hl
    case near => exact execRoundSetDeadline_of_refusal ha hk (by simp [State.deadlineRefusals, firstFail, he, inside, hp])
    case accepted => exact execRoundSetDeadline_of_good ha hk (by simp [State.deadlineRefusals, firstFail, he, inside, hp])
  case freeze =>
    have sent : Sent (s.setRound h.val (s.freezeAll (s.round h.val) l m hs))
        ((s.setRound h.val (s.freezeAll (s.round h.val) l m hs)).sendFreeze h.val) := (Sent.refl _).sendFreeze
    refine ⟨_, execFreezeExchange_of_ready hf hd hq ht hp hh, ?_, sent.cells, sent.mem, sent.ram, fun c hc => ?_⟩
    all_goals rw [sent.round, State.round_setRound]
    · obtain ⟨cs, e⟩ := s.freezeAll_frame (s.round h.val) l m hs
      rw [e]
      exact hf
    cases hk : s.home (s.round h.val) c with
    | none =>
      rw [s.freezeAll_of_homeless l m hs hc hk]
      refine ⟨rfl, nofun, nofun, fun _ => ?_⟩
      by_cases h0 : ((s.round h.val).cohort c).reason = 0 <;> simp [CohortRec.discarded, h0]
    | some k =>
      by_cases me : k = s.jig.me
      · subst me
        rw [s.freezeAll_of_home l m hs hc hk hr]
        refine ⟨rfl, fun _ => ⟨rfl, rfl, ?_⟩, fun k x e ne => absurd (Option.some.inj e).symm ne, nofun⟩
        cases ((s.round h.val).freezeSets s.jig.me c l m).2.2 <;> simp
      · obtain ⟨x, hx⟩ := Option.isSome_iff_exists.1 (List.find?_isSome.2 (List.any_eq_true.1 (hh c k hc hk me)))
        rw [s.freezeAll_of_other l m hs hc hk me hr hx]
        refine ⟨rfl, fun e => absurd (Option.some.inj e) me, fun _ y _ _ hy => ?_, nofun⟩
        obtain rfl : x = y := Option.some.inj (hx.symm.trans hy)
        exact ⟨rfl, rfl⟩
  case unmasking =>
    obtain ⟨u, e, phase⟩ := execUnmaskingEntry_of_published hs hp hd hv
    simp only [State.phase, Prod.mk.injEq] at phase
    exact ⟨u, e, phase⟩
  case shareEnd =>
    rw [State.round_setRound]
    exact (s.round h.val).settleAll_spec

end Sys2Proof.Machine
end

section
/-! SUPPORT. Client messages: what an ingest engine takes, and what a KEYEX, a CONTRIB, a SHARE and an ABORT do (R241, R244 to R259, R282). -/

namespace Sys2Proof.Machine

set_option Elab.async false

open Sys2Proof

/-! ### What an ingest engine takes (R41, R254 to R256) -/

/-- The bytes of a message are counted by its ingest engine. -/
def State.countBytes (s : State) (e : Nat) (m : MsgHeader) : State :=
  s.updIngest e fun y => { y with bytes := wrapAdd 48 y.bytes m.totalLength }

/-- Ingest engine `e` takes message `x` from port `p` now, and its round, which this member handles, is that of handle `h`. -/
structure State.Takes (s : State) (p : PortId) (x : ClientMsg) (e h : Nat) : Prop where
  up : (s.port p.val).state = 1
  role : (s.port p.val).role = if (msgHeader x).forwarded then 1 else 2
  engine : s.ingestEngine (msgHeader x).tenant (msgHeader x).client = some e
  slot : s.mayIssue (msgHeader x).tenant .ingest e = true
  round : s.matchRound (msgHeader x).tenant (msgHeader x).round = some h
  mine : s.handler (s.round h) (msgHeader x) = some (some s.jig.me)

section Counted

variable (s : State) (e h : Nat) (m : MsgHeader) (r : Round)

@[simp] theorem State.round_countBytes : (s.countBytes e m).round h = s.round h := rfl
@[simp] theorem State.messageFail_countBytes (x : MsgHeader) (ty : Nat) (ok dup : Bool) :
    (s.countBytes e m).messageFail r x ty ok dup = s.messageFail r x ty ok dup := rfl
@[simp] theorem State.twin_countBytes : (s.countBytes e m).twin r = s.twin r := rfl
@[simp] theorem State.mirrorLimit_countBytes (k : Nat) : (s.countBytes e m).mirrorLimit r k = s.mirrorLimit r k := rfl

end Counted

section Takes

variable {s : State} {p : PortId} {x : ClientMsg} {e h : Nat} (hk : s.Takes p x e h) {ty : Nat}
include hk

/-- The port is in service, and of the role by which a message comes. -/
theorem State.Takes.port_good : ¬ ((s.port p.val).state != 1 ||
    (if (msgHeader x).forwarded then (s.port p.val).role != 1 else (s.port p.val).role != 2)) = true := by
  rw [hk.up, hk.role]
  cases (msgHeader x).forwarded <;> decide

/-- A message that is not of the type's header is counted and dropped (R256). -/
theorem State.Takes.drops (ht : headerOk ty (msgHeader x) = false) (rest : State → Nat → State) :
    s.ingest p x ty rest = (s.countBytes e (msgHeader x)).dropMessage e := by
  refine (if_neg hk.port_good).trans ?_
  simp only [hk.engine, hk.slot, ht, Bool.not_true, Bool.not_false, Bool.false_eq_true, if_false, if_true]
  rfl

/-- A message of the type's header is counted and goes to the row of its type (R256). -/
theorem State.Takes.goesOn (ht : headerOk ty (msgHeader x) = true) (rest : State → Nat → State) :
    s.ingest p x ty rest = rest (s.countBytes e (msgHeader x)) h := by
  refine (if_neg hk.port_good).trans ?_
  have found : (s.countBytes e (msgHeader x)).matchRound (msgHeader x).tenant (msgHeader x).round = some h := hk.round
  have mine : (s.countBytes e (msgHeader x)).handler ((s.countBytes e (msgHeader x)).round h) (msgHeader x) = some (some s.jig.me) := hk.mine
  unfold State.countBytes at found mine ⊢
  simp only [hk.engine, hk.slot, ht, found, mine, Bool.not_true, Bool.false_eq_true, if_false, if_true]

end Takes

/-! ### KEYEX (R246 to R249) -/

/-- A client's keys are entered. -/
def Round.enterKey (r : Round) (x wrapped maskKey : Nat) : Round :=
  { r.setClient x { r.client x with keyex := true, keyHeld := true, wrapped := wrapped, maskKey := maskKey } with
    keyexAccepted := r.keyexAccepted + 1 }

@[simp] theorem Round.client_enterKey (r : Round) (x wrapped maskKey : Nat) : (r.enterKey x wrapped maskKey).client x =
    { r.client x with keyex := true, keyHeld := true, wrapped := wrapped, maskKey := maskKey } := by
  simp [Round.enterKey, Round.client, Round.setClient]

/-- An accepted KEYEX enters the client's keys; the uses of keys that it counts and the frames that it sends leave rounds, cells and page tables
alone. -/
theorem State.acceptKeyex_spec (s : State) (h : Nat) (x : ClientMsg) :
    (s.acceptKeyex h x).round h = (s.round h).enterKey (msgHeader x).client
      (wrapKey (s.wrappingKey (s.round h)) (s.sessionKey (s.round h) x)) (keyexMaskKey x.payload) ∧
    (s.acceptKeyex h x).cells = s.cells ∧ (s.acceptKeyex h x).mem = s.mem := by
  have counted {β : Type} (g : State → β) (hg : ∀ u i, g (State.countKey u i) = g u) :
      g (s.each ((s.round h).keyEntries.take 2) State.countKey) = g s := s.each_keeps g _ _ fun u i _ => hg u i
  have sent : Sent ((s.each ((s.round h).keyEntries.take 2) State.countKey).updRound h fun r => r.enterKey (msgHeader x).client
      (wrapKey (s.wrappingKey (s.round h)) (s.sessionKey (s.round h) x)) (keyexMaskKey x.payload)) (s.acceptKeyex h x) :=
    ((Sent.refl _).each fun _ _ hu => hu.sendTo).upd
  refine ⟨?_, sent.cells.trans (counted State.cells fun _ _ => rfl), sent.mem.trans (counted State.mem fun _ _ => rfl)⟩
  rw [sent.round, State.updRound_eq, State.round_setRound, counted (State.round · h) fun _ _ => rfl]

section Keyex

variable {s : State} {p : PortId} {x : ClientMsg} {e h : Nat} (hk : s.Takes p x e h) (ht : headerOk 1 (msgHeader x) = true) {ok : Bool}
include hk ht

theorem execKeyex_of_refusal {st : Status} (hf : s.messageFail (s.round h) (msgHeader x) 1 (keyexOk x.payload ok)
    ((s.round h).client (msgHeader x).client).keyHeld = some st) :
    execKeyex p x.head x.payload x.toMsgSeen ok s = .next ((s.countBytes e (msgHeader x)).refuse h (msgHeader x) st) := by
  refine congrArg _ ((hk.goesOn ht _).trans ?_)
  simp only [State.round_countBytes, State.messageFail_countBytes, hf]

theorem execKeyex_of_good (hf : s.messageFail (s.round h) (msgHeader x) 1 (keyexOk x.payload ok)
    ((s.round h).client (msgHeader x).client).keyHeld = none) :
    execKeyex p x.head x.payload x.toMsgSeen ok s = .next ((s.countBytes e (msgHeader x)).acceptKeyex h x) := by
  refine congrArg _ ((hk.goesOn ht _).trans ?_)
  simp only [State.round_countBytes, State.messageFail_countBytes, hf]

end Keyex

/-! ### CONTRIB (R251, R257 to R262) -/

/-- The chunks that round `h` has accepted, with the cells and the page tables. -/
def State.accepted (s : State) (h : Nat) : Nat × Tab Cell × Mem := ((s.round h).chunksAccepted, s.cells, s.mem)

/-- Pressure flushes accept no chunk. -/
theorem Round.relieve_chunksAccepted (fuel : Nat) (r : Round) : (Round.relieve fuel r).chunksAccepted = r.chunksAccepted := by
  induction fuel generalizing r with
  | zero => rfl
  | succ fuel ih =>
    unfold Round.relieve
    split
    · split
      · rfl
      · exact ih _
    · rfl

theorem State.fillBin_accepted (s : State) (h : Nat) (b : Bin) (l : List Nat) : (s.fillBin h b l).accepted h = s.accepted h := by
  unfold State.fillBin State.accepted
  simp only [State.updRound_eq, State.round_setRound, State.round_writeVA, Round.relieve_chunksAccepted, State.setRound_cells,
    State.setRound_mem, State.writeVA_cells, State.writeVA_mem]
  split <;> rfl

theorem State.takeBin_accepted {s u : State} {h c j : Nat} {b : Bin} (e : s.takeBin h c j = some (b, u)) : u.accepted h = s.accepted h := by
  unfold State.takeBin at e
  dsimp only at e
  split at e
  · cases e
    rfl
  split at e
  · cases e
  · cases e
    simp [State.accepted]

/-- A chunk that is taken is counted; beside its round, only device memory is written. -/
theorem State.takeChunk_accepted {s u : State} {h : Nat} {m : MsgHeader} {l : List Nat} (e : s.takeChunk h m l = some u) :
    u.accepted h = ((s.round h).chunksAccepted + 1, s.cells, s.mem) := by
  unfold State.takeChunk at e
  split at e
  · cases e
    simp [State.accepted]
  · obtain ⟨⟨b, t⟩, ht, rfl⟩ := Option.map_eq_some_iff.1 e
    have filled := (t.fillBin_accepted h b l).trans (State.takeBin_accepted ht)
    simp only [State.accepted, Prod.mk.injEq] at filled
    obtain ⟨chunks, cells, mem⟩ := filled
    simp [State.accepted, chunks, cells, mem]

section Contrib

variable {s : State} {p : PortId} {x : ClientMsg} {e h : Nat} (hk : s.Takes p x e h) (ht : headerOk 2 (msgHeader x) = true)
include hk ht

/-- After an ABORT that another member has taken, a CONTRIB comes too late (R253). -/
theorem execContrib_of_abortedElsewhere :
    execContrib p x true s = .next ((s.countBytes e (msgHeader x)).refuse h (msgHeader x) .roundClosed) :=
  congrArg _ (hk.goesOn ht _)

theorem execContrib_of_refusal {st : Status} (hf : s.messageFail (s.round h) (msgHeader x) 2 true
    ((s.round h).bit (msgHeader x).client (msgHeader x).chunk) = some st) :
    execContrib p x false s = .next ((s.countBytes e (msgHeader x)).refuse h (msgHeader x) st) := by
  refine congrArg _ ((hk.goesOn ht _).trans ?_)
  simp only [State.round_countBytes, State.messageFail_countBytes, hf, Bool.false_eq_true, if_false]

variable {u : State} (hf : s.messageFail (s.round h) (msgHeader x) 2 true
    ((s.round h).bit (msgHeader x).client (msgHeader x).chunk) = none)
  (hu : (s.countBytes e (msgHeader x)).takeChunk h (msgHeader x) ((s.round h).elements (msgHeader x) x.payload) = some u)
include hf hu

/-- Without a live twin the receipt follows at once. -/
theorem execContrib_of_alone (ha : (s.round h).r ≠ 2 ∨ s.twin (s.round h) = none) :
    execContrib p x false s = .next (u.receipt (msgHeader x) .ok false) := by
  refine congrArg _ ((hk.goesOn ht _).trans ?_)
  rcases ha with ha | ha
  · simp only [State.round_countBytes, State.messageFail_countBytes, hf, ha, hu, Bool.false_eq_true, if_false]
  · simp only [State.round_countBytes, State.messageFail_countBytes, State.twin_countBytes, hf, ha, ite_self, hu, Bool.false_eq_true, if_false]

/-- A live twin gets the chunk, while its mirror queue has room (R258, R259). -/
theorem execContrib_of_twin {k : Nat} (hr : (s.round h).r = 2) (hw : s.twin (s.round h) = some k)
    (hq : ((s.round h).mirrorQueue.map (fun y => y.bytes)).sum + (64 + (msgHeader x).payloadLength) ≤ s.mirrorLimit (s.round h) k) :
    execContrib p x false s = .next (u.mirror h k (msgHeader x).chunk x) := by
  refine congrArg _ ((hk.goesOn ht _).trans ?_)
  simp only [State.round_countBytes, State.messageFail_countBytes, State.twin_countBytes, State.mirrorLimit_countBytes, hf, hr, hw, hu,
    Nat.not_lt.2 hq, Bool.false_eq_true, if_false, if_true]

end Contrib

/-! ### SHARE (R252, R282, R283) -/

@[simp] theorem Round.client_settle (r : Round) (c x : Nat) : (r.settle c).client x = r.client x := by
  unfold Round.settle
  dsimp only
  split <;> rfl

/-- The shares of a client are entered once. -/
theorem Round.shared_addShares (r : Round) (m : MsgHeader) (l : List ShareEntry) :
    ((r.addShares m l).client m.client).shared = true := by
  unfold Round.addShares
  dsimp only
  split <;> simp

/-- Shares that pass the guard are entered and counted (R282). -/
def State.takeShares (s : State) (h : Nat) (m : MsgHeader) (l : List ShareEntry) : State :=
  s.updRound h fun r => { r.addShares m l with sharesAccepted := wrapAdd 32 r.sharesAccepted 1 }

/-- Of the state, shares change their round alone. -/
theorem State.takeShares_spec (s : State) (h : Nat) (m : MsgHeader) (l : List ShareEntry) :
    (((s.takeShares h m l).round h).client m.client).shared = true ∧
    ((s.takeShares h m l).round h).sharesAccepted = ((s.round h).sharesAccepted + 1) % 4294967296 ∧
    (s.takeShares h m l).cells = s.cells ∧ (s.takeShares h m l).mem = s.mem ∧ (s.takeShares h m l).ram = s.ram := by
  unfold State.takeShares
  rw [State.updRound_eq, State.round_setRound]
  exact ⟨(s.round h).shared_addShares m l, rfl, rfl, rfl, rfl⟩

section Share

variable {s : State} {p : PortId} {x : ClientMsg} {e h : Nat} (hk : s.Takes p x e h) (ht : headerOk 3 (msgHeader x) = true)
include hk ht

theorem execShare_of_refusal {st : Status} (hf : s.messageFail (s.round h) (msgHeader x) 3 true false = some st) :
    execShare p x.toMsgText x.toMsgSeen s = .next ((s.countBytes e (msgHeader x)).refuse h (msgHeader x) st) := by
  refine congrArg _ ((hk.goesOn ht _).trans ?_)
  simp only [State.round_countBytes, State.messageFail_countBytes, hf]

variable (hf : s.messageFail (s.round h) (msgHeader x) 3 true false = none)
include hf

theorem execShare_of_large (hv : (shareEntries (msgHeader x) x.payload).all (fun y => decide (y.value < gfP)) = false) :
    execShare p x.toMsgText x.toMsgSeen s = .next ((s.countBytes e (msgHeader x)).refuse h (msgHeader x) .bounds) := by
  refine congrArg _ ((hk.goesOn ht _).trans ?_)
  simp only [State.round_countBytes, State.messageFail_countBytes, hf, hv, Bool.false_eq_true, if_false]

variable (hv : (shareEntries (msgHeader x) x.payload).all (fun y => decide (y.value < gfP)) = true)
include hv

theorem execShare_of_guard {st : Status} (hg : (s.round h).shareFail (msgHeader x) (shareEntries (msgHeader x) x.payload) = some st) :
    execShare p x.toMsgText x.toMsgSeen s = .next ((s.countBytes e (msgHeader x)).refuseShare h (msgHeader x) st) := by
  refine congrArg _ ((hk.goesOn ht _).trans ?_)
  simp only [State.round_countBytes, State.messageFail_countBytes, hf, hv, hg, if_true]

variable (hg : (s.round h).shareFail (msgHeader x) (shareEntries (msgHeader x) x.payload) = none)
include hg

/-- Shares that pass the guard are entered; without a live twin the receipt follows at once. -/
theorem execShare_of_alone (ha : (s.round h).r ≠ 2 ∨ s.twin (s.round h) = none) : execShare p x.toMsgText x.toMsgSeen s =
    .next (((s.countBytes e (msgHeader x)).takeShares h (msgHeader x) (shareEntries (msgHeader x) x.payload)).receipt (msgHeader x) .ok false) := by
  refine congrArg _ ((hk.goesOn ht _).trans ?_)
  rcases ha with ha | ha
  · simp only [State.round_countBytes, State.messageFail_countBytes, hf, hv, hg, ha, if_false, if_true]
    rfl
  · simp only [State.round_countBytes, State.messageFail_countBytes, State.twin_countBytes, hf, hv, hg, ha, ite_self, if_true]
    rfl

/-- A live twin gets the shares, and its acknowledgement releases the receipt (R283). -/
theorem execShare_of_twin {k : Nat} (hr : (s.round h).r = 2) (hw : s.twin (s.round h) = some k) : execShare p x.toMsgText x.toMsgSeen s =
    .next (((s.countBytes e (msgHeader x)).takeShares h (msgHeader x) (shareEntries (msgHeader x) x.payload)).mirror h k shareMark x) := by
  refine congrArg _ ((hk.goesOn ht _).trans ?_)
  simp only [State.round_countBytes, State.messageFail_countBytes, State.twin_countBytes, hf, hv, hg, hr, hw, if_true]
  rfl

end Share

/-! ### ABORT (R253) -/

/-- An accepted ABORT marks its client, and its reason goes into the tenant's queue of events. -/
def State.takeAbort (s : State) (h : Nat) (m : MsgHeader) (reason : Nat) : State :=
  let u := s.updRound h fun r => r.setClient m.client { r.client m.client with aborted := true }
  u.event ((s.round h).tenant + 1) 4 0 (s.round h).tenant (u.roundDetail h + reason % 2 ^ 32 * 2 ^ 64)

theorem State.takeAbort_spec (s : State) (h : Nat) (m : MsgHeader) (reason : Nat) :
    (((s.takeAbort h m reason).round h).client m.client).aborted = true ∧ (s.takeAbort h m reason).cells = s.cells ∧
    (s.takeAbort h m reason).mem = s.mem ∧ (s.takeAbort h m reason).ram = s.ram := by
  have kept (u : State) (q cls status source detail : Nat) : (u.event q cls status source detail).round h = u.round h := by
    simp only [State.round, State.event_agg]
  simp [State.takeAbort, kept]

section AbortMsg

variable {s : State} {p : PortId} {x : ClientMsg} {e h : Nat} (hk : s.Takes p x e h) (ht : headerOk 4 (msgHeader x) = true) {el : Bool}
include hk ht

/-- Padding that is not zero is looked at after the checks of R256 (DEDUCED: notes/assumptions/36.md). -/
theorem execAbortMsg_of_padding (hz : zeroAt x.payload 4 12 = false)
    (hf : s.messageFail (s.round h) (msgHeader x) 4 true false = none) :
    execAbortMsg p x.head x.payload x.toMsgSeen el s = .next ((s.countBytes e (msgHeader x)).refuse h (msgHeader x) .bounds) := by
  refine congrArg _ ((hk.goesOn ht _).trans ?_)
  simp only [State.round_countBytes, State.messageFail_countBytes, hz, hf, Bool.false_and, Bool.not_false, if_true]

variable (hz : zeroAt x.payload 4 12 = true)
include hz

theorem execAbortMsg_of_refusal {st : Status} (hf : s.messageFail (s.round h) (msgHeader x) 4 true
    (el || (s.round h).bitmap.any (fun y => y.1 / 2 ^ 34 == (msgHeader x).client)) = some st) :
    execAbortMsg p x.head x.payload x.toMsgSeen el s = .next ((s.countBytes e (msgHeader x)).refuse h (msgHeader x) st) := by
  refine congrArg _ ((hk.goesOn ht _).trans ?_)
  simp only [State.round_countBytes, State.messageFail_countBytes, hz, hf, Bool.true_and]

theorem execAbortMsg_of_good (hf : s.messageFail (s.round h) (msgHeader x) 4 true
    (el || (s.round h).bitmap.any (fun y => y.1 / 2 ^ 34 == (msgHeader x).client)) = none) :
    execAbortMsg p x.head x.payload x.toMsgSeen el s =
      .next (((s.countBytes e (msgHeader x)).takeAbort h (msgHeader x) (field x.payload 0 4)).receipt (msgHeader x) .ok false) := by
  refine congrArg _ ((hk.goesOn ht _).trans ?_)
  simp only [State.round_countBytes, State.messageFail_countBytes, hz, hf, Bool.true_and, Bool.not_true, Bool.false_eq_true, if_false]
  rfl

end AbortMsg

end Sys2Proof.Machine
end

section
/-! The obligation on client messages. -/

namespace Sys2Proof.Machine

set_option Elab.async false

open Sys2Proof

/-- Settles O41: a message that its engine takes meets the first failing check of its type, or enters what it carries in its round; keys, chunks,
shares and aborts are each written to the round alone. -/
theorem clientMessagesAreCheckedAndTaken : Obligations.ClientMessagesAreCheckedAndTaken := by
  intro s p x e h m up role engine slot round mine t r
  have hk : s.Takes p x e h := ⟨up, role, engine, slot, round, mine⟩
  refine ⟨fun a h1 h2 h3 h4 => ?header, fun ok ht => ⟨fun st => execKeyex_of_refusal hk ht, fun hf => ⟨execKeyex_of_good hk ht hf, ?keyex⟩⟩,
    fun ht => ⟨execContrib_of_abortedElsewhere hk ht, fun st => execContrib_of_refusal hk ht, fun hf u hu => ?contrib⟩,
    fun ht => ⟨fun st => execShare_of_refusal hk ht, execShare_of_large hk ht, fun hf hv =>
      ⟨fun st => execShare_of_guard hk ht hf hv, fun hg => ?share⟩⟩,
    fun el ht => ⟨execAbortMsg_of_padding hk ht, fun hz => ⟨fun st => execAbortMsg_of_refusal hk ht hz, fun hf => ?abort⟩⟩⟩
  case header =>
    exact ⟨congrArg _ (hk.drops h1 _), congrArg _ (hk.drops h2 _), congrArg _ (hk.drops h3 _), congrArg _ (hk.drops h4 _)⟩
  case keyex =>
    obtain ⟨entered, cells, mem⟩ := t.acceptKeyex_spec h x
    rw [entered, Round.client_enterKey]
    exact ⟨rfl, rfl, rfl, cells, mem⟩
  case contrib =>
    have accepted := State.takeChunk_accepted hu
    simp only [State.accepted, Prod.mk.injEq] at accepted
    obtain ⟨chunks, cells, mem⟩ := accepted
    exact ⟨State.bit_of_takeChunk hu, chunks, cells, mem, execContrib_of_alone hk ht hf hu, fun k => execContrib_of_twin hk ht hf hu⟩
  case share =>
    obtain ⟨shared, count, cells, mem, ram⟩ := t.takeShares_spec h m (shareEntries m x.payload)
    exact ⟨_, shared, count, cells, mem, ram, execShare_of_alone hk ht hf hv hg, fun k => execShare_of_twin hk ht hf hv hg⟩
  case abort =>
    obtain ⟨aborted, cells, mem, ram⟩ := t.takeAbort_spec h m (field x.payload 0 4)
    exact ⟨_, execAbortMsg_of_good hk ht hz hf, aborted, cells, mem, ram⟩

end Sys2Proof.Machine
end

section
/-! SUPPORT. RING_MACRO commands: what refuses one, and how one joins the list of its tenant (R337, R341, R343). -/

namespace Sys2Proof.Machine

set_option Elab.async false

open Sys2Proof

/-- The list goes on at a command whose head entry has a known operation (R337). -/
theorem State.advanceMacros_of_known (s : State) (t : Nat) {m : RingMacro} (r : List RingMacro) (h : ringOpKnown m.head.op = true) :
    s.advanceMacros t (m :: r) = s.setMacros t (m :: r) := by
  rw [State.advanceMacros, if_pos h]

/-- What refuses a RING_MACRO before its block is read (R337, R341). -/
def State.macroRefusals (s : State) (c : Cmd) : List (Bool × Status) :=
  [(c.len % 32 != 0 || c.len == 0 || decide (32 * 65536 < c.len), .bounds),
   (decide (maxMacros ≤ (s.macros (cmdActs c)).length), .quotaExceeded)]

theorem State.firstFail_macroRefusals_of_length {s : State} {c : Cmd} (h : c.len % 32 ≠ 0 ∨ c.len = 0 ∨ 2097152 < c.len) :
    firstFail (s.macroRefusals c) = some .bounds := by
  have bad : (c.len % 32 != 0 || c.len == 0 || decide (32 * 65536 < c.len)) = true := by simpa [or_assoc] using h
  simp [State.macroRefusals, firstFail, bad]

/-- A list of good length is refused for the commands ahead of it alone (R341). -/
theorem State.firstFail_macroRefusals_of_block {s : State} {c : Cmd} (hl : c.len % 32 = 0) (h0 : c.len ≠ 0) (hm : c.len ≤ 2097152) :
    firstFail (s.macroRefusals c) = if maxMacros ≤ (s.macros (cmdActs c)).length then some .quotaExceeded else none := by
  have good : (c.len % 32 != 0 || c.len == 0 || decide (32 * 65536 < c.len)) = false := by simp [hl, h0, hm]
  simp [State.macroRefusals, firstFail, good]

/-- The entries of a RING_MACRO's block (R337). -/
def State.listedEntries (s : State) (c : Cmd) : List RingEntry := parseEntries (s.readVA (cmdActs c) c.addr c.len c.host) 0 (c.len / 32)

/-- No slot of the sequencer is the tenant's, or the list names keys and the tenant has no DMA budget (R71, R343). -/
def State.macroStarved (s : State) (c : Cmd) : Bool :=
  !s.ownsSlot .ring 0 (cmdActs c) || ((s.listedEntries c).any (fun e => usesEvk e.op) && s.dmaBudgetFull (cmdActs c) == 0)

/-- The command as it joins the list of its tenant. -/
def State.newMacro (s : State) (c : Cmd) : RingMacro := { cmd := c, entries := s.listedEntries c, pos := 0, flags := 0, waiting := false }

/-- A block that holds an entry starts with one: the head of the command. -/
theorem State.listedEntries_of_block {s : State} {c : Cmd} (hl : c.len % 32 = 0) (h0 : c.len ≠ 0) :
    ∃ r, s.listedEntries c = (s.newMacro c).head :: r := by
  cases h : s.listedEntries c with
  | nil =>
    have len : (s.listedEntries c).length = c.len / 32 := by simp [State.listedEntries, parseEntries]
    rw [h, List.length_nil] at len
    omega
  | cons e r => exact ⟨r, by simp [RingMacro.head, State.newMacro, h]⟩

section RingMacro

variable {s : State} {c : Cmd} (ha : s.accepts 0x72 c = true)
include ha

theorem execRingMacro_of_refusal {st : Status} (h : firstFail (s.macroRefusals c) = some st) : execRingMacro c s = s.refuses c st := by
  unfold State.macroRefusals at h
  simp only [execRingMacro, s.command_of_accepts _ _ _ ha, h]
  rfl

variable (hr : firstFail (s.macroRefusals c) = none) (hb : s.blockFail (cmdActs c) c.addr c.len (fun p => p.r) = none)
include hr hb

/-- A RING_MACRO whose block can be read is decided by its entries. -/
theorem execRingMacro_of_block : execRingMacro c s =
    if s.macroStarved c then s.refuses c .budget
    else if (s.listedEntries c).any s.namesDetached then s.refuses c .cfgMismatch
    else .next (s.advanceMacros (cmdActs c) (s.macros (cmdActs c) ++ [s.newMacro c])) := by
  unfold State.macroRefusals at hr
  simp only [execRingMacro, s.command_of_accepts _ _ _ ha, hr, hb]
  simp only [State.refuses, ← apply_ite]
  rfl

/-- A RING_MACRO that is neither starved nor names a detached set joins the list, at whose head a known operation stands. -/
theorem execRingMacro_of_good (hs : s.macroStarved c = false) (hd : (s.listedEntries c).any s.namesDetached = false)
    {m : RingMacro} {r : List RingMacro} (hm : s.macros (cmdActs c) ++ [s.newMacro c] = m :: r) (hk : ringOpKnown m.head.op = true) :
    execRingMacro c s = .next (s.setMacros (cmdActs c) (s.macros (cmdActs c) ++ [s.newMacro c])) := by
  rw [execRingMacro_of_block ha hr hb, hs, hd, hm, s.advanceMacros_of_known _ r hk]
  rfl

end RingMacro

end Sys2Proof.Machine
end

section
/-! SUPPORT. The entry at the head of a tenant's list: its refusal, its beginning, its pauses and its end (R339 to R343), and what the result of an
operation of R338 leaves alone (R340). -/

namespace Sys2Proof.Machine

set_option Elab.async false

open Sys2Proof

/-! ### What locks, budgets and results leave alone -/

/-- Locks of an entry's pages lie in the memory block. -/
theorem State.lockEntry_spn (s : State) (t : Nat) (e : RingEntry) (lock : Bool) : (s.lockEntry t e lock).spn = s.spn := by
  refine State.each_keeps s State.spn _ _ fun u d _ => State.each_keeps u State.spn _ _ fun v a _ => ?_
  rw [State.lockPages_frame]

/-- An entry begins within its turn. -/
theorem State.turn_beginEntry (s : State) (t : Nat) (m : RingMacro) : (s.beginEntry t m).turn = s.turn := by
  have spn : (s.beginEntry t m).spn = s.spn := s.lockEntry_spn t m.head true
  simp only [State.turn, State.turnOf, State.pos, spn]

theorem State.turn_chargeDma (s : State) (t n : Nat) : (s.chargeDma t n).turn = s.turn := rfl

/-- A result's data goes to device memory and to what leaves for the host. -/
theorem State.writePoly_frame (s : State) (t : Nat) (d : RingDesc) (x : Poly) :
    s.writePoly t d x = { s with ram := (s.writePoly t d x).ram, out := (s.writePoly t d x).out } := by
  have framed (u : State) (va n : Nat) (bs : List Byte) (h : u = { s with ram := u.ram, out := u.out }) :
      u.writeVA t va bs n = { s with ram := (u.writeVA t va bs n).ram, out := (u.writeVA t va bs n).out } := by
    rw [State.writeVA_frame, h]
  unfold State.writePoly
  refine State.each_induct s (fun u => u = { s with ram := u.ram, out := u.out }) _ _ (fun u y _ hu => ?_) rfl
  exact State.each_induct u (fun u => u = { s with ram := u.ram, out := u.out }) _ _ (fun v z _ hv => framed v _ _ _ hv) hu

/-- An operation's result is its destination's descriptor and data, and nothing else (R340). -/
theorem State.ringResult_spec (s : State) (t : Nat) (e : RingEntry) : let a := s.desc e.a
    (s.ringResult t e).desc e.dst = (s.desc e.dst).holds (resultDesc (s.params a.psid) e a (if usesB e.op then s.desc e.b else {}) 0) ∧
    (∀ d, d ≠ e.dst → (s.ringResult t e).desc d = s.desc d) ∧ (s.ringResult t e).cells = s.cells ∧ (s.ringResult t e).mem = s.mem := by
  unfold State.ringResult
  dsimp only
  rw [State.writePoly_frame]
  exact ⟨Tab.look_put_same .., fun d hd => Tab.look_put_other _ _ _ _ _ hd, rfl, rfl⟩

/-! ### Running the head entry (R339 to R343) -/

/-- The state in which the head entry streams its key: its pages are locked from its beginning on (R341). -/
def State.begun (s : State) (t : Nat) (m : RingMacro) : State := if m.run.isSome then s else s.beginEntry t m

/-- Bytes of its key that the head entry has streamed, and the turn in which it began: the one that runs, where it begins now. -/
def State.progress (s : State) (m : RingMacro) : Nat × Nat := m.run.getD (0, s.turn)

theorem State.turn_begun (s : State) (t : Nat) (m : RingMacro) : (s.begun t m).turn = s.turn := by
  unfold State.begun
  split
  · rfl
  · exact s.turn_beginEntry t m

section RunEntry

variable {s : State} {t op : Nat} {v : RingEnv} {checks : RingEntry → List (Bool × Status)} {opnds : RingEntry → List RingDesc}
  {psid chunks : RingEntry → Nat} {scratch : RingEntry → Nat × Nat} {body : State → RingEntry → State}

/-- Nothing runs where the head has another operation, waits, or has no slot (R342). -/
theorem State.runEntry_of_noHead (h : s.ringHead t op = none) : s.runEntry t op v checks opnds psid chunks scratch body = s := by
  simp only [State.runEntry, h]

variable {m : RingMacro} (hm : s.ringHead t op = some m)
include hm

/-- An entry that has not begun ends with the status of its first failing check (R339). -/
theorem State.runEntry_of_refusal (hr : m.run = none) {st : Status} (hf : firstFail (checks m.head) = some st) :
    s.runEntry t op v checks opnds psid chunks scratch body = s.endEntry t st 0 0 := by
  simp [State.runEntry, hm, hr, hf]

variable (hc : m.run = none → firstFail (checks m.head) = none) (hi : s.ringIssue t (s.params (psid m.head)).group = true)
  (ho : s.ringMapped t (opnds m.head) = true) (hv : v.badChunk = none)
include hc hi ho hv

/-- An entry that has passed its checks and may issue streams its key: it pauses while some of it is left, and otherwise ends with its result,
where nothing stops it (R332, R340, R343). -/
theorem State.runEntry_of_issued :
    let e := m.head
    let p := s.params (psid e)
    let at_ := s.progress m
    let k := (s.begun t m).feedMoves p.group t (65536 * chunks e - at_.1)
    let u := (s.begun t m).chargeDma t k
    let w := (u.updRing fun r => { r with paused := Tab.put false r.paused t false }).lockEntry t e false
    let flags := Nat.lor (ringFlags v) (16 * b2n (at_.2 != s.turn))
    (at_.1 + k < 65536 * chunks e →
      s.runEntry t op v checks opnds psid chunks scratch body = u.pauseEntry t m (at_.1 + k) at_.2) ∧
    (65536 * chunks e ≤ at_.1 + k → u.ringStop t (opnds e) false v = none →
      s.runEntry t op v checks opnds psid chunks scratch body =
        ((body (w.entryExchanges t e) e).ringLeaves t p (scratch e).1 (scratch e).2).endEntry t .ok flags (chunks e)) := by
  have checked : (if m.run.isSome then none else firstFail (checks m.head)) = none := by
    cases hrun : m.run with
    | none => exact hc hrun
    | some r => rfl
  have begun : (if m.run.isSome then s else s.beginEntry t m) = s.begun t m := rfl
  have progress : m.run.getD (0, s.turn) = s.progress m := rfl
  have whole (n : Nat) : (decide (65536 * n < 65536 * n) || n != 0 && (none : Option Nat) == some (n - 1)) = false := by simp
  refine ⟨fun more => ?pauses, fun all stop => ?ends⟩
  all_goals
    simp only [State.runEntry, hm, checked, hi, ho, hv, begun, State.turn_begun, progress]
  case pauses => exact if_pos more
  case ends =>
    simp only [State.turn_chargeDma, State.turn_begun, whole, stop]
    exact if_neg (Nat.not_lt.2 all)

end RunEntry

/-! ### The operations (R338) -/

/-- The operations of R338 by their codes. -/
def ringOperations (t : TenantId) (v : RingEnv) : List (Nat × Instr) :=
  [(0x01, .ringAdd t v), (0x02, .ringSub t v), (0x03, .ringAddp t v), (0x04, .ringMulp t v), (0x05, .ringMulc t v), (0x06, .ringMul t v),
   (0x07, .ringRescale t v), (0x08, .ringRotate t v), (0x09, .ringLevelDrop t v), (0x0A, .ringNtt t v), (0x0B, .ringIntt t v),
   (0x0C, .ringToMont t v), (0x0D, .ringCopy t v)]

/-- Each operation runs the head entry of its code. -/
theorem exec_of_mem_ringOperations (s : State) (t : TenantId) (v : RingEnv) :
    ∀ i ∈ ringOperations t v, exec i.2 s = .next (s.ringOp t.val i.1 v) := by
  simp only [ringOperations, List.forall_mem_cons]
  exact ⟨rfl, rfl, rfl, rfl, rfl, rfl, rfl, rfl, rfl, rfl, rfl, rfl, rfl, List.forall_mem_nil _⟩

end Sys2Proof.Machine
end

section
/-! The obligation on RING_MACRO and the operations of its entries. -/

namespace Sys2Proof.Machine

set_option Elab.async false

open Sys2Proof

/-- Settles O45: a RING_MACRO is refused with its first failing check or joins its list; the entry at the head is refused, or pauses while its key
streams, or ends with its result, the same way whatever its operation. -/
theorem ringEntriesQueueAndOperationsRun : Obligations.RingEntriesQueueAndOperationsRun := by
  refine ⟨⟨fun s c ha hl => execRingMacro_of_refusal ha (State.firstFail_macroRefusals_of_length hl),
    fun s c ha hl h0 hm hq => execRingMacro_of_refusal ha ((State.firstFail_macroRefusals_of_block hl h0 hm).trans (if_pos hq)),
    fun s c ha hl h0 hm hq hb => ?block⟩, fun s t v m i hi => ?operation, State.ringResult_spec⟩
  case block =>
    have passes := (State.firstFail_macroRefusals_of_block (s := s) hl h0 hm).trans (if_neg (Nat.not_le.2 hq))
    have decided := execRingMacro_of_block ha passes hb
    refine ⟨fun hs => decided.trans (if_pos hs), fun hs hd => ?detached, fun hs hd => ⟨fun hne hk => ?joins, fun he hk => ?first⟩⟩
    case detached =>
      rw [show s.macroStarved c = false from hs, show (s.listedEntries c).any s.namesDetached = true from hd] at decided
      exact decided
    case joins =>
      obtain ⟨m, r, hr⟩ := List.exists_cons_of_ne_nil hne
      exact execRingMacro_of_good ha passes hb hs hd (congrArg (· ++ _) hr) (hk m r hr)
    case first =>
      obtain ⟨r, hr⟩ := s.listedEntries_of_block hl h0
      have joined := execRingMacro_of_good ha passes hb hs hd (congrArg (· ++ _) he) (hk _ r hr)
      rwa [he] at joined
  case operation =>
    rw [exec_of_mem_ringOperations s t v i hi]
    refine ⟨fun h => congrArg _ (State.runEntry_of_noHead h), fun h => ⟨fun hr st hf => congrArg _ (State.runEntry_of_refusal h hr hf),
      fun hc hi ho hv => ?_⟩⟩
    obtain ⟨pauses, ends⟩ := State.runEntry_of_issued (checks := s.entryChecks t.val)
      (opnds := fun e => [s.desc e.dst, s.desc e.a] ++ (if usesB e.op then [s.desc e.b] else []))
      (psid := fun e => (s.desc e.a).psid) (chunks := fun e => entryChunks (s.params (s.desc e.a).psid) e (s.desc e.a).level)
      (scratch := fun e => s.setScratch (s.desc e.a).psid) (body := fun s e => s.ringResult t e) h hc hi ho hv
    exact ⟨fun more => congrArg _ (pauses more), fun all stop => congrArg _ (ends all stop)⟩

end Sys2Proof.Machine
end

section
/-! SUPPORT. An entry whose key streams within its step: the state in which it writes its result, and what it leaves (R340, R341, R343). -/

namespace Sys2Proof.Machine

set_option Elab.async false

open Sys2Proof

/-! ### What locks, exchanges and leavings keep -/

/-- Locks of an entry's pages leave the ring sequencer alone. -/
theorem State.lockEntry_ring (s : State) (t : Nat) (e : RingEntry) (lock : Bool) : (s.lockEntry t e lock).ring = s.ring := by
  refine State.each_keeps s State.ring _ _ fun u d _ => State.each_keeps u State.ring _ _ fun v a _ => ?_
  rw [State.lockPages_frame]

theorem State.desc_congr {u v : State} (h : u.ring = v.ring) : u.desc = v.desc := by
  funext i
  simp only [State.desc, h]

/-- What decides which pages an entry's locks reach: the pages, and the sequencer's descriptors and parameter sets (R314). -/
def State.lockView (s : State) : Mem × Tab RingDesc × Tab ParamSet := (s.mem, s.ring.descs, s.ring.params)

theorem State.lockDesc_lockView_congr {u v : State} (h : u.lockView = v.lockView) (t : Nat) (d : RingDesc) (lock : Bool) :
    (u.lockDesc t d lock).lockView = (v.lockDesc t d lock).lockView := by
  have pages {u v : State} (a : Nat) (h : u.lockView = v.lockView) : (u.lockPages t a 1 lock).lockView = (v.lockPages t a 1 lock).lockView := by
    simp only [State.lockView, Prod.mk.injEq] at h ⊢
    obtain ⟨mem, descs, params⟩ := h
    rw [State.lockPages_frame u, State.lockPages_frame v]
    exact ⟨State.lockPages_mem_congr mem t a 1 lock, descs, params⟩
  have laid : u.extents d = v.extents d := by
    simp only [State.lockView, Prod.mk.injEq] at h
    simp only [State.extents, State.params, h.2.2]
  unfold State.lockDesc
  rw [laid]
  exact State.each_congr State.lockView (fun _ _ a => pages a) _ h

theorem State.lockEntry_mem_congr {u v : State} (h : u.lockView = v.lockView) (t : Nat) (e : RingEntry) (lock : Bool) :
    (u.lockEntry t e lock).mem = (v.lockEntry t e lock).mem := by
  have named {u v : State} (h : u.lockView = v.lockView) : u.desc = v.desc := by
    simp only [State.lockView, Prod.mk.injEq] at h
    funext i
    simp only [State.desc, h.2.1]
  have descs : u.entryDescs e = v.entryDescs e := by simp only [State.entryDescs, State.blindDests, named h]
  have view : (u.lockEntry t e lock).lockView = (v.lockEntry t e lock).lockView := by
    unfold State.lockEntry
    rw [descs]
    refine State.each_congr State.lockView (fun w x d h => ?_) _ h
    rw [named h]
    exact State.lockDesc_lockView_congr h t _ lock
  exact congrArg Prod.fst view

/-- Free link counts stand in the cells. -/
theorem State.freeLinks_frame (s : State) : s.freeLinks.ring = s.ring ∧ s.freeLinks.mem = s.mem :=
  ⟨State.each_keeps _ State.ring _ _ fun _ _ _ => rfl, State.each_keeps _ State.mem _ _ fun _ _ _ => rfl⟩

/-- What an entry leaves in its group's cells and its scratch area reaches neither the sequencer nor the pages (R340). -/
theorem State.ringLeaves_frame (s : State) (t : Nat) (p : ParamSet) (scratch len : Nat) :
    (s.ringLeaves t p scratch len).ring = s.ring ∧ (s.ringLeaves t p scratch len).mem = s.mem := by
  have kept {β : Type} (g : State → β) (draw : g s.draw.2 = g s) (cell : ∀ u c f, g (u.updCell c f) = g u)
      (span : ∀ u a bs, g (u.writeSpan t a bs) = g u) : g (s.ringLeaves t p scratch len) = g s :=
    (State.each_keeps _ g _ _ fun u a _ => span u a _).trans ((State.each_keeps _ g _ _ fun u c _ => cell u c _).trans draw)
  exact ⟨kept State.ring rfl (fun _ _ _ => rfl) fun u a bs => by rw [State.writeSpan_frame],
    kept State.mem rfl (fun _ _ _ => rfl) fun u a bs => by rw [State.writeSpan_frame]⟩

/-! ### The entry's last step -/

/-- The state in which an entry that ends in its first step, with `n` key bytes streamed, writes its result: its pages are locked and unlocked
again, and its exchanges have crossed the mesh. -/
def State.streamed (s : State) (t : Nat) (m : RingMacro) (n : Nat) : State :=
  ((((s.beginEntry t m).chargeDma t n).updRing fun r => { r with paused := Tab.put false r.paused t false }).lockEntry t m.head false).entryExchanges
    t m.head

section Streamed

variable (s : State) (t : Nat) {m : RingMacro} (n : Nat) (h : 0x40 ≤ m.head.op)
include h

/-- An entry of R374 exchanges what no rule states: free link counts (notes/assumptions/46.md). -/
theorem State.entryExchanges_of_macroOp : s.entryExchanges t m.head = s.freeLinks := by
  unfold State.entryExchanges
  dsimp only
  split
  case h_6 => exact if_neg (Nat.not_lt.2 h)
  all_goals omega

/-- An entry of R374 that streams its key changes no object of the sequencer. -/
theorem State.streamed_objects :
    (s.streamed t m n).desc = s.desc ∧ (s.streamed t m n).evk = s.evk ∧ (s.streamed t m n).plan = s.plan := by
  have ring : (s.streamed t m n).ring = { (s.beginEntry t m).ring with paused := Tab.put false (s.beginEntry t m).ring.paused t false } := by
    rw [State.streamed, State.entryExchanges_of_macroOp _ t h, (State.freeLinks_frame _).1, State.lockEntry_ring]
    rfl
  have locked := s.lockEntry_ring t m.head true
  have descs : (s.beginEntry t m).ring.descs = s.ring.descs := (congrArg Ring.descs locked :)
  have evks : (s.beginEntry t m).ring.evks = s.ring.evks := (congrArg Ring.evks locked :)
  have plans : (s.beginEntry t m).ring.plans = s.ring.plans := (congrArg Ring.plans locked :)
  refine ⟨funext fun i => ?_, funext fun i => ?_, funext fun i => ?_⟩
  · simp only [State.desc, ring, descs]
  · simp only [State.evk, ring, evks]
  · simp only [State.plan, ring, plans]

/-- Its pages are as the lock of its beginning and the unlock of its end leave them (R341). -/
theorem State.streamed_mem : (s.streamed t m n).mem = ((s.beginEntry t m).lockEntry t m.head false).mem := by
  have fed (b : State) :
      ((b.chargeDma t n).updRing fun r => { r with paused := Tab.put false r.paused t false }).lockView = b.lockView := rfl
  rw [State.streamed, State.entryExchanges_of_macroOp _ t h, (State.freeLinks_frame _).2]
  exact State.lockEntry_mem_congr (fed _) t m.head false

end Streamed

/-- The head entry has not begun, may issue, has its operands `l` mapped, streams its `n` key chunks at once and is not stopped (R339 to R343). -/
def State.goesWhole (s : State) (t : Nat) (v : RingEnv) (m : RingMacro) (l : List RingDesc) (n : Nat) : Bool :=
  let g := (s.params (s.desc m.head.a).psid).group
  let b := s.beginEntry t m
  m.run.isNone && s.ringIssue t g && s.ringMapped t l && v.badChunk.isNone && b.feedMoves g t (65536 * n) == 65536 * n &&
    ((b.chargeDma t (65536 * n)).ringStop t l false v).isNone

section Whole

variable {s : State} {t op : Nat} {v : RingEnv} {checks : RingEntry → List (Bool × Status)} {opnds : RingEntry → List RingDesc}
  {chunks : RingEntry → Nat} {scratch : RingEntry → Nat × Nat} {body : State → RingEntry → State} {m : RingMacro}

theorem State.ringHead_op (hm : s.ringHead t op = some m) : m.head.op = op := by
  unfold State.ringHead at hm
  split at hm
  · split at hm
    · next issues =>
      cases hm
      simp only [Bool.and_eq_true, beq_iff_eq] at issues
      exact issues.1.1
    · cases hm
  · cases hm

/-- An entry that goes whole ends with OK in the state that its result leaves, but for its group's cells and its scratch area. -/
theorem State.runEntry_of_whole (hm : s.ringHead t op = some m) (hc : firstFail (checks m.head) = none)
    (hg : s.goesWhole t v m (opnds m.head) (chunks m.head) = true) :
    let r := body (s.streamed t m (65536 * chunks m.head)) m.head
    ∃ u : State, s.runEntry t op v checks opnds (fun e => (s.desc e.a).psid) chunks scratch body =
      u.endEntry t .ok (ringFlags v) (chunks m.head) ∧ u.desc = r.desc ∧ u.mem = r.mem := by
  intro r
  simp only [State.goesWhole, Bool.and_eq_true, Option.isNone_iff_eq_none, beq_iff_eq] at hg
  obtain ⟨⟨⟨⟨⟨run, issue⟩, mapped⟩, good⟩, moves⟩, stop⟩ := hg
  have begun : s.begun t m = s.beginEntry t m := by simp [State.begun, run]
  have progress : s.progress m = (0, s.turn) := by simp [State.progress, run]
  obtain ⟨-, ends⟩ := State.runEntry_of_issued (op := op) (checks := checks) (opnds := opnds) (psid := fun e => (s.desc e.a).psid)
    (chunks := chunks) (scratch := scratch) (body := body) hm (fun _ => hc) issue mapped good
  simp only [begun, progress, Nat.sub_zero, Nat.zero_add, moves, bne_self_eq_false] at ends
  obtain ⟨ring, mem⟩ := r.ringLeaves_frame t (s.params (s.desc m.head.a).psid) (scratch m.head).1 (scratch m.head).2
  exact ⟨_, (ends (Nat.le_refl _) stop).trans (congrArg (State.endEntry _ t .ok · (chunks m.head)) (Nat.or_zero _)),
    State.desc_congr ring, mem⟩

/-- An entry of R374 that goes whole writes its result in a state `w` with the objects of `s`, whose pages have been locked and unlocked. -/
theorem State.runEntry_of_macroOp (hm : s.ringHead t op = some m) (ho : 0x40 ≤ op) (hc : firstFail (checks m.head) = none)
    (hg : s.goesWhole t v m (opnds m.head) (chunks m.head) = true) : ∃ w u : State, (w.desc = s.desc ∧ w.evk = s.evk ∧ w.plan = s.plan) ∧
      w.mem = ((s.beginEntry t m).lockEntry t m.head false).mem ∧
      s.runEntry t op v checks opnds (fun e => (s.desc e.a).psid) chunks scratch body = u.endEntry t .ok (ringFlags v) (chunks m.head) ∧
      u.desc = (body w m.head).desc ∧ u.mem = (body w m.head).mem := by
  have macroOp : 0x40 ≤ m.head.op := (State.ringHead_op hm).symm ▸ ho
  obtain ⟨u, left⟩ := State.runEntry_of_whole (scratch := scratch) (body := body) hm hc hg
  exact ⟨_, u, s.streamed_objects t _ macroOp, s.streamed_mem t _ macroOp, left⟩

end Whole

end Sys2Proof.Machine
end

section
/-! SUPPORT. The results of the macros of R374: the descriptors that each writes (R356, R359 to R361). -/

namespace Sys2Proof.Machine

set_option Elab.async false

open Sys2Proof

/-- `u` is `s` with descriptor `i` replaced by `d`, its data aside: every other descriptor and the pages are the same. -/
def State.Rewrites (s : State) (i : Nat) (d : RingDesc) (u : State) : Prop :=
  u.desc i = d ∧ (∀ x, x ≠ i → u.desc x = s.desc x) ∧ u.mem = s.mem

theorem State.rewrites_setDesc {s u : State} (ring : u.ring = s.ring) (mem : u.mem = s.mem) (i : Nat) (d : RingDesc) :
    s.Rewrites i d (u.setDesc i d) :=
  ⟨Tab.look_put_same .., fun x hx => (Tab.look_put_other _ _ _ _ _ hx).trans (congrFun (State.desc_congr ring) x), mem⟩

theorem State.rewrites_writePoly (s : State) (t i : Nat) (d : RingDesc) (x : Poly) : s.Rewrites i d ((s.writePoly t d x).setDesc i d) :=
  State.rewrites_setDesc (by rw [State.writePoly_frame]) (by rw [State.writePoly_frame]) i d

theorem State.rewrites_writeLwe (s : State) (t i : Nat) (d : RingDesc) (l : List (List Nat)) :
    s.Rewrites i d ((s.writeLwe t d l).setDesc i d) :=
  State.rewrites_setDesc (State.each_keeps s State.ring _ _ fun u x _ => by rw [State.writeVA_frame])
    (State.each_keeps s State.mem _ _ fun u x _ => by rw [State.writeVA_frame]) i d

/-! ### REFRESH, EXTRACT and LWE_SWITCH: one destination -/

/-- The destination of a REFRESH holds what its plan puts out (R356). -/
def State.refreshedDesc (s : State) (e : RingEntry) : RingDesc :=
  let p := s.plan e.arg
  (s.desc e.dst).holds { s.desc e.a with level := p.outLevel, noise := p.outNoise, scale := p.outScale, eval := true, plain := false }

theorem State.rewrites_refreshResult (s : State) (t : Nat) (e : RingEntry) : s.Rewrites e.dst (s.refreshedDesc e) (s.refreshResult t e) :=
  s.rewrites_writePoly t e.dst _ _

/-- The destination of an EXTRACT: a batch in plain form with the properties of A (R359, R360). -/
def State.extractedDesc (s : State) (e : RingEntry) : RingDesc := (s.desc e.dst).holds { s.desc e.a with plain := true }

/-- The LWE ciphertexts of an EXTRACT written to its destination (R360). -/
def State.extractResult (s : State) (t : Nat) (e : RingEntry) : State :=
  let a := s.desc e.a
  (s.writeLwe t (s.extractedDesc e) ((List.range e.imm).map fun k =>
    extractAt (s.params a.psid) a.plain (s.readPoly t a) (e.arg + k))).setDesc e.dst (s.extractedDesc e)

theorem State.rewrites_extractResult (s : State) (t : Nat) (e : RingEntry) : s.Rewrites e.dst (s.extractedDesc e) (s.extractResult t e) :=
  s.rewrites_writeLwe t e.dst _ _

/-- The destination of an LWE_SWITCH: the key's key set, and the key's noise added (R359). -/
def State.switchedDesc (s : State) (e : RingEntry) : RingDesc :=
  let a := s.desc e.a
  let k := s.evk e.evk
  (s.desc e.dst).holds { a with
    noise := satNoise (max a.noise k.noiseAdd + 0x100), keyset := k.keyset, plain := true
    fingerprint := (s.params k.targetPsid).fingerprint k.keyset }

/-- The switched LWE ciphertexts written to their destination: their residues are free values (R361, notes/assumptions/17.md). -/
def State.switchResult (s : State) (t : Nat) (e : RingEntry) : State :=
  let a := s.desc e.a
  let k := s.evk e.evk
  let args := (s.readLwe t a).flatten ++ s.evkData t k
  (s.writeLwe t (s.switchedDesc e) ((List.range a.cap).map fun i => (List.range (k.lweDim + 1)).map fun j =>
    Config.ringData "LWE_SWITCH" args (i * 2 ^ 12 + j) % (s.params k.targetPsid).q 0)).setDesc e.dst (s.switchedDesc e)

theorem State.rewrites_switchResult (s : State) (t : Nat) (e : RingEntry) : s.Rewrites e.dst (s.switchedDesc e) (s.switchResult t e) :=
  s.rewrites_writeLwe t e.dst _ _

/-- An entry of R374 that goes whole and rewrites one descriptor ends with OK in a state that holds it. -/
theorem State.runEntry_of_rewrites {s : State} {t op : Nat} {v : RingEnv} {m : RingMacro} {checks : RingEntry → List (Bool × Status)}
    {opnds : RingEntry → List RingDesc} {chunks : RingEntry → Nat} {scratch : RingEntry → Nat × Nat} {body : State → RingEntry → State}
    {new : State → RingEntry → RingDesc} (hb : ∀ (w : State) e, w.Rewrites e.dst (new w e) (body w e)) (hm : s.ringHead t op = some m)
    (ho : 0x40 ≤ op) (hc : firstFail (checks m.head) = none) (hg : s.goesWhole t v m (opnds m.head) (chunks m.head) = true) :
    ∃ w u : State, (w.desc = s.desc ∧ w.evk = s.evk ∧ w.plan = s.plan) ∧
      s.runEntry t op v checks opnds (fun e => (s.desc e.a).psid) chunks scratch body = u.endEntry t .ok (ringFlags v) (chunks m.head) ∧
      u.desc m.head.dst = new w m.head ∧ u.mem = ((s.beginEntry t m).lockEntry t m.head false).mem ∧
      (∀ x, x ≠ m.head.dst → u.desc x = s.desc x) := by
  obtain ⟨w, u, objects, pages, ended, descs, mem⟩ := State.runEntry_of_macroOp (scratch := scratch) (body := body) hm ho hc hg
  obtain ⟨written, others, kept⟩ := hb w m.head
  exact ⟨w, u, objects, ended, (congrFun descs _).trans written, (mem.trans kept).trans pages,
    fun x hx => (congrFun descs x).trans ((others x hx).trans (congrFun objects.1 x))⟩

/-! ### BLIND_ROTATE: one destination for each input -/

/-- What a BLIND_ROTATE makes of a destination's descriptor: a ciphertext of level 0 with the key's noise and the test polynomial's scale (R359;
the scale is DEDUCED, notes/assumptions/40.md). -/
def State.rotatedDesc (s : State) (e : RingEntry) (d : RingDesc) : RingDesc :=
  let k := s.evk e.evk
  d.holds { s.desc e.a with
    level := 0, noise := k.noiseAdd, scale := (s.desc e.b).scale, eval := false, plain := false, keyset := k.keyset, fingerprint := k.fingerprint }

/-- Output `x.2` of a BLIND_ROTATE in `s`, written to descriptor `x.1`: its residues are free values (R360, notes/assumptions/17.md). -/
def State.writeRotated (s : State) (t : Nat) (e : RingEntry) (u : State) (x : Nat × Nat) : State :=
  let a := s.desc e.a
  let args := (s.readPoly t (s.desc e.b)).flat ++ s.evkData t (s.evk e.evk)
  let d := s.rotatedDesc e (u.desc x.1)
  (u.writePoly t d (freePoly "BLIND_ROTATE" (s.params a.psid) 2 1 ((s.readLwe t a).getD x.2 [] ++ args))).setDesc x.1 d

/-- The outputs of a BLIND_ROTATE written to their destinations (R360). -/
def State.rotateResult (s : State) (t : Nat) (e : RingEntry) : State := s.each (s.blindDests e).zipIdx (s.writeRotated t e)

theorem State.mem_blindDests (s : State) (e : RingEntry) (i : Nat) : i ∈ s.blindDests e ↔ e.dst ≤ i ∧ i < e.dst + (s.desc e.a).cap := by
  simp only [State.blindDests, List.mem_map, List.mem_range]
  exact ⟨by rintro ⟨k, hk, rfl⟩; omega, fun h => ⟨i - e.dst, by omega, by omega⟩⟩

theorem State.nodup_blindDests (s : State) (e : RingEntry) : (s.blindDests e).Nodup := List.nodup_range.map (add_left_injective e.dst)

/-- A fold that replaces each descriptor of a list once by its image under `f` does so for those of the list and leaves the others. -/
theorem State.desc_each_of_rewrites {α : Type} (f : RingDesc → RingDesc) (key : α → Nat) {step : State → α → State}
    (h : ∀ (u : State) x, u.Rewrites (key x) (f (u.desc (key x))) (step u x)) (s : State) (l : List α) (nodup : (l.map key).Nodup) (i : Nat) :
    (s.each l step).desc i = if i ∈ l.map key then f (s.desc i) else s.desc i := by
  induction l generalizing s with
  | nil => rfl
  | cons x r ih =>
    obtain ⟨fresh, nodup⟩ := List.nodup_cons.1 nodup
    obtain ⟨new, others, -⟩ := h s x
    rw [State.each_cons, ih _ nodup]
    by_cases hi : i = key x
    · subst hi
      rw [if_neg fresh, new, List.map_cons, if_pos (List.mem_cons_self ..)]
    · simp only [List.map_cons, List.mem_cons, hi, others i hi, false_or]

theorem State.rotateResult_spec (s : State) (t : Nat) (e : RingEntry) :
    (∀ i, e.dst ≤ i → i < e.dst + (s.desc e.a).cap → (s.rotateResult t e).desc i = s.rotatedDesc e (s.desc i)) ∧
    (∀ i, (i < e.dst ∨ e.dst + (s.desc e.a).cap ≤ i) → (s.rotateResult t e).desc i = s.desc i) ∧ (s.rotateResult t e).mem = s.mem := by
  have wrote (u : State) (x : Nat × Nat) : u.Rewrites x.1 (s.rotatedDesc e (u.desc x.1)) (s.writeRotated t e u x) := u.rewrites_writePoly t x.1 _ _
  have keys : (s.blindDests e).zipIdx.map Prod.fst = s.blindDests e := List.zipIdx_map_fst ..
  have descs (i : Nat) : (s.rotateResult t e).desc i = if i ∈ s.blindDests e then s.rotatedDesc e (s.desc i) else s.desc i := by
    have each := State.desc_each_of_rewrites (s.rotatedDesc e) Prod.fst wrote s (s.blindDests e).zipIdx (keys.symm ▸ s.nodup_blindDests e) i
    rwa [keys] at each
  refine ⟨fun i lo hi => ?_, fun i out => ?_, State.each_keeps s State.mem _ _ fun u x _ => (wrote u x).2.2⟩
  · rw [descs, if_pos ((s.mem_blindDests e i).2 ⟨lo, hi⟩)]
  · rw [descs, if_neg fun hi => ?_]
    have range := (s.mem_blindDests e i).1 hi
    omega

end Sys2Proof.Machine
end

section
/-! The obligation on the macros of R374. -/

namespace Sys2Proof.Machine

set_option Elab.async false

open Sys2Proof

/-! ### The entry that each instruction runs (R355, R359) -/

section Instructions

variable (s : State) (t : TenantId) (v : RingEnv)

theorem exec_ringRefresh_eq : exec (.ringRefresh t v) s = .next (s.runEntry t.val 0x40 v (s.refreshChecks t.val)
    (fun e => [s.desc e.dst, s.desc e.a]) (fun e => (s.desc e.a).psid) (fun e => (s.plan e.arg).chunks)
    (fun e => ((s.plan e.arg).scratch, (s.plan e.arg).scratchLen)) fun w e => w.refreshResult t.val e) := rfl

theorem exec_ringExtract_eq : exec (.ringExtract t v) s = .next (s.runEntry t.val 0x41 v (s.extractChecks t.val)
    (fun e => [s.desc e.dst, s.desc e.a]) (fun e => (s.desc e.a).psid) (fun _ => 0)
    (fun e => s.setScratch (s.desc e.a).psid) fun w e => w.extractResult t.val e) := rfl

theorem exec_ringLweSwitch_eq : exec (.ringLweSwitch t v) s = .next (s.runEntry t.val 0x42 v (s.lweChecks t.val)
    (fun e => [s.desc e.dst, s.desc e.a]) (fun e => (s.desc e.a).psid) (fun e => (s.evk e.evk).chunks)
    (fun e => s.setScratch (s.desc e.a).psid) fun w e => w.switchResult t.val e) := rfl

theorem exec_ringBlindRotate_eq : exec (.ringBlindRotate t v) s = .next (s.runEntry t.val 0x43 v (s.blindChecks t.val)
    (fun e => (s.blindDests e).map s.desc ++ [s.desc e.a, s.desc e.b]) (fun e => (s.desc e.a).psid)
    (fun e => ceilDiv (s.desc e.a).cap (s.groupCells (s.params (s.desc e.a).psid).group).length * (s.evk e.evk).chunks)
    (fun e => s.setScratch (s.desc e.a).psid) fun w e => w.rotateResult t.val e) := rfl

end Instructions

/-- Settles O46: an entry of R374 at the head of its tenant's list ends with its first failing check; one that passes them and goes whole writes the
descriptors of its destinations, leaves every other descriptor as it was, and leaves the pages as its lock and unlock do. -/
theorem ringMacrosRunAtTheHead : Obligations.RingMacrosRunAtTheHead := by
  intro s t v m e a d b w go
  rw [exec_ringRefresh_eq, exec_ringExtract_eq, exec_ringLweSwitch_eq, exec_ringBlindRotate_eq]
  refine ⟨fun hm => ⟨fun st hr hf => congrArg _ (State.runEntry_of_refusal hm hr hf), fun hc hg => ?refresh⟩,
    fun hm => ⟨fun st hr hf => congrArg _ (State.runEntry_of_refusal hm hr hf), fun hc hg => ?extract⟩,
    fun hm => ⟨fun st hr hf => congrArg _ (State.runEntry_of_refusal hm hr hf), fun hc hg => ?lweSwitch⟩,
    fun hm => ⟨fun st hr hf => congrArg _ (State.runEntry_of_refusal hm hr hf), fun n hn hc hg => ?blindRotate⟩⟩
  case refresh =>
    obtain ⟨w, u, ⟨descs, -, plans⟩, ended, new, mem, others⟩ := State.runEntry_of_rewrites (opnds := fun e => [s.desc e.dst, s.desc e.a])
      (chunks := fun e => (s.plan e.arg).chunks) (fun w e => w.rewrites_refreshResult t.val e) hm (by decide) hc hg
    simp only [State.refreshedDesc, descs, plans] at new
    refine ⟨u, congrArg _ ended, ?_⟩
    rw [new]
    exact ⟨rfl, rfl, rfl, rfl, rfl, mem, others⟩
  case extract =>
    obtain ⟨w, u, ⟨descs, -, -⟩, ended, new, mem, others⟩ := State.runEntry_of_rewrites (opnds := fun e => [s.desc e.dst, s.desc e.a])
      (chunks := fun _ => 0) (fun w e => w.rewrites_extractResult t.val e) hm (by decide) hc hg
    simp only [State.extractedDesc, descs] at new
    refine ⟨u, congrArg _ ended, ?_⟩
    rw [new]
    exact ⟨rfl, rfl, rfl, mem, others⟩
  case lweSwitch =>
    obtain ⟨w, u, ⟨descs, evks, -⟩, ended, new, mem, others⟩ := State.runEntry_of_rewrites (opnds := fun e => [s.desc e.dst, s.desc e.a])
      (chunks := fun e => (s.evk e.evk).chunks) (fun w e => w.rewrites_switchResult t.val e) hm (by decide) hc hg
    simp only [State.switchedDesc, descs, evks] at new
    refine ⟨u, congrArg _ ended, ?_⟩
    rw [new]
    exact ⟨rfl, rfl, rfl, mem, others⟩
  case blindRotate =>
    subst hn
    obtain ⟨w, u, ⟨descs, evks, -⟩, pages, ended, result, mem⟩ := State.runEntry_of_macroOp
      (opnds := fun e => (s.blindDests e).map s.desc ++ [s.desc e.a, s.desc e.b])
      (chunks := fun e => ceilDiv (s.desc e.a).cap (s.groupCells (s.params (s.desc e.a).psid).group).length * (s.evk e.evk).chunks)
      (body := fun w e => w.rotateResult t.val e) hm (by decide) hc hg
    obtain ⟨written, others, kept⟩ := w.rotateResult_spec t.val e
    simp only [descs] at written others
    refine ⟨u, congrArg _ ended, fun x lo hi => ?_, fun x out => (congrFun result x).trans (others x out), (mem.trans kept).trans pages⟩
    rw [(congrFun result x).trans (written x lo hi), State.rotatedDesc, descs, evks]
    exact ⟨rfl, rfl, rfl, rfl⟩

end Sys2Proof.Machine
end
